-- ==== Sys2Proof/Word.lean ====
section
/-! DEFINITION. Word.lean: the word types of the MV16 and the widths of its names. Plain abbreviations of BitVec;
everything computed with them stands in Machine/. -/

namespace Sys2Proof

/-- One byte of memory. -/
abbrev Byte := BitVec 8

/-- A 64-bit register, scalar register or CSR word (R27, R96). -/
abbrev Word := BitVec 64

/-- A logical core number, 0 to 16,383 (R14). -/
abbrev CoreId := BitVec 14

/-- A physical core number, 0 to 17,407 (R15); larger values name no core. -/
abbrev PhysId := BitVec 15

/-- A region number, 0 to 255 (R60). -/
abbrev RegionId := BitVec 8

/-- A compute die, 0 to 15 (R11). -/
abbrev DieId := BitVec 4

/-- A module quadrant number d × 4 + q, 0 to 63 (R20). -/
abbrev QuadId := BitVec 6

/-- A stack, S0 to S31 (R13). -/
abbrev StackId := BitVec 5

/-- A page of the object range (R262). -/
abbrev PageId := BitVec 24

/-- A global Zoinnath port number 8 × edge + port, 0 to 31 (R318). -/
abbrev ZPort := BitVec 5

/-- A fabric node, 0 to 4,095 (R327). -/
abbrev NodeId := BitVec 12

/-- A pour slot, 0 to 1,023 (R333). -/
abbrev PourSlot := BitVec 10

/-- A ring pair, 0 to 15 (R352). -/
abbrev RingId := BitVec 4

/-- The data of one stream-queue or fetch-queue entry, one pool line (R22, R68). -/
abbrev Line := BitVec 1024

end Sys2Proof
end

