-- ==== Sys2Proof/Config.lean ====
section
/-! DEFINITION. Config.lean: the Traly parameters of the MV16 (R8), and the values the manual leaves open as
constants without a body (free values): no proof can see what they are. -/

namespace Sys2Proof.Config

/-- logical columns and rows of a die (R8, `die_rows`, `die_cols_logical`). -/
def dieRows : Nat := 32
/-- logical columns per row (R8). -/
def dieCols : Nat := 32
/-- physical columns per row (R8). -/
def dieColsPhys : Nat := 34
/-- stream-queue buffer depth (R8 `sq_entries`). -/
def sqEntries : Nat := 16
/-- fetch-queue buffer depth (R8, R186). -/
def fqEntries : Nat := 16
/-- most next-phase entries in an input buffer at once (R69). -/
def nextMax : Nat := 4
/-- engine queue depths (R8, R104). -/
def eqMatrix : Nat := 32
/-- engine queue depths (R8, R104). -/
def eqVector : Nat := 64
/-- engine queue depths (R8, R104). -/
def eqFetch : Nat := 32
/-- engine queue depths (R8, R104). -/
def eqDma : Nat := 16
/-- pending passes of a generator (R194). -/
def agPending : Nat := 4
/-- accepted chains of a DMA channel (R201). -/
def dmaChains : Nat := 4
/-- bytes of a pool slice (R8). -/
def sliceBytes : Nat := 0x400000
/-- lines of a pool slice. -/
def sliceLines : Nat := 32768
/-- lines of a staging area (R74). -/
def stageLines : Nat := 320
/-- accumulator lines (R132). -/
def accLines : Nat := 512
/-- bytes of the operand cache (R160). -/
def cacheBytes : Nat := 0x80000
/-- arbiter pending-queue depth (R8, R313). -/
def arbPending : Nat := 8
/-- regions enabled at once (R61). -/
def regionLimit : Nat := 64
/-- Nemar tags in flight (R8, R358). -/
def tagsInFlight : Nat := 4096
/-- records of the event log (R392). -/
def logRecords : Nat := 65536
/-- signatures of the attestation key (R441). -/
def signatures : Nat := 33554432
/-- beats of R76 steps 1 to 4. -/
def switchBeats : Nat := 352

/-- FREE VALUE (log 2): the value an undefined or unstated result takes; applied to the model's counter
`State.free`, which the step advances. -/
opaque freeWord : Nat → BitVec 64
/-- FREE VALUE (log 2): an undefined byte. -/
opaque freeByte : Nat → BitVec 8
/-- FREE VALUE (log 3): the rounding of a transcendental whose enclosure the model's fuel does not separate
from a rounding boundary (R168 states the exact rounding; the fuel is the model's). -/
opaque freeTranscendental : Nat → Nat → Nat
/-- FREE VALUE (log 4): identifier and root of Geondale's firmware public key (R436), which the manual does not give. -/
opaque firmwareKeyByte : Nat → BitVec 8
/-- FREE VALUE (log 4): what the lower tree's signature of index q over a message holds beside its leaf and typecodes (R441);
the key is not given. -/
opaque signatureByte : Nat → List (BitVec 8) → Nat → BitVec 8
/-- FREE VALUE (log 4): what the top tree's signature with leaf t holds beside its leaf and typecodes (R441, R443). -/
opaque topSignatureByte : Nat → Nat → BitVec 8
/-- FREE VALUE (log 4): identifier and root of lower tree t (R441). -/
opaque lowerKeyByte : Nat → Nat → BitVec 8
/-- FREE VALUE (log 60): the certificate of the session key in SPDM slot 0, its digest, and the n-th signature with that
key (R440), per part. -/
opaque slotCertLen : Nat
/-- FREE VALUE (log 60): see `slotCertLen`. -/
opaque slotCertByte : Nat → BitVec 8
/-- FREE VALUE (log 60): see `slotCertLen`. -/
opaque slotDigestByte : Nat → BitVec 8
/-- FREE VALUE (log 60): see `slotCertLen`. -/
opaque sessionSignByte : Nat → Nat → BitVec 8
/-- FREE VALUE (log 60): the CDAT table of a port (R343), per part. -/
opaque cdatLen : Nat
/-- FREE VALUE (log 60): see `cdatLen`. -/
opaque cdatByte : Nat → Nat → BitVec 8
/-- FREE VALUE (log 4): the module's serial, boot-ROM digest and identity certificate (R439, R445), per part. -/
opaque serialByte : Nat → BitVec 8
/-- FREE VALUE (log 4): the digest of the boot ROM (R445), per part. -/
opaque romDigestByte : Nat → BitVec 8
/-- FREE VALUE (log 4): length of the identity certificate (R439), per part; read modulo 8,193. -/
opaque certLen : Nat
/-- FREE VALUE (log 4): bytes of the identity certificate (R439), per part. -/
opaque certByte : Nat → BitVec 8
/-- FREE VALUE (log 4): the silicon stepping of HST_ID (R347), per part. -/
opaque stepping : BitVec 8
/-- FREE VALUE (log 4): the factory calibration value of an entry kind and key (R432), per part. -/
opaque factoryCal : Nat → Nat → BitVec 64
/-- FREE VALUE (log 4): the accepted range of a stack timing parameter, the vendor table of R432. -/
opaque stackParamOk : Nat → BitVec 32 → Bool
/-- FREE VALUE (log 115): by how many W the input power falls when the rail of a quadrant at a rate and a voltage is lowered
by 5 mV (R53); the manual gives no power model. -/
opaque powerStep : Nat → Nat → Nat

end Sys2Proof.Config
end

