-- ==== Sys2Proof/Syntax.lean ====
section
/-! DEFINITION. Syntax.lean: the commands of the MV16, one constructor of `Instr` per row of the opcode table (an
instruction issued by a core's control core, an event of the module, a flit that arrives, a Nemar command, a register
write, an event of the power assembly), with the row's operands. An instruction row carries EVERY field of its
64-bit word below the opcode, the fields marked zero included (R99, R464), so that a nonzero zero field is a command
like any other. Environment inputs of an event (a reading, whether a probe was answered) are its operands. -/

namespace Sys2Proof

/-- Format A (R99): [55:51] sd, [50:46] sa, [45:41] sb, [40:0] zero. -/
structure FmtA where
  sd : BitVec 5
  sa : BitVec 5
  sb : BitVec 5
  z : BitVec 41
  deriving DecidableEq, Repr

/-- Format I (R99): [55:51] sd or ss, [50:46] sa, [45:32] zero, [31:0] imm32. -/
structure FmtI where
  sd : BitVec 5
  sa : BitVec 5
  z : BitVec 14
  imm : BitVec 32
  deriving DecidableEq, Repr

/-- Format W (R99): [55:51] sd, [50:48] zero, [47:0] imm48. -/
structure FmtW where
  sd : BitVec 5
  z : BitVec 3
  imm : BitVec 48
  deriving DecidableEq, Repr

/-- Format B (R99): [55:51] sa or sd, [50:46] sb, [45:12] zero, [11:0] target. -/
structure FmtB where
  sa : BitVec 5
  sb : BitVec 5
  z : BitVec 34
  target : BitVec 12
  deriving DecidableEq, Repr

/-- Format C (R99): [55:51] zero, [50:46] sa, [45:36] zero, [35:32] kind, [31:0] imm32. -/
structure FmtC where
  z1 : BitVec 5
  sa : BitVec 5
  z2 : BitVec 10
  kind : BitVec 4
  imm : BitVec 32
  deriving DecidableEq, Repr

/-- MLOAD (R135). -/
structure FmtMload where
  delay : BitVec 4
  sKM : BitVec 5
  isrc : BitVec 4
  ifmt : BitVec 4
  p : BitVec 1
  z : BitVec 38
  deriving DecidableEq, Repr

/-- MSTR and MSTRL (R135); in MSTR sKM, isrc and ifmt are bits [12:0] and must be zero. -/
structure FmtMstr where
  delay : BitVec 4
  sN : BitVec 5
  sB : BitVec 5
  wsrc : BitVec 4
  wssrc : BitVec 4
  wfmt : BitVec 4
  acc : BitVec 2
  accBase : BitVec 9
  depth : BitVec 4
  last : BitVec 1
  p : BitVec 1
  sKM : BitVec 5
  isrc : BitVec 4
  ifmt : BitVec 4
  deriving DecidableEq, Repr

/-- MMA (R145). -/
structure FmtMma where
  delay : BitVec 4
  sC : BitVec 5
  sX : BitVec 5
  sL : BitVec 5
  wsrc : BitVec 4
  wssrc : BitVec 4
  isrc : BitVec 4
  wfmt : BitVec 4
  ifmt : BitVec 4
  dest : BitVec 2
  accBase : BitVec 9
  oq : BitVec 3
  z : BitVec 3
  deriving DecidableEq, Repr

/-- Format V of the vector engine (R162). -/
structure FmtV where
  delay : BitVec 4
  sN : BitVec 5
  opd : BitVec 7
  opa : BitVec 7
  opb : BitVec 7
  opc : BitVec 7
  fmt : BitVec 4
  aux : BitVec 4
  rnd : BitVec 1
  sS : BitVec 5
  tap : BitVec 1
  z : BitVec 4
  deriving DecidableEq, Repr

/-- FGO (R193). -/
structure FmtFgo where
  delay : BitVec 4
  g : BitVec 2
  sOff : BitVec 5
  sCnt : BitVec 5
  z : BitVec 40
  deriving DecidableEq, Repr

/-- FSTOP (R193). -/
structure FmtFstop where
  delay : BitVec 4
  g : BitVec 2
  z : BitVec 50
  deriving DecidableEq, Repr

/-- DMA (R201). -/
structure FmtDma where
  delay : BitVec 4
  ch : BitVec 1
  sD : BitVec 5
  z : BitVec 46
  deriving DecidableEq, Repr

/-- The two slot-counted engines (R105). -/
inductive Engine where
  | matrix
  | vector
  deriving DecidableEq, Repr

/-- What a read issued by a fetch engine meets (R199, R283): good data; an uncorrectable error whose single retry
succeeds; one whose retry fails too; a target that fails. -/
inductive ReadOutcome where
  | good
  | errorRetried
  | errorLasting
  | targetFailed
  deriving DecidableEq, Repr

/-- What the read of one 128-byte piece of a COPY meets (R199, R200, R205): an outcome, or no answer within the deadline. -/
inductive PieceRead where
  | met (o : ReadOutcome)
  | late
  deriving DecidableEq, Repr

/-- What the writes of a DMA descriptor meet (R206, R207): all accepted; a write refused or a path failed after
`pieces` accepted 128-byte pieces; a failed confirming read-back. -/
inductive DmaWrites where
  | accepted
  | failedAfter (pieces : Nat)
  | readBackFailed
  deriving DecidableEq, Repr

/-- What a DMA descriptor meets: its source reads by piece, those not named being good, and its writes. -/
structure DmaOutcome where
  reads : List (Nat × PieceRead) := []
  writes : DmaWrites := .accepted
  deriving DecidableEq, Repr

/-- What piece i of a descriptor meets. -/
def DmaOutcome.read (o : DmaOutcome) (i : Nat) : PieceRead :=
  match o.reads.find? (fun x => x.1 == i) with
  | some x => x.2
  | none => .met .good

/-- How a page move ends (R275, R276). -/
inductive MoveOutcome where
  | copied
  | sourceUncorrectable
  | destinationFailed
  deriving DecidableEq, Repr

/-- What a flit meets at a die boundary (R35): it passes; a code error whose resend passes; a lasting code error. -/
inductive HopOutcome where
  | clean
  | codeErrorResent
  | codeErrorLasting
  deriving DecidableEq, Repr

/-- One overriding routing-table entry of a plan (R293): router, table (true: Y), index, 4-bit entry. -/
structure RouteEntry where
  router : PhysId
  isY : Bool
  index : BitVec 8
  entry : BitVec 4
  deriving DecidableEq, Repr

/-- Why Nemar plans the routes: bring-up, which is no re-plan (R420), or a cause of R295 and R388. -/
inductive ReplanTrigger where
  | bringUp
  | routerFailed (p : PhysId)
  | quadrantEbb (q : QuadId)
  | quadrantReturn (q : QuadId)
  | linkFailed (p : PhysId) (dir : BitVec 2)
  deriving DecidableEq, Repr

/-- A route plan (R295, R296): its trigger, the entries that differ from plain dimension order, and the logical cores
that no acyclic plan reaches. -/
structure RoutePlan where
  trigger : ReplanTrigger
  entries : List RouteEntry
  unreachable : List CoreId
  deriving DecidableEq, Repr

/-- One quadrant's readings (R456): four junction sensors in units of 0.01 °C before calibration offsets, rail current in A. -/
structure QuadSample where
  q : QuadId
  t0 : BitVec 16
  t1 : BitVec 16
  t2 : BitVec 16
  t3 : BitVec 16
  irail : BitVec 11
  deriving DecidableEq, Repr

/-- Coolant readings in °C (R458). -/
structure CoolReadings where
  dieIn : BitVec 8
  dieOut : BitVec 8
  pwrIn : BitVec 8
  pwrOut : BitVec 8
  deriving DecidableEq, Repr

/-- The readings of one sensor sample (R456, R458): quadrants, stacks (0.01 °C), input in the units of MOD_PWR_STAT. -/
structure SensorReadings where
  quads : List QuadSample
  dram : List (StackId × BitVec 16)
  pin : BitVec 16
  iin : BitVec 16
  vin : BitVec 16
  cool : CoolReadings
  deriving DecidableEq, Repr

/-- A management hart (R12): the four primary harts of EN and the deputies of EE, ES and EW. -/
inductive Hart where
  | primary (i : BitVec 2)
  | deputyEE
  | deputyES
  | deputyEW
  deriving DecidableEq, Repr

/-- The fields of a Zoinnath flit that is not fixed by its kind (R319); `data` is the payload, first line lowest. -/
structure Flit where
  cls : BitVec 1
  dst : NodeId
  src : NodeId
  tag : BitVec 12
  addr : BitVec 41
  pois : BitVec 16
  aux : BitVec 32
  seq : BitVec 12
  data : BitVec 2048
  deriving DecidableEq, Repr

/-- A Nemar command in flight (R358, R351): the one a ring's tag names, or the boot mailbox's. -/
inductive CmdRef where
  | tag (t : BitVec 12)
  | boot
  deriving DecidableEq, Repr

/-- What the rows of bring-up find (R420 to R423): cores and routers that fail their self-test twice, quadrants below R45, dies
that cannot be brought up, CXL ports that train; cores whose test passes when run again; image slots whose bytes have spoilt
(R431); what the ROM reads of the journal (R426): halves with an invalid header, 0 for A and 1 for B, and the record at which
the scan stops; whether records written from then on fail their program-verify once, or twice (R428); a deputy hart that does
not start; the entries of the route tables and the cores that no plan reaches (R296). -/
structure BootReport where
  failed : List PhysId
  routers : List PhysId
  slow : List QuadId
  diesOut : List DieId
  cxlUp : List (BitVec 1)
  retried : List PhysId := []
  spoilt : List (BitVec 2) := []
  badHalves : List (BitVec 1) := []
  badRecord : Option Nat := none
  verifyWeak : Bool := false
  verifyFails : Bool := false
  deputyFails : Bool := false
  entries : List RouteEntry := []
  unreached : List CoreId := []
  deriving DecidableEq, Repr

/-- The self-tests of a quadrant that returns (R389, R403): physical cores that fail twice, and that pass when run again. -/
structure SelfTests where
  failed : List PhysId
  retried : List PhysId := []
  deriving DecidableEq, Repr

/-- A core's storages beside its pool slice, whose errors R392 tells apart. -/
inductive CoreSram where
  | cache
  | vreg
  | acc
  | imem
  deriving DecidableEq, Repr

/-- What a core's own checks report (R389, R393). -/
inductive SelfCheck where
  | selfCheck
  | ringStopped
  | routerFailed
  /-- the spare in test for the core has passed its self-test when it was run again. -/
  | spareRetried
  /-- the router of another physical core, which may be a spare or fenced, has failed. -/
  | routerOf (p : PhysId)
  /-- a read of the core's own storage met an uncorrectable error, which the read again met or did not meet. -/
  | storage (u : CoreSram) (loc : Nat) (lasting : Bool)
  deriving DecidableEq, Repr

/-- The end of a port's training (R321, R323): lanes that work, the far end's node and global port, and for a caddy its
identity words 0 and 1 (R329). -/
structure PortTraining where
  lanesGood : BitVec 8
  node : NodeId
  rport : ZPort
  ident0 : Word
  ident1 : Word
  deriving DecidableEq, Repr

/-- A copy a migration mover makes: shard i of a CKPT_COPY (R408) or entry i of the re-shard table (R341). -/
inductive CopyJob where
  | shard (k : CmdRef) (i : BitVec 12)
  | reshard (i : BitVec 12)
  deriving DecidableEq, Repr

/-- How a mover's copy ends (R409). -/
inductive CopyOutcome where
  | confirmed
  | readFailed
  | writeFailed
  | hostBufferFailed
  deriving DecidableEq, Repr

/-- The IDE streams of a port (R447): the selective one of CXL.io, and the link's of CXL.cachemem. -/
inductive IdeStream where
  | io
  | cachemem
  deriving DecidableEq, Repr

/-- Messages on a port's DOE mailbox (R343, R440, R447); a stream of CXL.cachemem is set secure in containment or skid mode. -/
inductive DoeMessage where
  | cdat
  | spdmVersion
  | spdmCapabilities
  | spdmAlgorithms
  | spdmDigests
  | spdmCertificate
  | spdmKeyExchange
  | spdmFinish
  | spdmUnsupported
  | ideKeyProgram (k : IdeStream)
  | ideSetSecure (k : IdeStream) (containment : Bool)
  deriving DecidableEq, Repr

/-- How a stack fails (R388, R454). -/
inductive StackFault where
  | port
  | onePhase
  | bothPhases
  deriving DecidableEq, Repr

/-- One command of the module: one constructor per row of the opcode table. -/
inductive Instr where
  /-- NOP (R101). Control-core instruction that does nothing for one slot. -/
  | nop (c : CoreId) (f : FmtC)
  /-- ADD (R101). Writes sa + sb into sd, visible one slot later. -/
  | add (c : CoreId) (f : FmtA)
  /-- SUB (R101). Writes sa - sb into sd. -/
  | sub (c : CoreId) (f : FmtA)
  /-- AND (R101). Writes the bitwise AND of sa and sb into sd. -/
  | and (c : CoreId) (f : FmtA)
  /-- OR (R101). Writes the bitwise OR of sa and sb into sd. -/
  | or (c : CoreId) (f : FmtA)
  /-- XOR (R101). Writes the bitwise XOR of sa and sb into sd. -/
  | xor (c : CoreId) (f : FmtA)
  /-- SLL (R101). Shifts sa left by sb[5:0] into sd. -/
  | sll (c : CoreId) (f : FmtA)
  /-- SRL (R101). Shifts sa right logically by sb[5:0] into sd. -/
  | srl (c : CoreId) (f : FmtA)
  /-- SRA (R101). Shifts sa right arithmetically by sb[5:0] into sd. -/
  | sra (c : CoreId) (f : FmtA)
  /-- SLT (R101). Sets sd to 1 when sa < sb signed, else 0. -/
  | slt (c : CoreId) (f : FmtA)
  /-- SLTU (R101). Sets sd to 1 when sa < sb unsigned, else 0. -/
  | sltu (c : CoreId) (f : FmtA)
  /-- MIN (R101). Writes the signed minimum of sa and sb into sd. -/
  | min (c : CoreId) (f : FmtA)
  /-- MAX (R101). Writes the signed maximum of sa and sb into sd. -/
  | max (c : CoreId) (f : FmtA)
  /-- MUL (R101). Writes the low 64 bits of sa × sb into sd, visible three slots later. -/
  | mul (c : CoreId) (f : FmtA)
  /-- MULHU (R101). Writes the high 64 bits of the unsigned product into sd. -/
  | mulhu (c : CoreId) (f : FmtA)
  /-- FLT (R101). Sets sd to 1 when sa[31:0] < sb[31:0] as FP32. -/
  | flt (c : CoreId) (f : FmtA)
  /-- FLE (R101). Sets sd to 1 when sa[31:0] ≤ sb[31:0] as FP32. -/
  | fle (c : CoreId) (f : FmtA)
  /-- SLOT (R101). Writes the number of its own slot into sd. -/
  | slot (c : CoreId) (f : FmtA)
  /-- ADDI (R101). Writes sa + imm32 into sd. -/
  | addi (c : CoreId) (f : FmtI)
  /-- ANDI (R101). Writes sa AND imm32 into sd. -/
  | andi (c : CoreId) (f : FmtI)
  /-- ORI (R101). Writes sa OR imm32 into sd. -/
  | ori (c : CoreId) (f : FmtI)
  /-- XORI (R101). Writes sa XOR imm32 into sd. -/
  | xori (c : CoreId) (f : FmtI)
  /-- SLLI (R101). Shifts sa left by imm32[5:0] into sd. -/
  | slli (c : CoreId) (f : FmtI)
  /-- SRLI (R101). Shifts sa right logically by imm32[5:0] into sd. -/
  | srli (c : CoreId) (f : FmtI)
  /-- SRAI (R101). Shifts sa right arithmetically by imm32[5:0] into sd. -/
  | srai (c : CoreId) (f : FmtI)
  /-- SLTI (R101). Sets sd to 1 when sa < imm32 signed. -/
  | slti (c : CoreId) (f : FmtI)
  /-- LI (R101). Loads the zero-extended imm48 into sd. -/
  | li (c : CoreId) (f : FmtW)
  /-- LIH (R101). Replaces sd[63:48] with imm48[15:0]. -/
  | lih (c : CoreId) (f : FmtW)
  /-- LD (R102). Loads a 64-bit word from the own pool slice, visible four slots later, setting SPOISON for a poisoned line. -/
  | ld (c : CoreId) (f : FmtI)
  /-- ST (R102). Stores a 64-bit word into the own pool slice. -/
  | st (c : CoreId) (f : FmtI)
  /-- LCSR (R102). Reads a register of the own CORE_ block into sd. -/
  | lcsr (c : CoreId) (f : FmtI)
  /-- SCSR (R102). Writes a register of the own CORE_ block, taking effect four slots later. -/
  | scsr (c : CoreId) (f : FmtI)
  /-- BEQ (R103). Branches to target when sa = sb, costing an empty slot when taken. -/
  | beq (c : CoreId) (f : FmtB)
  /-- BNE (R103). Branches when sa ≠ sb. -/
  | bne (c : CoreId) (f : FmtB)
  /-- BLT (R103). Branches when sa < sb signed. -/
  | blt (c : CoreId) (f : FmtB)
  /-- BGE (R103). Branches when sa ≥ sb signed. -/
  | bge (c : CoreId) (f : FmtB)
  /-- BLTU (R103). Branches when sa < sb unsigned. -/
  | bltu (c : CoreId) (f : FmtB)
  /-- BGEU (R103). Branches when sa ≥ sb unsigned. -/
  | bgeu (c : CoreId) (f : FmtB)
  /-- J (R103). Jumps to target. -/
  | j (c : CoreId) (f : FmtB)
  /-- JAL (R101). Writes the return address into sd and jumps to target. -/
  | jal (c : CoreId) (f : FmtB)
  /-- JR (R103). Jumps to sa[11:0]. -/
  | jr (c : CoreId) (f : FmtB)
  /-- WAITS (R108). Idles for the slot count held in sa, issuing empty slots. -/
  | waits (c : CoreId) (f : FmtC)
  /-- WAITI (R108). Idles for imm32 slots. -/
  | waiti (c : CoreId) (f : FmtC)
  /-- WAITD (R109). Idles until the slot numbered sa. -/
  | waitd (c : CoreId) (f : FmtC)
  /-- SWAPI (R114). Makes the inactive instruction bank active and continues at imm32[11:0], or faults IMEM_BUSY. -/
  | swapi (c : CoreId) (f : FmtC)
  /-- ENDS (R117). Ends the section: stops issue and lets engines retire before the core waits for the switch. -/
  | ends (c : CoreId) (f : FmtC)
  /-- EVT (R118). Sends an event message of a kind, code and value to the primary management processor. -/
  | evt (c : CoreId) (f : FmtC)
  /-- BARA (R306). Arrives at barrier b without holding issue, counting the arrival in CORE_BAR_STAT. -/
  | bara (c : CoreId) (f : FmtC)
  /-- TRAP (R119). Raises the program fault TRAP with a code. -/
  | trap (c : CoreId) (f : FmtC)
  /-- MLOAD (R135). Loads an input plane from a source in a format over 32 groups. -/
  | mload (c : CoreId) (f : FmtMload)
  /-- MSTR (R135). Streams N weight rows through a plane into the accumulator file in OVW or TREE mode. -/
  | mstr (c : CoreId) (f : FmtMstr)
  /-- MSTRL (R135). Streams weight rows through one plane while loading the other plane. -/
  | mstrl (c : CoreId) (f : FmtMstr)
  /-- MMA (R152). Walks whole matrices tile by tile and writes its exact slot cost into sC. -/
  | mma (c : CoreId) (f : FmtMma)
  /-- VADD (R167). Element-wise addition. -/
  | vadd (c : CoreId) (f : FmtV)
  /-- VSUB (R167). Element-wise subtraction. -/
  | vsub (c : CoreId) (f : FmtV)
  /-- VMUL (R167). Element-wise multiplication. -/
  | vmul (c : CoreId) (f : FmtV)
  /-- VFMA (R167). Element-wise fused multiply-add rounded once. -/
  | vfma (c : CoreId) (f : FmtV)
  /-- VDIV (R167). Element-wise correctly rounded division. -/
  | vdiv (c : CoreId) (f : FmtV)
  /-- VSQRT (R167). Element-wise square root. -/
  | vsqrt (c : CoreId) (f : FmtV)
  /-- VRSQRT (R167). Element-wise reciprocal square root. -/
  | vrsqrt (c : CoreId) (f : FmtV)
  /-- VEXP (R167). Element-wise natural exponential. -/
  | vexp (c : CoreId) (f : FmtV)
  /-- VEXP2 (R167). Element-wise base-2 exponential. -/
  | vexp2 (c : CoreId) (f : FmtV)
  /-- VLOG2 (R167). Element-wise base-2 logarithm. -/
  | vlog2 (c : CoreId) (f : FmtV)
  /-- VTANH (R167). Element-wise hyperbolic tangent. -/
  | vtanh (c : CoreId) (f : FmtV)
  /-- VMAX (R167). Element-wise maximum. -/
  | vmax (c : CoreId) (f : FmtV)
  /-- VMIN (R167). Element-wise minimum. -/
  | vmin (c : CoreId) (f : FmtV)
  /-- VABS (R167). Element-wise absolute value. -/
  | vabs (c : CoreId) (f : FmtV)
  /-- VNEG (R167). Element-wise negation. -/
  | vneg (c : CoreId) (f : FmtV)
  /-- VCMPLT (R167). Element-wise less-than compare. -/
  | vcmplt (c : CoreId) (f : FmtV)
  /-- VCMPLE (R167). Element-wise less-or-equal compare. -/
  | vcmple (c : CoreId) (f : FmtV)
  /-- VCMPEQ (R167). Element-wise equality compare. -/
  | vcmpeq (c : CoreId) (f : FmtV)
  /-- VISFIN (R167). Element-wise finiteness test. -/
  | visfin (c : CoreId) (f : FmtV)
  /-- VSEL (R167). Element-wise select by an active mask element. -/
  | vsel (c : CoreId) (f : FmtV)
  /-- VMOV (R167). Element-wise bit-exact move. -/
  | vmov (c : CoreId) (f : FmtV)
  /-- VCVT (R169). Converts elements between formats, including MX scale choice. -/
  | vcvt (c : CoreId) (f : FmtV)
  /-- VSPLAT (R167). Writes the low bits of sS into every element. -/
  | vsplat (c : CoreId) (f : FmtV)
  /-- VIOTA (R167). Writes sS + e into element e. -/
  | viota (c : CoreId) (f : FmtV)
  /-- VRAND (R167). Writes uniform draws from the counter-based generator. -/
  | vrand (c : CoreId) (f : FmtV)
  /-- VPLD (R170). Loads elements from the own pool slice. -/
  | vpld (c : CoreId) (f : FmtV)
  /-- VPST (R170). Stores elements into the own pool slice. -/
  | vpst (c : CoreId) (f : FmtV)
  /-- VFXADD (R171). Adds FP32 deltas to FX48 masters rounded once. -/
  | vfxadd (c : CoreId) (f : FmtV)
  /-- VBCR (R173). Combines a tile with a row vector broadcast. -/
  | vbcr (c : CoreId) (f : FmtV)
  /-- VBCC (R173). Combines a tile with a column vector broadcast. -/
  | vbcc (c : CoreId) (f : FmtV)
  /-- VRROW (R174). Reduces each tile row to one element. -/
  | vrrow (c : CoreId) (f : FmtV)
  /-- VCOMPRESS (R175). Packs the masked-active elements and writes their count into sS. -/
  | vcompress (c : CoreId) (f : FmtV)
  /-- VEXPAND (R176). Scatters packed elements to the active mask positions. -/
  | vexpand (c : CoreId) (f : FmtV)
  /-- VRED (R177). Reduces n elements to one scalar of a kind in sS. -/
  | vred (c : CoreId) (f : FmtV)
  /-- HFLUSH (R182). Adds the histogram tap counters into a pool record and clears them. -/
  | hflush (c : CoreId) (f : FmtV)
  /-- FGO (R193). Queues a pass of an address generator with an offset and outer count. -/
  | fgo (c : CoreId) (f : FmtFgo)
  /-- FSTOP (R194). Discards a generator's pending passes and stops it after the present tile. -/
  | fstop (c : CoreId) (f : FmtFstop)
  /-- DMA (R201). Hands a descriptor chain in the pool slice to a DMA channel. -/
  | dma (c : CoreId) (f : FmtDma)
  /-- ENGINE_INSTR_START (R105). A queued matrix or vector instruction starts at its computed start slot. -/
  | engineInstrStart (c : CoreId) (e : Engine)
  /-- ENGINE_GROUP (R106). One group of an engine instruction reads its operands at its slot and makes results visible D slots later. -/
  | engineGroup (c : CoreId) (e : Engine)
  /-- MMA_TILE (R149). The tile sequencer starts a computed or skipped tile of the walk. -/
  | mmaTile (c : CoreId)
  /-- SQ_ENTRY_SEND (R69). An output queue sends an entry to its bound input queue when it holds a credit of the entry's phase. -/
  | sqEntrySend (c : CoreId) (q : BitVec 3)
  /-- SQ_ENTRY_ARRIVE (R70). An entry reaches an input queue buffer or spill area, ending any stall waiting on it. -/
  | sqEntryArrive (c : CoreId) (q : BitVec 3)
  /-- SQ_CREDIT_GRANT (R69). An input queue returns a credit for a freed buffer or spill entry. -/
  | sqCreditGrant (c : CoreId) (q : BitVec 3) (phase : Bool)
  /-- SPILL_RETURN (R70). A spilled entry returns to the buffer head after its line is granted. -/
  | spillReturn (c : CoreId) (q : BitVec 4)
  /-- STAGED (R74). A core receives the STAGED message confirming its staging area is written. -/
  | staged (c : CoreId)
  /-- CORE_SWITCH (R76). A core whose switch conditions hold sends tidelines, loads the staged image, commits and inverts its phase. -/
  | coreSwitch (c : CoreId)
  /-- DEADLOCK_SAMPLE (R81). The module samples stream-queue progress of watched regions every 250 µs. -/
  | deadlockSample
  /-- DEADLOCK_REPORT (R82). A wait cycle without progress for 1 ms halts its region, ends its request and records the cycle. -/
  | deadlockReport (r : RegionId)
  /-- EBB_DRAIN_COMPLETE (R86). A drained region confirmed empty over the control net moves to SLACK and REGION_DRAIN completes. -/
  | ebbDrainComplete (r : RegionId)
  /-- STOP_CONFIRM (R89). A core stopped by scan-out confirms its stop, and the region moves to SCANNING when all have. -/
  | stopConfirm (c : CoreId)
  /-- SCAN_COMPLETE (R95). The last die finishes writing the region's state images and the region becomes SAVED. -/
  | scanComplete (r : RegionId)
  /-- FLOOD_COMPLETE (R93). The last die finishes restoring images and the region resumes from its stopped slot. -/
  | floodComplete (r : RegionId)
  /-- FAULT_MESSAGE (R119). Nemar receives a program-fault message, ends the request, logs and resets the region. -/
  | faultMessage (c : CoreId)
  /-- EVT_MESSAGE (R118). The primary receives an EVT message and logs it or counts a DONE. -/
  | evtMessage (c : CoreId)
  /-- REQ_TIMEOUT (R375). A request not complete LIMIT ms after its start ends and its region is reset. -/
  | reqTimeout (r : RegionId)
  /-- AG_TILE_READ (R195). A READ generator begins reading its next tile once run-ahead and free entries allow. -/
  | agTileRead (c : CoreId) (g : BitVec 2)
  /-- FETCH_READ_RETURN (R195). A read response arrives and is placed in order through the landing area to the fetch queue. -/
  | fetchReadReturn (c : CoreId) (g : BitVec 2) (k : Nat) (o : ReadOutcome)
  /-- READ_DEADLINE_EXPIRE (R199). A read unanswered within RDL is delivered as a wholly poisoned run. -/
  | readDeadlineExpire (c : CoreId) (g : BitVec 2) (k : Nat)
  /-- AG_WRITE_ENTRY (R191). A WRITE generator takes an entry from its input queue and writes its runs. -/
  | agWriteEntry (c : CoreId) (g : BitVec 2)
  /-- PACK_FRAME (R238). The pack channel converts 4,096 elements into an MX or mask frame for its WRITE generator. -/
  | packFrame (c : CoreId)
  /-- UNPACK_FRAME (R239). The unpack channel decodes a read frame into BF16 or FP32 entries. -/
  | unpackFrame (c : CoreId)
  /-- DMA_DESCRIPTOR (R203). A DMA channel reads and carries out the next descriptor of its chain. -/
  | dmaDescriptor (c : CoreId) (ch : BitVec 1) (o : DmaOutcome)
  /-- POSTED_WRITE_REFUSED (R207). A target refuses a write of an already completed POSTED descriptor, setting PFAIL. -/
  | postedWriteRefused (c : CoreId) (ch : BitVec 1)
  /-- PT_MISS_WALK (R266). A translation-cache miss reads the placement entry from the table. -/
  | ptMissWalk (c : CoreId) (p : PageId)
  /-- PT_INVALIDATE (R266). An MU receives a placement invalidation, drops the entry and acknowledges. -/
  | ptInvalidate (c : CoreId) (p : PageId)
  /-- MIG_EVAL (R274). The migration loop evaluates page heat and steep windows each PERIOD and chooses moves. The reads behind
  HEAT are counted in the state; the operand `heat` has no part in the meaning. -/
  | migEval (heat : List (PageId × BitVec 16))
  /-- PAGE_MOVE_COMPLETE (R275). After the copy the engine writes the new location, clears MOVING and releases held writes. -/
  | pageMoveComplete (p : PageId) (o : MoveOutcome)
  /-- TIER_REPORT (R280). Nemar receives a tier report, ends the region's request, logs and resets the region. -/
  | tierReport (r : RegionId)
  /-- WATCH_TICK (R282). The control net carries a watchdog tick from EN every 250 µs. -/
  | watchTick
  /-- WDOG_EXPIRE (R282). A weight-starved wait lasting MS milliseconds raises TIER_TIMEOUT. -/
  | wdogExpire (c : CoreId)
  /-- FLIT_HOP (R293). A router forwards a flit by its epoch's routing table. -/
  | flitHop (f : Nat) (o : HopOutcome)
  /-- ARB_REQUEST (R311). A request reaches an arbiter and is granted, parked or refused. -/
  | arbRequest (c : CoreId) (a : BitVec 5) (k : BitVec 3)
  /-- ARB_RESOURCE_FREE (R311). A freed resource grants the highest-priority oldest parked request. -/
  | arbResourceFree (c : CoreId) (a : BitVec 5)
  /-- ARB_WITHDRAW (R312). A requester withdraws a granted request, wasting one dead beat. -/
  | arbWithdraw (c : CoreId) (a : BitVec 5)
  /-- REPLAN (R295). Nemar computes and writes new routes into the idle bank on a router failure, ebb or return. -/
  | replan (plan : RoutePlan)
  /-- EPOCH_FLIP (R295). Injectors receive EPOCH_FLIP and mark new flits with the new route epoch. -/
  | epochFlip (p : PhysId)
  /-- OLD_EMPTY (R295). A router holding no old-epoch flit for 256 beats sets OLD_EMPTY. -/
  | oldEmpty (p : PhysId)
  /-- BARRIER_ARRIVAL (R305). A die barrier unit counts an arrival and forwards a completed die count to the root. -/
  | barrierArrival (c : CoreId) (b : BitVec 8)
  /-- BARRIER_RELEASE (R306). A barrier release reaches a core and is delivered in order of its arrivals. -/
  | barrierRelease (c : CoreId) (b : BitVec 8)
  /-- RATE_SENSOR_COMPARE (R38). Each quadrant's reference ring is compared with the edge oscillator every 10 µs. -/
  | rateSensorCompare (q : QuadId) (rate : BitVec 8)
  /-- RATE_LOOP_EVAL (R53). The rate loop adjusts each quadrant's rail within its bounds every 100 µs. -/
  | rateLoopEval
  /-- THERMAL_LOOP_EVAL (R55). The thermal loop throttles quadrants above T_work every 1 ms. -/
  | thermalLoopEval
  /-- TWORK_RAISE (R55). Each full 10 s without throttling raises T_work by 1 °C. -/
  | tworkRaise (q : QuadId)
  /-- SENSOR_SAMPLE (R456). Junction, rail and stack sensors are refreshed every 10 µs. -/
  | sensorSample (r : SensorReadings)
  /-- USEC_TICK (R49). MOD_USEC increments each microsecond from the EN oscillator. -/
  | usecTick
  /-- HEARTBEAT_TICK (R362). The primary increments HST_HEARTBEAT every 1 ms. -/
  | heartbeatTick
  /-- PROBE (R393). The die barrier unit probes every core of every enabled region once per millisecond. -/
  | probe (c : CoreId) (answered : Bool)
  /-- PROBE_RETRY (R393). An unanswered probe is sent again 100 µs later. -/
  | probeRetry (c : CoreId) (answered routerWorks : Bool)
  /-- WEAK_CORE_FENCE (R390). A weak core is fenced once no enabled region holds a core the fence would move. -/
  | weakCoreFence (c : CoreId)
  /-- THERMAL_EBB (R402). A quadrant held too hot has its cores made unavailable and its regions scanned out. -/
  | thermalEbb (q : QuadId)
  /-- EBB_POWER_OFF (R402). After scan-out and re-plan, or 100 ms, the quadrant is powered off and unfinished regions become LOST. -/
  | ebbPowerOff (q : QuadId)
  /-- QUADRANT_RETURN (R403). A quadrant at or below 70 °C for 1 s is powered on, self-tested and returned to service. -/
  | quadrantReturn (q : QuadId) (t : SelfTests)
  /-- HART_WATCHDOG_EXPIRE (R404). A management hart that misses its 5 ms watchdog is restarted or fenced. -/
  | hartWatchdogExpire (h : Hart)
  /-- READ (R320). A READ flit arrives asking for one or two lines. -/
  | read (p : ZPort) (f : Flit)
  /-- RESP (R320). A RESP flit returns read data with poison marks. -/
  | resp (p : ZPort) (f : Flit)
  /-- WRITE (R320). A WRITE flit delivers one or two lines. -/
  | write (p : ZPort) (f : Flit)
  /-- WACK (R320). A WACK flit acknowledges a write. -/
  | wack (p : ZPort) (f : Flit)
  /-- ERR (R320). An ERR flit reports a target ABSENT or FAILED. -/
  | err (p : ZPort) (f : Flit)
  /-- POUR (R336). A POUR flit delivers a contribution line to the folding reducer. -/
  | pour (p : ZPort) (f : Flit)
  /-- PCREDIT (R336). A PCREDIT flit grants a contributor a window of a pour slot. -/
  | pcredit (p : ZPort) (f : Flit)
  /-- PNAK (R338). A PNAK flit refuses a pour line for a stale epoch, duplicate or slot. -/
  | pnak (p : ZPort) (f : Flit)
  /-- CTRL (R320). A CTRL flit carries a control-class message such as a fabric barrier or re-shard message. -/
  | ctrl (p : ZPort) (f : Flit)
  /-- LCREDIT (R320). An LCREDIT flit returns link flit buffers. -/
  | lcredit (p : ZPort) (f : Flit)
  /-- LACK (R321). An LACK flit lets the port drop acknowledged flits from its replay buffer. -/
  | lack (p : ZPort) (f : Flit)
  /-- LNAK (R321). An LNAK flit makes the sender resend from the named flit onward. -/
  | lnak (p : ZPort) (f : Flit)
  /-- PORT_RETRAIN (R321). A lasting CRC error holds a port's traffic and retrains it on eight, four or no lanes. -/
  | portRetrain (p : ZPort) (lanesGood : BitVec 8)
  /-- EQ_LOOP_EVAL (R322). The link equalisation loop adapts lane taps each period within MAXDEV. -/
  | eqLoopEval (p : ZPort) (lane : BitVec 3) (dev : BitVec 8)
  /-- POUR_TIMEOUT (R338). A pour round not complete TIMEOUT ms after its first line fails. -/
  | pourTimeout (sl : PourSlot)
  /-- DRAINED (R341). A participant reports to the coordinator that its epoch-e rounds have ended. -/
  | drained (n : NodeId)
  /-- COPY (R341). The coordinator's COPY message starts the re-shard copies. -/
  | copy
  /-- COMMIT (R341). The COMMIT message sets MOD_LAYOUT to the new epoch and completes RESHARD. -/
  | commit
  /-- ABANDON (R342). The ABANDON message completes RESHARD with RESHARD_BUSY and reopens epoch-e rounds. -/
  | abandon
  /-- RESHARD_DRAIN_TIMEOUT (R342). Missing drained reports at the drain timeout make the coordinator abandon the re-shard. -/
  | reshardDrainTimeout
  /-- IDENTIFY (R369). Returns the capability word, HST_ID and the RESYNC header. -/
  | identify (k : CmdRef)
  /-- RESYNC (R384). Writes the module summary snapshot and frees tags reported finished. -/
  | resync (k : CmdRef)
  /-- CSR_READ (R370). Reads n CSR words in ascending order into the buffer. -/
  | csrRead (k : CmdRef)
  /-- CSR_WRITE (R370). Writes n CSR words from the buffer, refusing SC fields. -/
  | csrWrite (k : CmdRef)
  /-- LOG_READ (R467). Returns whole event-log or journal records from a sequence number. -/
  | logRead (k : CmdRef)
  /-- FAULTMAP_READ (R425). Writes the fault map into the buffer. -/
  | faultmapRead (k : CmdRef)
  /-- BOUNDS_SET (R380). Commits the shadowed bound set and completes once every unit up has applied it. -/
  | boundsSet (k : CmdRef)
  /-- REGION_CONFIG (R371). Writes a region's shadow registers and leaves it STAGED. -/
  | regionConfig (k : CmdRef)
  /-- REGION_ENABLE (R372). Checks the image and region, loads every core, commits and enables the region. -/
  | regionEnable (k : CmdRef)
  /-- SECTION_LOAD (R372). Checks a new section image and writes it into every core's staging area. -/
  | sectionLoad (k : CmdRef)
  /-- RUN (R374). Writes request arguments, sets RGN_REQ and opens the entry gate. -/
  | run (k : CmdRef)
  /-- REGION_DRAIN (R85). Ebb-drains or scans out a region. -/
  | regionDrain (k : CmdRef)
  /-- REGION_FLOOD (R93). Checks and restores a SAVED region's scan images. -/
  | regionFlood (k : CmdRef)
  /-- REGION_RESET (R67). Stops the region's cores, empties queues, aborts its request and leaves it STAGED. -/
  | regionReset (k : CmdRef)
  /-- REGION_FREE (R371). Returns a STAGED region to FREE and its routers to reset arbitration. -/
  | regionFree (k : CmdRef)
  /-- REPLACE (R399). Re-places a LOST or SAVED region under the present row maps. -/
  | replace (k : CmdRef)
  /-- PLACE (R267). Sets placement entries for a run of pages and waits for every MU acknowledgement. -/
  | place (k : CmdRef)
  /-- TIER_POOL (R376). Grants or withdraws frames of the tier-0 or tier-1 frame pool. -/
  | tierPool (k : CmdRef)
  /-- STEEP_SET (R271). Commits a region's four steep descriptors. -/
  | steepSet (k : CmdRef)
  /-- PAGE_RESTORE (R285). Rewrites a poisoned page from a source and clears POISON. -/
  | pageRestore (k : CmdRef)
  /-- FABRIC_SET (R376). Commits the fabric set and waits for configured ports to leave TRAINING. -/
  | fabricSet (k : CmdRef)
  /-- SPRAY_SET (R301). Commits an edge die's ZL_SPRAY mask. -/
  | spraySet (k : CmdRef)
  /-- BARRIER_SET (R308). Commits a module-scoped barrier's set and fabric tree. -/
  | barrierSet (k : CmdRef)
  /-- POUR_SET (R334). Commits a pour slot's configuration. -/
  | pourSet (k : CmdRef)
  /-- ROUTER_ARB (R317). Checks and commits router-output arbiter priorities beneath a region. -/
  | routerArb (k : CmdRef)
  /-- RESHARD (R341). Runs a coordinated re-shard to a new layout epoch. -/
  | reshard (k : CmdRef)
  /-- CKPT_COPY (R408). Copies checkpoint shards with digests in DRAIN or RESTORE mode. -/
  | ckptCopy (k : CmdRef)
  /-- FW_STAGE (R430). Programs and verifies a firmware image into a slot. -/
  | fwStage (k : CmdRef)
  /-- FW_ACTIVATE (R431). Selects a VALID slot as ACTIVE for the next power-on. -/
  | fwActivate (k : CmdRef)
  /-- ATTEST (R444). Signs a measurement report with the next attestation key index. -/
  | attest (k : CmdRef)
  /-- CAL_EXPORT (R432). Writes the calibration set into the buffer. -/
  | calExport (k : CmdRef)
  /-- CAL_IMPORT (R434). Checks and commits user calibration values. -/
  | calImport (k : CmdRef)
  /-- BOOT_DOORBELL (R351). A write to MBX_BOOT_DB runs the boot mailbox command. -/
  | bootDoorbell (v : Word)
  /-- SQ_TAIL_DOORBELL (R354). A write to an SQ tail doorbell announces submissions. -/
  | sqTailDoorbell (q : RingId) (t : Word)
  /-- CQ_HEAD_DOORBELL (R354). A write to a CQ head doorbell releases completion entries. -/
  | cqHeadDoorbell (q : RingId) (h : Word)
  /-- SUBMISSION_FETCH (R359). The module fetches a submission when tags and CQ room allow and starts the command. -/
  | submissionFetch (q : RingId)
  /-- INT_DELAY_EXPIRE (R352). INT_DELAY after the oldest unsignalled completion raises the ring's interrupt. -/
  | intDelayExpire (q : RingId)
  /-- RING_ENABLE (R353). Setting MBX_RING_CFG.EN checks and enables a ring. -/
  | ringEnable (q : RingId) (v : Word)
  /-- RING_STOP (R359). Clearing MBX_RING_CFG.EN stops fetching on a ring. -/
  | ringStop (q : RingId) (v : Word)
  /-- RING_RESET (R360). Writing HST_CTRL.RING_RESET disables every ring and drops unwritten completions. -/
  | ringReset
  /-- HWIN_EN (R348). Writing HST_CTRL.HWIN_EN opens or closes the host window. -/
  | hwinEn (en : Bool)
  /-- HDM_DECODER_COMMIT (R349). The host commits the HDM decoder, mapping a stack half or failing the commit. -/
  | hdmDecoderCommit
  /-- HDM_ACCESS (R350). A host access to the HDM window is served coherently through the snoop filter. -/
  | hdmAccess (o : BitVec 36) (wr : Option (BitVec 512)) (poison : Bool)
  /-- HOST_SNOOP (R343). A host snoop is answered RspI. -/
  | hostSnoop (a : BitVec 64)
  /-- CXL_PORT_DOWN (R345). A CXL port going down moves its traffic and rings to the other port or holds them. -/
  | cxlPortDown (p : BitVec 1)
  /-- CXL_PORT_UP (R345). A CXL port comes up and releases held completions and interrupts. -/
  | cxlPortUp (p : BitVec 1) (speed width : BitVec 4) (pid : BitVec 12)
  /-- IDE_FAILURE (R448). An IDE integrity failure makes a port's streams insecure and the port down. -/
  | ideFailure (p : BitVec 1)
  /-- CLEAR (R84). Writing CORE_CNT_CTRL.CLEAR zeroes the stall counters and HWM. -/
  | clear (c : CoreId)
  /-- FREEZE (R84). Writing CORE_CNT_CTRL.FREEZE holds or releases the stall counters. -/
  | freeze (c : CoreId) (on : Bool)
  /-- ARB_COMMIT (R316). Writing ARB_COMMIT checks and commits the core's arbiter priorities. -/
  | arbCommit (c : CoreId)
  /-- CORE_POUR (R335). Writing CORE_POUR starts a pour contribution or is refused. -/
  | corePour (c : CoreId) (v : Word)
  /-- GO (R415). Writing MOD_RNG_CHK.GO compares saved and derived generator positions and seeds. -/
  | go
  /-- REGISTER_WRITE (R346). A write to a register that has no behaviour of its own. -/
  | registerWrite (off : BitVec 17) (bytes : BitVec 4) (v : Option Word)
  /-- POWER_ON (R461). Input power is applied, precharged, and power good is asserted. -/
  | powerOn
  /-- BRING_UP (R420). Power good starts the boot ROM, Nemar and die-by-die bring-up to READY. -/
  | bringUp (t : BootReport)
  /-- UNDERVOLTAGE_STOP (R449). Input below 50 V for more than 1 ms stops the module. -/
  | undervoltageStop
  /-- OVERVOLTAGE_STOP (R449). Input above 64 V stops the module. -/
  | overvoltageStop
  /-- BRICK_FAIL (R452). A failed brick lowers the effective power ceiling. -/
  | brickFail (retryOk : Bool)
  /-- PHASE_FAIL (R453). A failed quadrant phase lowers its current threshold or ebbs the quadrant. -/
  | phaseFail (q : QuadId) (retryOk : Bool)
  /-- EDGE_PHASE_FAIL (R454). A third failed edge-die phase is handled as loss of that edge die. -/
  | edgePhaseFail (e : BitVec 2) (retryOk : Bool)
  /-- STACK_OVERHEAT (R457). A stack above 95 °C runs at half rate and above 105 °C is failed. -/
  | stackOverheat (k : StackId) (temp : BitVec 16)
  /-- COOLANT_ALARM (R459). A coolant loop outside its range sets its ALARM bit and ALERT. -/
  | coolantAlarm (r : CoolReadings)
  /-- JOURNAL_COMPACTION (R429). The active journal half passing 75 % is compacted into the other half. -/
  | journalCompaction
  /-- COUNTERS_RECORD (R427). Nemar writes a COUNTERS record every 60 s. -/
  | countersRecord
  /-- LOWER_TREE_BUILD (R443). Nemar builds the next attestation lower tree in the background. -/
  | lowerTreeBuild
  /-- RESERVED_OPCODE (R100). The control core issues an instruction word whose opcode is reserved and raises ILLEGAL without effect. -/
  | reservedOpcode (c : CoreId) (w : Word)
  /-- SELF_CHECK_REPORT (R393). A core's self-check reports a lasting control-core or pipeline error, its reference ring stops, or a router self-check fails, and the core is lost. -/
  | selfCheckReport (c : CoreId) (k : SelfCheck)
  /-- PENDING_FAULT_COMMIT (R19). Nemar commits a pending fault into DIE_ROWMAP, or marks a row out, at the first moment no enabled region holds a logical core that the change moves. -/
  | pendingFaultCommit (d : DieId) (row : BitVec 5)
  /-- ROUTER_ISOLATION_TIMEOUT (R295). The 1 ms wait for a failed router's OLD_EMPTY expires and Nemar isolates the router, losing the flits still inside it. -/
  | routerIsolationTimeout (p : PhysId)
  /-- FLIT_CRC_ERROR (R321). A Zoinnath flit arrives failing its CRC, or with a reserved kind, is discarded and answered with LNAK. -/
  | flitCrcError (p : ZPort) (seq : BitVec 12)
  /-- ZL_PORT_UP (R323). A Zoinnath port finishes training and goes UP on eight or four lanes, or goes MISMATCH or DOWN, with a newly UP CADDY port having its identity words read. -/
  | zlPortUp (p : ZPort) (t : PortTraining)
  /-- FABRIC_TRAINING_TIMEOUT (R376). The 500 ms after a FABRIC_SET commit run out, and the command completes with ports still TRAINING. -/
  | fabricTrainingTimeout
  /-- SHARD_COPY_COMPLETE (R409). A migration mover finishes a confirmed shard copy of CKPT_COPY, or a re-shard table entry, with its digest, and writes or compares the digest. -/
  | shardCopyComplete (j : CopyJob) (o : CopyOutcome)
  /-- DOE_REQUEST (R440). A DOE mailbox request (SPDM, IDE_KM or CDAT) arrives from the host and the module responds, runs the key exchange or programs IDE keys. -/
  | doeRequest (p : BitVec 1) (m : DoeMessage)
  /-- STACK_FAILURE (R454). A stack or stack port fails, or both of a stack's phases fail, or one phase fails and sets PHASE_LOST, so that later accesses end as target failures. -/
  | stackFailure (k : StackId) (o : StackFault)
  deriving DecidableEq, Repr

end Sys2Proof
end

