-- ==== Sys2Proof/Decode.lean ====
section
/-! DEFINITION. Decode.lean: the command a word of the opcode table spells. The table gives no row any bits: its rows are
instructions issued at a core, events, flits, commands and register writes, and none is a word, so no word spells one. -/

namespace Sys2Proof

/-- The command that `nbits` bits `w` spell: none, since no row of the table gives bits. -/
def decodeTableWord (_nbits _w : Nat) : Option Instr := none

end Sys2Proof
end

