-- ==== Sys2Proof/Machine/Bits.lean ====
section
/-! DEFINITION. Machine/Bits.lean: bit fields of registers, sign extension and little-endian bytes, for every later file. -/

namespace Sys2Proof.Machine

/-- The field [lo + wid − 1 : lo] of a word, as a number. -/
def fld {n : Nat} (w : BitVec n) (lo wid : Nat) : Nat := (w.toNat >>> lo) % 2 ^ wid

/-- One bit of a word. -/
def bit {n : Nat} (w : BitVec n) (i : Nat) : Bool := w.getLsbD i

/-- A number placed in the field [lo + wid − 1 : lo] of a 64-bit word, the rest zero. -/
def at64 (lo wid v : Nat) : BitVec 64 := BitVec.ofNat 64 ((v % 2 ^ wid) <<< lo)

/-- A flag placed at bit `i` of a 64-bit word, the rest zero. -/
def flag64 (i : Nat) (b : Bool) : BitVec 64 := if b then BitVec.ofNat 64 (1 <<< i) else 0

/-- A word with its field [lo + wid − 1 : lo] replaced. -/
def setFld (w : BitVec 64) (lo wid v : Nat) : BitVec 64 :=
  (w &&& ~~~(at64 lo wid (2 ^ wid - 1))) ||| at64 lo wid v

/-- The number a Bool stands for in a register field. -/
def b2n (b : Bool) : Nat := if b then 1 else 0

/-- ⌈a ÷ b⌉. -/
def ceilDiv (a b : Nat) : Nat := (a + b - 1) / b

/-- imm32 sign-extended to 64 bits (R99). -/
def sext32 (v : BitVec 32) : BitVec 64 := v.signExtend 64

/-- The integer a field of `wid` bits stands for in two's complement. -/
def toSigned (wid v : Nat) : Int := if v < 2 ^ (wid - 1) then (v : Int) else (v : Int) - (2 ^ wid : Nat)

/-- The 64-bit word of a module-local address plus a signed byte offset, modulo 2^48 (R24). -/
def addrOf (i : Int) : Nat := (i % (2 ^ 48 : Nat)).toNat

/-- A number as `n` bytes, the lowest first. -/
def toBytes : Nat → Nat → List (BitVec 8)
  | 0, _ => []
  | n + 1, v => BitVec.ofNat 8 v :: toBytes n (v / 256)

/-- The number that bytes stand for, the lowest first. -/
def ofBytes : List (BitVec 8) → Nat
  | [] => 0
  | b :: t => b.toNat + 256 * ofBytes t

/-- A saturating increment of a field of `wid` bits. -/
def satInc (wid v : Nat) : Nat := if v + 1 < 2 ^ wid then v + 1 else 2 ^ wid - 1

/-- A saturating sum in a field of `wid` bits. -/
def satAdd (wid v k : Nat) : Nat := if v + k < 2 ^ wid then v + k else 2 ^ wid - 1

end Sys2Proof.Machine
end

