-- ==== Sys2Proof/Machine/Num.lean ====
section
/-! DEFINITION. Machine/Num.lean: formats, exact values and the single rounding of chapter 09, the functions of R167
that are correctly rounded, the reference tree, the Philox generator and SHA-256. Shared by every family. -/

namespace Sys2Proof.Machine

/-! ## Formats (R213, R214) -/

/-- A floating-point format of R213: exponent and fraction bits, bias, the largest finite magnitude code, the code of
infinity where there is one, the canonical NaN where there is one. -/
structure FloatFmt where
  eb : Nat
  fb : Nat
  bias : Nat
  maxCode : Nat
  infCode : Option Nat
  nanCode : Option Nat
  deriving DecidableEq, Repr

/-- FP32. -/
def fmtFp32 : FloatFmt := ⟨8, 23, 127, 0x7F7FFFFF, some 0x7F800000, some 0x7FC00000⟩
/-- BF16. -/
def fmtBf16 : FloatFmt := ⟨8, 7, 127, 0x7F7F, some 0x7F80, some 0x7FC0⟩
/-- FP16. -/
def fmtFp16 : FloatFmt := ⟨5, 10, 15, 0x7BFF, some 0x7C00, some 0x7E00⟩
/-- E4M3: no infinity (R214). -/
def fmtE4M3 : FloatFmt := ⟨4, 3, 7, 0x7E, none, some 0x7F⟩
/-- E5M2. -/
def fmtE5M2 : FloatFmt := ⟨5, 2, 15, 0x7B, some 0x7C, some 0x7E⟩
/-- E3M2: every code finite. -/
def fmtE3M2 : FloatFmt := ⟨3, 2, 3, 0x1F, none, none⟩
/-- E2M3: every code finite. -/
def fmtE2M3 : FloatFmt := ⟨2, 3, 1, 0x1F, none, none⟩
/-- E2M1: every code finite. -/
def fmtE2M1 : FloatFmt := ⟨2, 1, 1, 0x7, none, none⟩
/-- FX48 as 48 bits: the FP32 word above the low word (R217). -/
def fmtFx48 : FloatFmt := ⟨8, 39, 127, 0x7F7FFFFFFFFF, some 0x7F8000000000, some 0x7FC000000000⟩

/-- The floating-point format of a code of R161; MXINT8 (0x8) and INT32 (0xC) are not among them. -/
def floatFmt (code : Nat) : FloatFmt :=
  match code with
  | 0x0 => fmtBf16
  | 0x1 => fmtFp16
  | 0x2 => fmtE4M3
  | 0x4 => fmtE4M3
  | 0x3 => fmtE5M2
  | 0x5 => fmtE5M2
  | 0x6 => fmtE3M2
  | 0x7 => fmtE2M3
  | 0x9 => fmtE2M1
  | 0xB => fmtFx48
  | _ => fmtFp32

/-- Element width in bits of a code of R161, in packed storage (FX48 counted by its FP32 word). -/
def elemBits (code : Nat) : Nat :=
  match code with
  | 0x0 => 16
  | 0x1 => 16
  | 0x2 => 8
  | 0x3 => 8
  | 0x4 => 8
  | 0x5 => 8
  | 0x6 => 6
  | 0x7 => 6
  | 0x8 => 8
  | 0x9 => 4
  | _ => 32

/-- Lane count W of a code of R161. -/
def lanesOf (code : Nat) : Nat :=
  match code with
  | 0xA => 64
  | 0xB => 32
  | 0xC => 64
  | _ => 128

/-- A code of the MX set (R123). -/
def isMx (code : Nat) : Bool := 4 ≤ code && code ≤ 9

/-- An exact value: a NaN, signalling or not, an infinity, or ± m × 2^e. -/
inductive Fv where
  | nan (sig : Bool)
  | inf (neg : Bool)
  | fin (neg : Bool) (m : Nat) (e : Int)
  deriving DecidableEq, Repr

/-- Decodes a code of a floating-point format (R213, R214). -/
def decodeFloat (f : FloatFmt) (v : Nat) : Fv :=
  let neg := (v >>> (f.eb + f.fb)) % 2 == 1
  let ex := (v >>> f.fb) % 2 ^ f.eb
  let fr := v % 2 ^ f.fb
  let mag := v % 2 ^ (f.eb + f.fb)
  let special : Option Fv :=
    match f.infCode, f.nanCode with
    | some _, _ =>
      if ex = 2 ^ f.eb - 1 then
        some (if fr = 0 then .inf neg else .nan (fr < 2 ^ (f.fb - 1)))
      else none
    | none, some n => if mag = n then some (.nan false) else none
    | none, none => none
  match special with
  | some x => x
  | none =>
    if ex = 0 then .fin neg fr (1 - (f.bias : Int) - f.fb)
    else .fin neg (2 ^ f.fb + fr) ((ex : Int) - f.bias - f.fb)

/-- Decodes an element of a code of R161 but INT32: MXINT8 is k × 2⁻⁶ (R213). -/
def decodeElem (code v : Nat) : Fv :=
  if code = 0x8 then
    let k := toSigned 8 (v % 256)
    .fin (k < 0) k.natAbs (-6)
  else decodeFloat (floatFmt code) v

/-- Canonical NaN of a code of R161 (R213). -/
def canonicalNan (code : Nat) : Nat := ((floatFmt code).nanCode).getD 0

/-- A positive real number that an exact result has, as num ÷ den × 2^e; where it stands for an irrational result it is
a number on the same side of every rounding boundary. -/
structure Mag where
  num : Nat
  den : Nat := 1
  e : Int := 0
  deriving DecidableEq, Repr

/-- ⌊log₂⌋ of a positive magnitude. -/
def Mag.ilog2 (x : Mag) : Int :=
  let k : Int := (Nat.log2 x.num : Int) - (Nat.log2 x.den : Int)
  -- num / den lies in (2^(k - 1), 2^(k + 1))
  let ge : Bool := if 0 ≤ k then x.den * 2 ^ k.toNat ≤ x.num else x.den ≤ x.num * 2 ^ (-k).toNat
  (if ge then k else k - 1) + x.e

/-- The magnitude in units of 2^q, as numerator and denominator. -/
def Mag.inUnits (x : Mag) (q : Int) : Nat × Nat :=
  let s := x.e - q
  if 0 ≤ s then (x.num * 2 ^ s.toNat, x.den) else (x.num, x.den * 2 ^ (-s).toNat)

/-- How a result is rounded (R225): to nearest even, or stochastically by a 24-bit draw. -/
inductive Rounding where
  | nearest
  | draw (u : Nat)
  deriving DecidableEq, Repr

/-- Rounds a quotient to an integer: nearest even, or up when the draw is below ⌊f × 2²⁴⌋ (R225). -/
def roundQuot (r : Rounding) (n d : Nat) : Nat :=
  let m := n / d
  let rem := n % d
  match r with
  | .nearest => if 2 * rem < d then m else if d < 2 * rem then m + 1 else if m % 2 = 0 then m else m + 1
  | .draw u => if u < rem * 2 ^ 24 / d then m + 1 else m

/-- The magnitude code a positive value rounds to, with the exponent range unbounded above (R225). -/
def roundMag (f : FloatFmt) (r : Rounding) (x : Mag) : Nat :=
  if x.num = 0 then 0 else
  let emin : Int := 1 - f.bias
  let ex := max x.ilog2 emin
  let q := ex - f.fb
  let (n, d) := x.inUnits q
  (ex - emin).toNat * 2 ^ f.fb + roundQuot r n d

/-- The exact value of a magnitude code. -/
def codeMag (f : FloatFmt) (c : Nat) : Mag :=
  let ex := c / 2 ^ f.fb
  let fr := c % 2 ^ f.fb
  if ex = 0 then ⟨fr, 1, 1 - (f.bias : Int) - f.fb⟩ else ⟨2 ^ f.fb + fr, 1, (ex : Int) - f.bias - f.fb⟩

/-- Compares two magnitudes. -/
def Mag.lt (x y : Mag) : Bool :=
  let q := min x.e y.e
  let (a, b) := x.inUnits q
  let (c, d) := y.inUnits q
  a * d < c * b

/-- The two magnitudes are equal. -/
def Mag.eq (x y : Mag) : Bool := !(x.lt y) && !(y.lt x)

/-- Sticky flags of CORE_VEC_STATUS, at their register positions (R184). -/
def flagInvalid : BitVec 8 := 0x20
/-- DIVZERO. -/
def flagDivzero : BitVec 8 := 0x10
/-- OVERFLOW. -/
def flagOverflow : BitVec 8 := 0x08
/-- UNDERFLOW. -/
def flagUnderflow : BitVec 8 := 0x04

/-- The result exceeds the largest finite magnitude. -/
def exceeds (f : FloatFmt) (x : Mag) : Bool := (codeMag f f.maxCode).lt x

/-- Rounds a magnitude to a code of the format, with the flags of R168. Above the largest finite the rounding is that of
nearest even (R225); past it the result is infinity, or the largest finite where the format has none (R224), or where
`saturate` asks for it (R222). -/
def roundTo (f : FloatFmt) (r : Rounding) (saturate : Bool) (x : Mag) : Nat × BitVec 8 :=
  let rr := if exceeds f x then Rounding.nearest else r
  let c := roundMag f rr x
  if f.maxCode < c then
    ((if saturate then f.maxCode else f.infCode.getD f.maxCode), flagOverflow)
  else
    let exact := (codeMag f c).eq x || x.num = 0
    let smallest : Mag := ⟨1, 1, 1 - (f.bias : Int)⟩
    -- rounded to the format's precision with an unbounded exponent range, is it below the smallest normal?
    let tiny : Bool :=
      x.num ≠ 0 && x.lt smallest &&
        (let q := x.ilog2 - f.fb
         let (n, d) := x.inUnits q
         let m := roundQuot rr n d
         (⟨m, 1, q⟩ : Mag).lt smallest)
    (c, if tiny && !exact then flagUnderflow else 0)

/-- Puts a sign on a magnitude code. -/
def signed (f : FloatFmt) (neg : Bool) (c : Nat) : Nat := if neg then 2 ^ (f.eb + f.fb) + c else c

/-- Rounds an exact value to a code of the format with the flags of R168. An infinity that becomes a NaN (R224) is an
invalid operation (DEDUCED, log 51). -/
def encodeFloat (f : FloatFmt) (r : Rounding) (v : Fv) : Nat × BitVec 8 :=
  match v with
  | .nan _ => (f.nanCode.getD 0, 0)
  | .inf neg =>
    match f.infCode with
    | some c => (signed f neg c, 0)
    | none => (f.nanCode.getD f.maxCode, flagInvalid)
  | .fin neg m e =>
    let (c, fl) := roundTo f r false ⟨m, 1, e⟩
    (signed f neg c, fl)

/-- FP32 rounding to nearest even, without flags. -/
def toFp32 (v : Fv) : Nat := (encodeFloat fmtFp32 .nearest v).1

/-- The FP32 value of 32 bits. -/
def ofFp32 (v : Nat) : Fv := decodeFloat fmtFp32 (v % 2 ^ 32)

/-! ## Exact arithmetic -/

/-- A signed integer in units of 2^q. -/
def Fv.units (v : Fv) (q : Int) : Int :=
  match v with
  | .fin neg m e => let k : Int := (m * 2 ^ (e - q).toNat : Nat); if neg then -k else k
  | _ => 0

/-- The exponent of the unit of a finite value. -/
def Fv.exp (v : Fv) : Int :=
  match v with
  | .fin _ _ e => e
  | _ => 0

/-- The value is a NaN. -/
def Fv.isNan : Fv → Bool
  | .nan _ => true
  | _ => false

/-- The value is a signalling NaN. -/
def Fv.isSnan : Fv → Bool
  | .nan s => s
  | _ => false

/-- The value is finite. -/
def Fv.isFin : Fv → Bool
  | .fin _ _ _ => true
  | _ => false

/-- The value is an infinity of this sign. -/
def Fv.isInf (neg : Bool) : Fv → Bool
  | .inf n => n == neg
  | _ => false

/-- The value is zero. -/
def Fv.isZero : Fv → Bool
  | .fin _ m _ => m == 0
  | _ => false

/-- The sign. -/
def Fv.neg : Fv → Bool
  | .nan _ => false
  | .inf n => n
  | .fin n _ _ => n

/-- The value with the sign changed. -/
def Fv.negate : Fv → Fv
  | .nan s => .nan s
  | .inf n => .inf (!n)
  | .fin n m e => .fin (!n) m e

/-- The magnitude. -/
def Fv.absVal : Fv → Fv
  | .nan s => .nan s
  | .inf _ => .inf false
  | .fin _ m e => .fin false m e

/-- Exact sum with the IEEE sign rules for zeros under round-to-nearest-even (R216); (result, invalid). -/
def Fv.add (a b : Fv) : Fv × Bool :=
  match a, b with
  | .nan s, .nan t => (.nan false, s || t)
  | .nan s, _ => (.nan false, s)
  | _, .nan t => (.nan false, t)
  | .inf n, .inf m => if n == m then (.inf n, false) else (.nan false, true)
  | .inf n, _ => (.inf n, false)
  | _, .inf n => (.inf n, false)
  | .fin n1 m1 e1, .fin n2 m2 e2 =>
    let q := min e1 e2
    let k := Fv.units (.fin n1 m1 e1) q + Fv.units (.fin n2 m2 e2) q
    if k = 0 then (.fin (m1 == 0 && m2 == 0 && n1 && n2) 0 q, false)
    else (.fin (k < 0) k.natAbs q, false)

/-- Exact product; (result, invalid). -/
def Fv.mul (a b : Fv) : Fv × Bool :=
  match a, b with
  | .nan s, .nan t => (.nan false, s || t)
  | .nan s, _ => (.nan false, s)
  | _, .nan t => (.nan false, t)
  | .inf n, .inf m => (.inf (n != m), false)
  | .inf n, .fin m k _ => if k = 0 then (.nan false, true) else (.inf (n != m), false)
  | .fin m k _, .inf n => if k = 0 then (.nan false, true) else (.inf (n != m), false)
  | .fin n1 m1 e1, .fin n2 m2 e2 => (.fin (n1 != n2) (m1 * m2) (e1 + e2), false)

/-- a < b, false when either is a NaN; −0 equals +0. -/
def Fv.lt (a b : Fv) : Bool :=
  match a, b with
  | .nan _, _ => false
  | _, .nan _ => false
  | .inf n, .inf m => n && !m
  | .inf n, _ => n
  | _, .inf m => !m
  | .fin n1 m1 e1, .fin n2 m2 e2 =>
    let q := min e1 e2
    Fv.units (.fin n1 m1 e1) q < Fv.units (.fin n2 m2 e2) q

/-- a ≤ b, false when either is a NaN. -/
def Fv.le (a b : Fv) : Bool := !a.isNan && !b.isNan && !(b.lt a)

/-- a = b, false when either is a NaN. -/
def Fv.eqv (a b : Fv) : Bool := a.le b && b.le a

/-- Largest of two, −0 below +0, NaN when either is a NaN (R168). -/
def Fv.max (a b : Fv) : Fv :=
  if a.isNan || b.isNan then .nan false
  else if a.lt b then b else if b.lt a then a else if a.neg then b else a

/-- Smallest of two, −0 below +0, NaN when either is a NaN (R168). -/
def Fv.min (a b : Fv) : Fv :=
  if a.isNan || b.isNan then .nan false
  else if a.lt b then a else if b.lt a then b else if a.neg then a else b

/-- One FP32 addition, round to nearest even (R133, R228). -/
def addFp32 (x y : Nat) : Nat := toFp32 (Fv.add (ofFp32 x) (ofFp32 y)).1

/-! ## Correctly rounded functions (R167, R168) -/

/-- ⌊√n⌋, by digits of base 4. -/
def isqrtDigits : Nat → Nat → Nat
  | 0, _ => 0
  | k + 1, n =>
    let r := 2 * isqrtDigits k (n / 4)
    if (r + 1) * (r + 1) ≤ n then r + 1 else r

/-- ⌊√n⌋. -/
def isqrt (n : Nat) : Nat := isqrtDigits (Nat.log2 n / 2 + 1) n

/-- √(m × 2^e) for m > 0: exact, or a number between the same rounding boundaries. -/
def sqrtMag (m : Nat) (e : Int) : Mag :=
  let (m', e') := if e % 2 = 0 then (m, e) else (2 * m, e - 1)
  let n := m' * 4 ^ 100
  let s := isqrt n
  if s * s = n then ⟨s, 1, e' / 2 - 100⟩ else ⟨4 * s + 1, 1, e' / 2 - 102⟩

/-- 1 ÷ √(m × 2^e) for m > 0, in the same way. -/
def rsqrtMag (m : Nat) (e : Int) : Mag :=
  let (m', e') := if e % 2 = 0 then (m, e) else (2 * m, e - 1)
  let k : Nat := 140
  let s := isqrt (4 ^ k / m')
  if s * s * m' = 4 ^ k then ⟨s, 1, -(e' / 2) - 140⟩ else ⟨4 * s + 1, 1, -(e' / 2) - 142⟩

/-- Sum of the terms t, t·r/1, t·r²/2, … of an exponential series in fixed point with `p` fraction bits. -/
def expTerms (p r : Nat) : Nat → Nat → Nat → Nat → Nat
  | 0, _, _, acc => acc
  | k + 1, i, t, acc => expTerms p r k (i + 1) (t * r / 2 ^ p / i) (acc + t)

/-- ln 2 in fixed point with `p` fraction bits, at most p + 2 units low. -/
def ln2Terms (p : Nat) : Nat → Nat → Nat
  | 0, acc => acc
  | k + 1, acc => ln2Terms p k (acc + 2 ^ p / ((k + 1) * 2 ^ (k + 1)))

/-- ln 2 in fixed point with `p` fraction bits. -/
def ln2Fixed (p : Nat) : Nat := ln2Terms (p + 16) (p + 16) 0 / 2 ^ 16

/-- Sum of z, z³/3, z⁵/5, … in fixed point. -/
def atanhTerms (p z2 : Nat) : Nat → Nat → Nat → Nat → Nat
  | 0, _, _, acc => acc
  | k + 1, i, t, acc => atanhTerms p z2 k (i + 2) (t * z2 / 2 ^ p) (acc + t / i)

/-- The fixed-point value of a rational number of either sign, ⌊x × 2^p⌋. -/
def fixedOf (neg : Bool) (m : Nat) (e : Int) (p : Nat) : Int :=
  let s := e + p
  let k : Int := if 0 ≤ s then (m * 2 ^ s.toNat : Nat) else (m / 2 ^ (-s).toNat : Nat)
  let exact : Bool := 0 ≤ s || m % 2 ^ (-s).toNat = 0
  if neg then (if exact then -k else -k - 1) else k

/-- An enclosure of a positive real: lower and upper bound in units of 2^e. -/
structure Encl where
  lo : Nat
  hi : Nat
  e : Int
  deriving DecidableEq, Repr

/-- e^r × 2^k for a fixed-point r in [0, 1) that is at most `err` units below the true argument or above it. -/
def exp2k (p r err : Nat) (k : Int) : Encl :=
  let n := p / 2 + 16
  let t := expTerms p r n 1 (2 ^ p) 0
  let d := 4 * n + 8 * err + 64
  ⟨t - d, t + d, k - p⟩

/-- Enclosure of e^x for x = ± m × 2^e with |x| below 512. -/
def expEncl (neg : Bool) (m : Nat) (e : Int) (p : Nat) : Encl :=
  let ln2 := ln2Fixed p
  let x := fixedOf neg m e p
  let k := x / (ln2 : Int)
  let r := (x - k * (ln2 : Int)).toNat
  exp2k p r ((p + 4) * (k.natAbs + 2)) k

/-- Enclosure of 2^x for |x| below 512. -/
def exp2Encl (neg : Bool) (m : Nat) (e : Int) (p : Nat) : Encl :=
  let x := fixedOf neg m e p
  let k := x / (2 ^ p : Nat)
  let r := (x - k * (2 ^ p : Nat)).toNat
  exp2k p (r * ln2Fixed p / 2 ^ p) (2 * p + 8) k

/-- Enclosure of |log₂ (m × 2^e)|, with its sign, for m > 0. -/
def log2Encl (m : Nat) (e : Int) (p : Nat) : Bool × Encl :=
  let b := Nat.log2 m
  let k : Int := (b : Int) + e
  let f := m * 2 ^ p / 2 ^ b
  let one := 2 ^ p
  let z := (f - one) * one / (f + one)
  let n := p / 3 + 16
  let ln := 2 * atanhTerms p (z * z / one) n 1 z 0
  let l2 := ln * one / ln2Fixed p
  let d : Int := 16 * n + 8 * p + 64
  let v : Int := k * (one : Int) + l2
  let a := v.natAbs
  (v < 0, ⟨a - d.toNat, a + d.toNat, -(p : Int)⟩)

/-- Enclosure of tanh x for x = m × 2^e > 0. -/
def tanhEncl (m : Nat) (e : Int) (p : Nat) : Encl :=
  let ex := expEncl false (2 * m) e (p + 200)
  -- (E − 1) ÷ (E + 1), rising in E
  let one : Nat := 2 ^ (-ex.e).toNat
  let sc := 2 ^ p
  ⟨(ex.lo - one) * sc / (ex.lo + one), (ex.hi - one) * sc / (ex.hi + one) + 1, -(p : Int)⟩

/-- Rounds an irrational magnitude, given its enclosures by precision: the first precision at which both ends round
alike; past the model's fuel the result is a free value (log 3). -/
def roundEncl (f : FloatFmt) (r : Rounding) (code key : Nat) (g : Nat → Encl) : Nat → Nat → Nat × BitVec 8
  | 0, _ => (Config.freeTranscendental code key % (f.maxCode + 1), 0)
  | k + 1, p =>
    let x := g p
    let a := roundTo f r false ⟨x.lo, 1, x.e⟩
    let b := roundTo f r false ⟨x.hi, 1, x.e⟩
    if x.lo ≠ 0 && a == b then a else roundEncl f r code key g k (2 * p)

/-- The precisions tried: 128, 256, 512, 1,024, 2,048 bits. -/
def enclFuel : Nat := 5

/-- Quiet NaN result of an operand: canonical, invalid when it signals. -/
def nanResult (code : Nat) (sig : Bool) : Nat × BitVec 8 := (canonicalNan code, if sig then flagInvalid else 0)

/-- Positive magnitude rounded to a code of a format in F, with a sign. -/
def finish (code : Nat) (r : Rounding) (neg : Bool) (x : Mag) : Nat × BitVec 8 :=
  let f := floatFmt code
  let (c, fl) := roundTo f r false x
  (signed f neg c, fl)

/-- e^a, 2^a (R167), for a in the format `code`. -/
def expOp (base2 : Bool) (code key : Nat) (r : Rounding) (a : Fv) : Nat × BitVec 8 :=
  let f := floatFmt code
  match a with
  | .nan s => nanResult code s
  | .inf neg => if neg then (0, 0) else (f.infCode.getD f.maxCode, 0)
  | .fin neg m e =>
    if m = 0 then finish code r false ⟨1, 1, 0⟩
    else if (⟨512, 1, 0⟩ : Mag).lt ⟨m, 1, e⟩ then
      finish code r false (if neg then ⟨1, 1, -400⟩ else ⟨1, 1, 400⟩)
    else if base2 && (0 ≤ e || m % 2 ^ (-e).toNat = 0) then
      finish code r false ⟨1, 1, Fv.units a (min e 0) / (2 ^ (-(min e 0)).toNat : Nat)⟩
    else if (⟨m, 1, e⟩ : Mag).lt ⟨1, 1, -60⟩ then
      -- 1 ± a small irrational amount: the same rounding as 1 ± 2⁻⁶⁰
      finish code r false (if neg then ⟨2 ^ 60 - 1, 1, -60⟩ else ⟨2 ^ 60 + 1, 1, -60⟩)
    else roundEncl f r code key (if base2 then exp2Encl neg m e else expEncl neg m e) enclFuel 128

/-- log₂ a (R167). -/
def log2Op (code key : Nat) (r : Rounding) (a : Fv) : Nat × BitVec 8 :=
  let f := floatFmt code
  match a with
  | .nan s => nanResult code s
  | .inf neg => if neg then (canonicalNan code, flagInvalid) else (f.infCode.getD f.maxCode, 0)
  | .fin neg m e =>
    if m = 0 then (signed f true (f.infCode.getD f.maxCode), flagDivzero)
    else if neg then (canonicalNan code, flagInvalid)
    else
      let b := Nat.log2 m
      if m = 2 ^ b then
        let k : Int := (b : Int) + e
        if k = 0 then (0, 0) else finish code r (k < 0) ⟨k.natAbs, 1, 0⟩
      else
        let (ng, _) := log2Encl m e 128
        let (c, fl) := roundEncl f r code key (fun p => (log2Encl m e p).2) enclFuel 128
        (signed f ng c, fl)

/-- tanh a (R167). -/
def tanhOp (code key : Nat) (r : Rounding) (a : Fv) : Nat × BitVec 8 :=
  let f := floatFmt code
  match a with
  | .nan s => nanResult code s
  | .inf neg => finish code r neg ⟨1, 1, 0⟩
  | .fin neg m e =>
    if m = 0 then (signed f neg 0, 0)
    else if (⟨64, 1, 0⟩ : Mag).lt ⟨m, 1, e⟩ then finish code r neg ⟨2 ^ 180 - 1, 1, -180⟩
    else if (⟨m, 1, e⟩ : Mag).lt ⟨1, 1, -30⟩ then
      -- just below x: the same rounding as x × (1 − 2⁻⁶⁰)
      finish code r neg ⟨m * (2 ^ 60 - 1), 1, e - 60⟩
    else
      let (c, fl) := roundEncl f r code key (tanhEncl m e) enclFuel 128
      (signed f neg c, fl)

/-- √a (R167). -/
def sqrtOp (code : Nat) (r : Rounding) (a : Fv) : Nat × BitVec 8 :=
  let f := floatFmt code
  match a with
  | .nan s => nanResult code s
  | .inf neg => if neg then (canonicalNan code, flagInvalid) else (f.infCode.getD f.maxCode, 0)
  | .fin neg m e =>
    if m = 0 then (signed f neg 0, 0)
    else if neg then (canonicalNan code, flagInvalid)
    else finish code r false (sqrtMag m e)

/-- 1 ÷ √a (R167). -/
def rsqrtOp (code : Nat) (r : Rounding) (a : Fv) : Nat × BitVec 8 :=
  let f := floatFmt code
  match a with
  | .nan s => nanResult code s
  | .inf neg => if neg then (canonicalNan code, flagInvalid) else (0, 0)
  | .fin neg m e =>
    if m = 0 then (signed f neg (f.infCode.getD f.maxCode), flagDivzero)
    else if neg then (canonicalNan code, flagInvalid)
    else finish code r false (rsqrtMag m e)

/-- a ÷ b (R167). -/
def divOp (code : Nat) (r : Rounding) (a b : Fv) : Nat × BitVec 8 :=
  let f := floatFmt code
  match a, b with
  | .nan s, .nan t => nanResult code (s || t)
  | .nan s, _ => nanResult code s
  | _, .nan t => nanResult code t
  | .inf _, .inf _ => (canonicalNan code, flagInvalid)
  | .inf n, .fin m _ _ => (signed f (n != m) (f.infCode.getD f.maxCode), 0)
  | .fin n _ _, .inf m => (signed f (n != m) 0, 0)
  | .fin n1 m1 e1, .fin n2 m2 e2 =>
    if m2 = 0 then
      if m1 = 0 then (canonicalNan code, flagInvalid)
      else (signed f (n1 != n2) (f.infCode.getD f.maxCode), flagDivzero)
    else finish code r (n1 != n2) ⟨m1, m2, e1 - e2⟩

/-- Rounds an exact value with its invalid condition. -/
def roundFv (code : Nat) (r : Rounding) (v : Fv × Bool) : Nat × BitVec 8 :=
  let (c, fl) := encodeFloat (floatFmt code) r v.1
  (c, if v.2 then fl ||| flagInvalid else fl)

/-! ## Block sums and the reference tree (R126, R228) -/

/-- Exact sum of finite values, as an integer in units of 2^q. -/
def sumUnits (q : Int) : List Fv → Int
  | [] => 0
  | v :: t => v.units q + sumUnits q t

/-- Least exponent of a list of values. -/
def minExp : List Fv → Int
  | [] => 0
  | v :: t => min v.exp (minExp t)

/-- Rounds the exact sum of products, times 2^sh, once to FP32, with the overrides of R126. -/
def blockSum (prods : List (Fv × Bool)) (sh : Int) : Nat :=
  let vs := prods.map Prod.fst
  if prods.any (fun p => p.2) || vs.any Fv.isNan || (vs.any (Fv.isInf true) && vs.any (Fv.isInf false)) then 0x7FC00000
  else if vs.any (Fv.isInf true) then 0xFF800000
  else if vs.any (Fv.isInf false) then 0x7F800000
  else
    let q := minExp vs
    let k := sumUnits q vs
    if k = 0 then
      if vs ≠ [] && vs.all (fun v => v.isZero && v.neg) then 0x80000000 else 0
    else toFp32 (.fin (k < 0) k.natAbs (q + sh))

/-- The largest power of two less than n, for n ≥ 2 (R228). -/
def splitPoint (n : Nat) : Nat := 2 ^ (Nat.log2 (n - 1))

/-- The reference tree T over FP32 contributions in key order (R228); `fuel` bounds the depth. -/
def refTreeFuel : Nat → List Nat → Nat
  | 0, _ => 0
  | k + 1, xs =>
    match xs with
    | [] => 0
    | [x] => x
    | _ =>
      let h := splitPoint xs.length
      addFp32 (refTreeFuel k (xs.take h)) (refTreeFuel k (xs.drop h))

/-- The reference tree T (R228). -/
def refTree (xs : List Nat) : Nat := refTreeFuel (xs.length + 1) xs

/-- A list in blocks of 32. -/
def blocks32 {α : Type} : Nat → List α → List (List α)
  | 0, _ => []
  | k + 1, xs => if xs.isEmpty then [] else xs.take 32 :: blocks32 k (xs.drop 32)

/-! ## The counter-based generator (R226) -/

/-- One round of Philox4x32. -/
def philoxRound (k0 k1 : BitVec 32) (c : BitVec 32 × BitVec 32 × BitVec 32 × BitVec 32) :
    BitVec 32 × BitVec 32 × BitVec 32 × BitVec 32 :=
  let p0 := 0xD2511F53 * c.1.toNat
  let p1 := 0xCD9E8D57 * c.2.2.1.toNat
  (BitVec.ofNat 32 (p1 / 2 ^ 32) ^^^ c.2.1 ^^^ k0, BitVec.ofNat 32 p1,
   BitVec.ofNat 32 (p0 / 2 ^ 32) ^^^ c.2.2.2 ^^^ k1, BitVec.ofNat 32 p0)

/-- `n` rounds, the key rising by its constants between rounds. -/
def philoxRounds : Nat → BitVec 32 → BitVec 32 → BitVec 32 × BitVec 32 × BitVec 32 × BitVec 32 →
    BitVec 32 × BitVec 32 × BitVec 32 × BitVec 32
  | 0, _, _, c => c
  | n + 1, k0, k1, c => philoxRounds n (k0 + 0x9E3779B9) (k1 + 0xBB67AE85) (philoxRound k0 k1 c)

/-- r0[31:8] of Philox4x32-10 for a seed and a counter (R226, R227). -/
def philoxDraw (seed : BitVec 64) (counter : BitVec 128) : Nat :=
  let w := fun i => BitVec.ofNat 32 (counter.toNat >>> (32 * i))
  let r := philoxRounds 10 (BitVec.ofNat 32 seed.toNat) (BitVec.ofNat 32 (seed.toNat >>> 32)) (w 0, w 1, w 2, w 3)
  r.1.toNat >>> 8

/-- The counter of R226. -/
def rngCounter (ctx : BitVec 64) (tensor purpose element : Nat) : BitVec 128 :=
  BitVec.ofNat 128
    (((ctx.toNat % 2 ^ 32) <<< 96) + (((ctx.toNat >>> 32) % 2 ^ 16) <<< 80) + ((tensor % 2 ^ 24) <<< 56) +
      ((purpose % 2 ^ 8) <<< 48) + element % 2 ^ 40)

/-! ## SHA-256 (R407, R430) -/

/-- Round constants, first half. -/
def shaK0 : List (BitVec 32) :=
  [0x428A2F98, 0x71374491, 0xB5C0FBCF, 0xE9B5DBA5, 0x3956C25B, 0x59F111F1, 0x923F82A4, 0xAB1C5ED5,
   0xD807AA98, 0x12835B01, 0x243185BE, 0x550C7DC3, 0x72BE5D74, 0x80DEB1FE, 0x9BDC06A7, 0xC19BF174,
   0xE49B69C1, 0xEFBE4786, 0x0FC19DC6, 0x240CA1CC, 0x2DE92C6F, 0x4A7484AA, 0x5CB0A9DC, 0x76F988DA,
   0x983E5152, 0xA831C66D, 0xB00327C8, 0xBF597FC7, 0xC6E00BF3, 0xD5A79147, 0x06CA6351, 0x14292967]

/-- Round constants, second half. -/
def shaK1 : List (BitVec 32) :=
  [0x27B70A85, 0x2E1B2138, 0x4D2C6DFC, 0x53380D13, 0x650A7354, 0x766A0ABB, 0x81C2C92E, 0x92722C85,
   0xA2BFE8A1, 0xA81A664B, 0xC24B8B70, 0xC76C51A3, 0xD192E819, 0xD6990624, 0xF40E3585, 0x106AA070,
   0x19A4C116, 0x1E376C08, 0x2748774C, 0x34B0BCB5, 0x391C0CB3, 0x4ED8AA4A, 0x5B9CCA4F, 0x682E6FF3,
   0x748F82EE, 0x78A5636F, 0x84C87814, 0x8CC70208, 0x90BEFFFA, 0xA4506CEB, 0xBEF9A3F7, 0xC67178F2]

/-- Initial hash value. -/
def shaInit : List (BitVec 32) :=
  [0x6A09E667, 0xBB67AE85, 0x3C6EF372, 0xA54FF53A, 0x510E527F, 0x9B05688C, 0x1F83D9AB, 0x5BE0CD19]

/-- The next word of the message schedule from the last sixteen, newest first. -/
def shaNext (w : List (BitVec 32)) : BitVec 32 :=
  let x15 := w.getD 14 0
  let x2 := w.getD 1 0
  let s0 := x15.rotateRight 7 ^^^ x15.rotateRight 18 ^^^ (x15 >>> 3)
  let s1 := x2.rotateRight 17 ^^^ x2.rotateRight 19 ^^^ (x2 >>> 10)
  w.getD 15 0 + s0 + w.getD 6 0 + s1

/-- Extends a schedule, newest first, by `n` words. -/
def shaExtend : Nat → List (BitVec 32) → List (BitVec 32)
  | 0, w => w
  | n + 1, w => shaExtend n (shaNext w :: w)

/-- One round. -/
def shaStep (h : List (BitVec 32)) (k w : BitVec 32) : List (BitVec 32) :=
  match h with
  | [a, b, c, d, e, f, g, hh] =>
    let s1 := e.rotateRight 6 ^^^ e.rotateRight 11 ^^^ e.rotateRight 25
    let ch := (e &&& f) ^^^ (~~~e &&& g)
    let t1 := hh + s1 + ch + k + w
    let s0 := a.rotateRight 2 ^^^ a.rotateRight 13 ^^^ a.rotateRight 22
    let maj := (a &&& b) ^^^ (a &&& c) ^^^ (b &&& c)
    [t1 + s0 + maj, a, b, c, d + t1, e, f, g]
  | _ => h

/-- All rounds over a schedule. -/
def shaRounds : List (BitVec 32) → List (BitVec 32) → List (BitVec 32) → List (BitVec 32)
  | k :: ks, w :: ws, h => shaRounds ks ws (shaStep h k w)
  | _, _, h => h

/-- A 32-bit word of four bytes, the first highest. -/
def shaWord : List (BitVec 8) → BitVec 32
  | [a, b, c, d] => BitVec.ofNat 32 (((a.toNat * 256 + b.toNat) * 256 + c.toNat) * 256 + d.toNat)
  | _ => 0

/-- Bytes in groups of four as words. -/
def shaWords : Nat → List (BitVec 8) → List (BitVec 32)
  | 0, _ => []
  | n + 1, bs => shaWord (bs.take 4) :: shaWords n (bs.drop 4)

/-- One 64-byte block. -/
def shaBlock (h : List (BitVec 32)) (blk : List (BitVec 8)) : List (BitVec 32) :=
  let w := (shaExtend 48 (shaWords 16 blk).reverse).reverse
  (h.zip (shaRounds (shaK0 ++ shaK1) w h)).map (fun p => p.1 + p.2)

/-- The blocks of a padded message. -/
def shaBlocks : Nat → List (BitVec 8) → List (BitVec 32) → List (BitVec 32)
  | 0, _, h => h
  | n + 1, bs, h => shaBlocks n (bs.drop 64) (shaBlock h (bs.take 64))

/-- SHA-256 of a message: 32 bytes in digest order. -/
def sha256 (msg : List (BitVec 8)) : List (BitVec 8) :=
  let n := msg.length
  let zeros := (119 - n % 64) % 64
  let padded := msg ++ [(0x80 : BitVec 8)] ++ List.replicate zeros 0 ++ (toBytes 8 (8 * n)).reverse
  (shaBlocks ((n + 9 + zeros) / 64) padded shaInit).flatMap (fun w => (toBytes 4 w.toNat).reverse)

end Sys2Proof.Machine
end

