-- ==== Sys2Proof/Machine/Table.lean ====
section
/-! DEFINITION. Machine/Table.lean: sparse tables and sets of numbers as sorted lists, and their readers and writers. -/

namespace Sys2Proof.Machine

/-- A sparse table by number, keys strictly rising where every write has gone through `put`. -/
abbrev Table (α : Type) := List (Nat × α)

/-- A set of numbers, strictly rising where every change has gone through `addNum` and `dropNum`. -/
abbrev NumSet := List Nat

/-- The entry at a key, if one is listed. -/
def find? {α : Type} : Table α → Nat → Option α
  | [], _ => none
  | (k, v) :: t, a => if k = a then some v else find? t a

/-- The entry at a key, or what an unlisted key reads as. -/
def look {α : Type} (t : Table α) (a : Nat) (d : α) : α := (find? t a).getD d

/-- Writes an entry, keeping the keys in order. -/
def put {α : Type} : Table α → Nat → α → Table α
  | [], a, v => [(a, v)]
  | (k, w) :: t, a, v =>
    if a < k then (a, v) :: (k, w) :: t
    else if a = k then (a, v) :: t
    else (k, w) :: put t a v

/-- Removes an entry. -/
def drop {α : Type} (t : Table α) (a : Nat) : Table α := t.filter (fun e => e.1 ≠ a)

/-- Adds a number to a set. -/
def addNum : NumSet → Nat → NumSet
  | [], a => [a]
  | k :: t, a => if a < k then a :: k :: t else if a = k then k :: t else k :: addNum t a

/-- Removes a number from a set. -/
def dropNum (t : NumSet) (a : Nat) : NumSet := t.filter (fun k => k ≠ a)

/-- The numbers lo, lo + 1, …, lo + n − 1. -/
def rangeFrom (lo n : Nat) : List Nat := (List.range n).map (fun i => lo + i)

/-- Replaces the element at an index, if there is one. -/
def setAt {α : Type} : List α → Nat → α → List α
  | [], _, _ => []
  | _ :: t, 0, v => v :: t
  | x :: t, n + 1, v => x :: setAt t n v

/-- Removes the element at an index. -/
def removeAt {α : Type} : List α → Nat → List α
  | [], _ => []
  | _ :: t, 0 => t
  | x :: t, n + 1 => x :: removeAt t n

end Sys2Proof.Machine
end

