-- ==== Sys2Proof/Machine/State.lean ====
section
/-! DEFINITION. Machine/State.lean: everything the manual gives the module, as plain data. Every field's default is its
reset value; where the manual gives none the value is a DESIGN CHOICE of the assumption log (entry 5). -/

namespace Sys2Proof.Machine

/-- Why a step stops. -/
inductive Fault where
  /-- Raised by a command whose operand names a unit the module does not have: a physical core above 17,407 (R15), an
  arbiter above 22 or a requester class its arbiter does not have (R310). Safe: the hardware has no such step. -/
  | noSuchUnit
  deriving DecidableEq, Repr

/-- Why a command has no meaning here. -/
inductive Refusal where
  /-- Raised by an arm of `exec` for a command not modelled yet. Safe. -/
  | notModelled (mnemonic : String)
  deriving DecidableEq, Repr

/-- The two grades (R4). -/
inductive Grade where
  | a
  | s
  deriving DecidableEq, Repr

/-- The byte memory: (address, byte) pairs, addresses strictly rising, no byte equal to what an unlisted address reads as. -/
abbrev Memory := List Host.Cell

/-! ## A core -/

/-- One stream-queue or fetch-queue entry: 1,024 bits, 8 sector marks, the phase bit, the tideline bit (R68, R73, R197). -/
structure Entry where
  data : Line := 0
  marks : BitVec 8 := 0
  phase : Bool := false
  tide : Bool := false
  deriving DecidableEq, Repr

/-- An entry held in a spill area (R70): the line of the pool slice that holds its 1,024 bits and their marks, and its side
bits, which the line holds too and no address reads. -/
structure SpillLine where
  line : Nat
  phase : Bool := false
  tide : Bool := false
  deriving DecidableEq, Repr

/-- Where a vector operand lies, its scalar register already read (R163). -/
inductive Place where
  | none
  | vreg (r : Nat)
  | cache (base : Nat)
  | acc (line : Nat)
  | queue (code : Nat)
  | pool (off : Nat)
  deriving DecidableEq, Repr

/-- An element-indexed write: (element, bits) in ascending order, and the numbers of the 32-element blocks it poisons.
`packed`: the elements of a block before the first here have been written by the same instruction. -/
structure ElemWrite where
  vals : List (Nat × Nat) := []
  pois : NumSet := []
  packed : Bool := false
  deriving DecidableEq, Repr

/-- An input plane (R125): format code, lengths, rows, one E8M0 scale per column, poison bits per row and 32 columns. -/
structure Plane where
  fmt : BitVec 4 := 0
  kLen : Nat := 0
  mLen : Nat := 0
  rows : Table (BitVec 512) := []
  scales : Line := 0
  rowMarks : NumSet := []
  scaleMarks : BitVec 8 := 0
  deriving DecidableEq, Repr

/-- A result in flight (R39): what becomes visible at its slot. `enqueue` (vector engine) and `enqueueLine` (matrix array,
the line's content then) go to output queue `q`, 8 to 15, once it has room for `need` entries (R41, R153, R164). -/
inductive Effect where
  | sreg (r : BitVec 5) (v : Word)
  | spoison
  | store (off : Nat) (v : Word)
  | csr (off : Nat) (v : Word)
  | accLine (line : Nat) (vals : List (Nat × BitVec 32)) (poison : Bool)
  | elems (p : Place) (fmt : Nat) (w : ElemWrite)
  | poolElems (off fmt e0 : Nat) (vals : List (Nat × Bool))
  | poolWords (off : Nat) (ws : List Word)
  | vecFlags (m : BitVec 8)
  | plane (p : Bool) (pl : Plane)
  | classErr
  | enqueue (q : Nat) (e : Entry) (need : Nat)
  | enqueueLine (q : Nat) (line : Nat) (need : Nat)
  | tapCount (slot : Nat) (bins : List Nat) (pois : Nat) (instr : Nat)
  deriving DecidableEq, Repr

/-- A result in flight with its visibility slot and the issue number that orders equal slots (R98). -/
structure Pending where
  vis : Nat
  iss : Nat
  eff : Effect
  deriving DecidableEq, Repr

/-- A plane load: its source code, format and lengths (R137). -/
structure PlaneLoad where
  src : Nat
  fmt : BitVec 4
  kLen : Nat
  mLen : Nat
  deriving DecidableEq, Repr

/-- A stream of weight rows, its registers already read (R137). -/
structure RowStream where
  n : Nat
  b : Nat
  wsrc : Nat
  wssrc : Nat
  wfmt : BitVec 4
  tree : Bool
  base : Nat
  depth : Nat
  last : Bool
  p : Bool
  /-- output queue for finished rows, when an MMA's DEST is QUEUE (R153). -/
  oq : Option (BitVec 3) := Option.none
  deriving DecidableEq, Repr

/-- The grid and lengths of an MMA (R146, R147). -/
structure Walk where
  k : Nat
  m : Nat
  n : Nat
  nkMax : Nat
  nmMax : Nat
  nnMax : Nat
  levels : Nat
  chunk : Nat
  mw : Nat
  wsrc : Nat
  wssrc : Nat
  isrc : Nat
  wfmt : BitVec 4
  ifmt : BitVec 4
  base : Nat
  oq : Option (BitVec 3)
  deriving DecidableEq, Repr

/-- A matrix instruction as it waits or runs. -/
inductive MatOp where
  | load (p : Bool) (l : PlaneLoad)
  | stream (w : RowStream) (l : Option PlaneLoad)
  | walk (w : Walk)
  deriving DecidableEq, Repr

/-- A vector instruction as it waits or runs, its scalar registers already read (R163). -/
structure VecOp where
  op : Nat
  n : Nat
  cols : Nat
  d : Place
  a : Place
  b : Place
  c : Place
  fmt : Nat
  aux : Nat
  rnd : Bool
  sS : Word
  sDst : BitVec 5
  tap : Bool
  w : Nat
  deriving DecidableEq, Repr

/-- A queued engine instruction: issue number, start slot, occupancy (R105), and the instruction. -/
structure Queued (α : Type) where
  iss : Nat
  start : Nat
  occ : Nat
  op : α
  deriving DecidableEq, Repr

/-- The position of a running walk (R152): walk index of the next tile, the slot it is due, the plane the next computed
tile streams through, and what the tile in hand streams and loads. -/
structure WalkPos where
  w : Walk
  tile : Nat
  due : Nat
  plane : Bool
  deriving DecidableEq, Repr

/-- The matrix array's instruction in hand: the stream and load of the present instruction or tile, their start slot,
the next group, the entries held (R129, R130) and the plane being loaded. -/
structure MatActive where
  iss : Nat
  start : Nat
  g : Nat := 0
  groups : Nat
  str : Option RowStream := Option.none
  ld : Option (Bool × PlaneLoad) := Option.none
  /-- dequeues of the present group already made (R89). -/
  got : Nat := 0
  wEnt : Entry := {}
  sEnt : Entry := {}
  iEnt : Entry := {}
  cEnt : Entry := {}
  filling : Plane := {}
  walk : Option WalkPos := Option.none
  deriving DecidableEq, Repr

/-- The vector engine's instruction in hand. `seen` holds the elements a reduction has read, with their poison;
`cnt` the packed elements of a COMPRESS or EXPAND; `out` the elements of the unfinished queue entry. -/
structure VecActive where
  iss : Nat
  start : Nat
  g : Nat := 0
  groups : Nat
  depth : Nat
  op : VecOp
  /-- elements of the queue operands A, B and C dequeued and not yet used, with their poison (R164). -/
  ha : List (Nat × Bool) := []
  hb : List (Nat × Bool) := []
  hc : List (Nat × Bool) := []
  out : List (Nat × Bool) := []
  out2 : List (Nat × Bool) := []
  seen : List (Nat × Bool) := []
  cnt : Nat := 0
  maskBad : Bool := false
  /-- destination blocks poisoned so far, of OPD and of the second destination. -/
  bad : NumSet := []
  bad2 : NumSet := []
  /-- the RNG and tap registers in effect at the start slot (R184). -/
  seed : Word := 0
  ctx : Word := 0
  tapCfg : Word := 0
  deriving DecidableEq, Repr

/-- A stream queue of a core (R68 to R72, R84). Queues 0 to 7 are inputs, 8 to 15 outputs. -/
structure StreamQueue where
  /-- CORE_SQ_CFG (R72). -/
  cfg : Word := 0
  /-- CORE_SQ_SPILL (R72). -/
  spillCfg : Word := 0
  /-- output queue: the old section's binding, in force until its tideline has left (R78). -/
  oldCfg : Option Word := Option.none
  /-- output queue: the old section's spill area still in force; OLD_AREA (R78, R84). -/
  oldSpill : Option Word := Option.none
  /-- output queue: step 1 of R76 has enqueued its tideline. -/
  tided : Bool := false
  buf : List Entry := []
  /-- spilled entries, oldest first (R70). -/
  spill : List SpillLine := []
  /-- input queue: entries on the mesh, oldest first, each with its flit number. -/
  arriving : List (Entry × Nat) := []
  /-- output queue: credits held for phase 0 and phase 1 (R69). -/
  cred0 : Nat := 0
  cred1 : Nat := 0
  /-- input queue: credits granted for phase 0 and phase 1 and not yet freed by a dequeue (R69). -/
  out0 : Nat := 0
  out1 : Nat := 0
  /-- CORE_SQ_STALL (R84). -/
  stall : Word := 0
  /-- CORE_SQ_STAT.HWM (R84). -/
  hwm : Nat := 0
  /-- an entry has entered or left since the last deadlock sample, and whole samples without one (R81). -/
  moved : Bool := false
  quiet : Nat := 0
  deriving DecidableEq, Repr

/-- One run of a generator's tile (R188): address, bytes, the slot it fills (R189), whether it is withheld (R190), and
its bytes with their poison once they have returned. -/
structure Run where
  addr : Nat
  len : Nat
  slot : Nat
  withheld : Bool := false
  /-- word 0 of each page it lies in, as its MU translated it (R266). -/
  pages : List (Nat × Word) := []
  /-- the flits it was asked for by (R290). -/
  net : List Nat := []
  got : Option (List (Byte × Bool)) := Option.none
  deriving DecidableEq, Repr

/-- A pass of a generator (R193): its offset and outer count, and the tiles it is cut to when it is run again after an
FSTOP had ended it (R194, R210). -/
structure Pass where
  off : Int
  cnt : Nat
  limit : Option Nat := Option.none
  /-- the first slot at which it may read: its FGO's issue slot + 3 (R196). -/
  due : Nat := 0
  deriving DecidableEq, Repr

/-- A tile generated and not wholly dequeued: the entries it still has, whether it is the last of its pass, its pass and
index in it, the indices it took (R190, R210), and for one fed by an indexer where they began: the number of the index
entry in the indexer's output, and the indices of that entry used before. -/
structure GenTile where
  n : Nat
  last : Bool
  pass : Pass
  tile : Nat
  idxs : List (BitVec 32 × Bool) := []
  ent : Nat := 0
  used : Nat := 0
  deriving DecidableEq, Repr

/-- An address generator and its fetch queue (R186 to R195, R212). -/
structure AddrGen where
  ctrl : Word := 0x0000000001100000
  base : Word := 0
  dim0 : Word := 0
  dims : Vector Word 4 := #v[0, 0, 0, 0]
  idx : Word := 0
  land : Word := 0
  /-- pending passes, at most 4 (R194). -/
  passes : List Pass := []
  /-- the pass in progress and its next tile. -/
  cur : Option (Pass × Nat) := Option.none
  /-- FSTOP: no tile after the present one (R194). -/
  stopping : Bool := false
  /-- the tiles being read, oldest first, each a list of runs. -/
  tiles : List (List Run) := []
  /-- generated entries in order, buffer and landing area together. -/
  fq : List Entry := []
  /-- the lines of the pool slice that hold the last of them, the oldest first (R186, R195), and how many at the end of `fq`
  have not been given a place yet. -/
  landed : List Nat := []
  fresh : Nat := 0
  /-- entries of the oldest tile of `tiles` already delivered. -/
  emitted : Nat := 0
  /-- tiles not wholly dequeued, oldest (t_old) first. -/
  left : List GenTile := []
  /-- entries of t_old already dequeued, and its index (R212). -/
  deq : Nat := 0
  told : Nat := 0
  /-- after a flood, entries to discard before delivery (R210), and the tiles it runs again that had begun before (R211). -/
  skip : Nat := 0
  begun : Nat := 0
  gated : Bool := false
  /-- INDEX mode: indices left of the present index entry (R190). -/
  indices : List (BitVec 32 × Bool) := []
  /-- INDEX mode: after a flood, the indices of the tiles run again, used first (R190, R210). -/
  replay : List (BitVec 32 × Bool) := []
  /-- INDEX mode fed by an indexer: indices to drop from the next index entry, used before a flood (R210). -/
  dropIdx : Nat := 0
  /-- an indexer: its wholly dequeued tiles whose indices its consumer may have to take again, oldest first, and the number
  of entries before them (R210). -/
  hist : List GenTile := []
  histFrom : Nat := 0
  /-- WRITE: bytes unpacked from WQ and not yet written, with poison; entries of the tile taken. -/
  wbytes : List (Byte × Bool) := []
  wentries : Nat := 0
  tilesDone : Word := 0
  /-- WRITE: tiles taken since enable, and those of them with a write not yet accepted (R212). -/
  tileSeq : Nat := 0
  openTiles : List Nat := []
  errs : Word := 0
  late : Word := 0
  fqStall : Word := 0
  deriving DecidableEq, Repr

/-- A descriptor whose lines are on the fabric (R203, R207, R325): the lines of other nodes still to be sent, first to last,
as READs of its source and then as WRITEs of its destination, how the moving ended once it has, and whether its last line
is being read back. -/
structure DmaFab where
  lines : List (Nat × Nat) := []
  /-- cause, bytes moved, whether poisoned data were copied. -/
  close : Option (Nat × Nat × Bool) := Option.none
  back : Bool := false
  /-- the flits of the mesh it waits for, and the bytes (key, length) lost with others (R297). -/
  net : List Nat := []
  lost : List (Nat × Nat) := []
  deriving DecidableEq, Repr

/-- A DMA channel (R201 to R207, R212). -/
structure DmaChannel where
  /-- accepted chains, oldest first: offset of the next descriptor of each, and the first slot at which it may be read
  (R201). -/
  chains : List (Nat × Nat) := []
  /-- the first chain has had a descriptor carried out. -/
  busy : Bool := false
  desc : BitVec 16 := 0
  ownStop : Bool := false
  abandoned : Bool := false
  pfail : Bool := false
  /-- a refused POSTED write not yet reported by a CONFIRMED descriptor (R207). -/
  prior : Bool := false
  /-- destinations of the POSTED descriptors completed since the last CONFIRMED one: address, rows, bytes, stride. -/
  posted : List (Nat × Nat × Nat × Int) := []
  /-- the descriptor in hand waits for the fabric. -/
  fab : Option DmaFab := Option.none
  nbad : BitVec 32 := 0
  ndone : BitVec 32 := 0
  deriving DecidableEq, Repr

/-- The activation packer of an MU (R237 to R241). -/
structure Packer where
  cfg : Word := 0
  /-- entries the pack channel has taken of the present frame. -/
  packIn : List Entry := []
  pframes : Word := 0
  uframes : Word := 0
  nanblk : BitVec 32 := 0
  short : BitVec 16 := 0
  deriving DecidableEq, Repr

/-- An EVT message not yet received by the primary (R118). -/
structure EvtMsg where
  kind : BitVec 4
  code : BitVec 16
  value : Word
  deriving DecidableEq, Repr

/-- An outstanding barrier arrival of a core (R306): barrier, generation number, whether the arrival has reached the die
unit, and the release once it has come (true: with FAIL). -/
structure BarArrival where
  b : BitVec 8
  gen : Nat
  sent : Bool
  rel : Option Bool
  deriving DecidableEq, Repr

/-- One unit's stall counters (R84). -/
structure UnitCount where
  busy : Word := 0
  wempty : Word := 0
  wfull : Word := 0
  wbank : Word := 0
  deriving DecidableEq, Repr

/-- An arbiter (R310 to R315): its active ARB_PRIO word, the requests parked (class, times passed over), the class its
present grant serves, and its counters. -/
structure Arbiter where
  parked : List (Nat × Nat) := []
  granted : Option Nat := Option.none
  dead : BitVec 16 := 0
  refuse : BitVec 16 := 0
  hwm : Nat := 0
  deriving DecidableEq, Repr

/-- A core's record of a section image (R373): instruction words and register entries. -/
structure ImageRec where
  words : Table Word := []
  regs : List (Nat × Word) := []
  deriving DecidableEq, Repr

/-- The state of one logical core: CU, MU and the counters of its CORE_ block (R21, R30). -/
structure Core where
  /-- s1 to s31 (R96); s0 reads as zero in `getS`. -/
  sregs : Table Word := []
  pc : BitVec 12 := 0
  bank : Bool := false
  /-- slots completed (CORE_SLOTS, R43): also the number of the slot now open. -/
  slot : Nat := 0
  /-- the next instruction issues no earlier than this slot (R103, R108, R109, R114). -/
  idleUntil : Nat := 0
  /-- a WAITS, WAITI or WAITD is the reason of `idleUntil` (R121). -/
  waiting : Bool := false
  /-- instructions issued since enable: orders results of one slot (R98). -/
  iss : Nat := 0
  /-- CORE_REFBEATS (R43). -/
  refbeats : Nat := 0
  ended : Bool := false
  faulted : Bool := false
  spoison : Bool := false
  evtLost : BitVec 16 := 0
  /-- CORE_FAULT and CORE_FAULT_SLOT (R121). -/
  faultReg : Word := 0
  faultSlot : Nat := 0
  /-- the core belongs to an enabled region and has been started. -/
  running : Bool := false
  /-- STOP received, and the stop confirmed (R89). -/
  stopping : Bool := false
  stopped : Bool := false
  /-- CU and MU switched off by an ebb drain (R86). -/
  off : Bool := false
  imem0 : Table Word := []
  imem1 : Table Word := []
  /-- configuration phase (R73). -/
  phase : Bool := false
  /-- the staging area is written (R74), and STAGED has been sent and has arrived. -/
  staged : Bool := false
  stagedSent : Bool := false
  stagedHere : Bool := false
  /-- the core's region was SLACK when SECTION_LOAD arrived (R75). -/
  fromSlack : Bool := false
  /-- the core has completed the switch of the present reconfiguration (R79). -/
  switched : Bool := false
  pend : List Pending := []
  matQ : List (Queued MatOp) := []
  vecQ : List (Queued VecOp) := []
  /-- E of R105 after the last instruction queued. -/
  matTail : Nat := 0
  vecTail : Nat := 0
  /-- the slot from which each engine has held work without a break until its tail (R84). -/
  matFrom : Nat := 0
  vecFrom : Nat := 0
  /-- the slot at which the occupancy of the MMA started last ends (R157). -/
  walkEnd : Nat := 0
  matA : Option MatActive := Option.none
  vecA : Option VecActive := Option.none
  /-- fetch instructions not yet accepted: FGO (generator, pass) or FSTOP (generator). -/
  fetchQ : List (Nat × Option Pass) := []
  /-- DMA instructions not yet accepted: channel, offset, the first slot at which a descriptor may be read. -/
  dmaQ : List (Nat × Nat × Nat) := []
  plane0 : Plane := {}
  plane1 : Plane := {}
  classErr : Bool := false
  seqPos : Word := 0
  /-- accumulator file: line to its 32 elements, and poisoned lines (R132). -/
  acc : Table Line := []
  accMarks : NumSet := []
  /-- vector registers: register × 4,096 + element to slot, and poisoned blocks register × 128 + block (R159). -/
  vregs : Table (BitVec 32) := []
  vregMarks : NumSet := []
  /-- operand cache bytes, and poisoned 32-byte granules (R160). -/
  cache : Memory := []
  cacheMarks : NumSet := []
  vecStatus : BitVec 8 := 0
  htapCfg : Word := 0x70
  rngSeed : Word := 0
  rngCtx : Word := 0
  htapBins : Table Nat := []
  htapPois : Nat := 0
  htapInstr : Nat := 0
  /-- one past the slot whose beat the tap last counted busy (R185). -/
  tapBusy : Nat := 0
  sq : Vector StreamQueue 16 := Vector.replicate 16 {}
  ag : Vector AddrGen 4 := Vector.replicate 4 {}
  /-- CORE_MU_CFG.RDL (R200). -/
  rdl : BitVec 10 := 100
  dma : Vector DmaChannel 2 := Vector.replicate 2 {}
  pk : Packer := {}
  evts : List EvtMsg := []
  barArr : BitVec 16 := 0
  barRel : BitVec 16 := 0
  barFail : Bool := false
  /-- outstanding barrier arrivals, oldest first (R306). -/
  barOut : List BarArrival := []
  /-- arrivals made at each barrier since enable: the generation of the next (R304). -/
  barGen : Table Nat := []
  pourDone : BitVec 16 := 0
  pourSent : BitVec 16 := 0
  pourFail : Bool := false
  /-- unit counters 0 to 7 (R84), CORE_STALL_TOTAL and FREEZE. -/
  units : Vector UnitCount 8 := Vector.replicate 8 {}
  stallTotal : Nat := 0
  freeze : Bool := false
  /-- ARB_PRIO words, shadow and active (R315), listed where they differ from reset. -/
  arbShadow : Table Word := []
  arbActive : Table Word := []
  arbCommits : BitVec 16 := 0
  arbRefused : Bool := false
  arbReason : BitVec 16 := 0
  arbs : Table Arbiter := []
  /-- where the CU's present operand accesses, and the stream spill's as unit 8, are parked or granted: (unit × 8 + class) × 32
  + arbiter (R313). -/
  cuParked : NumSet := []
  /-- one past the beat in which the vector engine last used the CU operand port (R311). -/
  vecBeat : Nat := 0
  /-- locations that have given a lasting error, and are in error at each read: instruction words (bank × 4,096 + address),
  accumulator lines, blocks of vector registers, granules of the operand cache (R119, R132, R160, R388, R389; log 114). -/
  imemErr : NumSet := []
  accErr : NumSet := []
  vregErr : NumSet := []
  cacheErr : NumSet := []
  /-- translation cache: page and the entry's word 0, oldest first (R266). -/
  ptCache : List (Nat × Word) := []
  ptMiss : Word := 0
  ptRetry : Word := 0
  steepMiss : Word := 0
  /-- consecutive object-range reads of a tier-2 or tier-3 location that missed the deadline (R279). -/
  lateRow : Nat := 0
  /-- watch ticks the present weight-starved wait has lasted (R282). -/
  starvedTicks : Nat := 0
  starved : Bool := false
  /-- a probe is unanswered (R393). -/
  probeMissed : Bool := false
  deriving DecidableEq, Repr

/-! ## Regions -/

/-- The region states of R66. -/
inductive RState where
  | free
  | staged
  | running
  | tideline
  | ebbing
  | slack
  | stopping
  | scanning
  | saved
  | flooding
  | halted
  | lost
  deriving DecidableEq, Repr

/-- Why a scan-out is under way (R85, R398, R402). -/
inductive ScanCause where
  | drain
  | replacement
  | thermal
  deriving DecidableEq, Repr

/-- One RGN_ register set and what Nemar holds for the region. -/
structure Region where
  rect : Word := 0
  ctrl : Word := 0
  stageScan : Word := 0
  wdog : BitVec 10 := 20
  /-- the shadow copies of the set's SC fields (R380): RGN_RECT, RGN_CTRL, RGN_STAGE_SCAN, RGN_WDOG. -/
  shRect : Word := 0
  shCtrl : Word := 0
  shStageScan : Word := 0
  shWdog : BitVec 10 := 20
  state : RState := .free
  phase : Bool := false
  watch : Bool := false
  reqValid : Bool := false
  reqTag : BitVec 12 := 0
  dlCount : Word := 0
  dlQ : List Word := []
  steepExt : Vector Word 4 := #v[0, 0, 0, 0]
  steepCtrl : Vector Word 4 := #v[0x1000000000000000, 0x1000000000000000, 0x1000000000000000, 0x1000000000000000]
  steepFront : Vector (BitVec 24) 4 := #v[0, 0, 0, 0]
  steepConflict : Vector Bool 4 := #v[false, false, false, false]
  /-- a page of the window was read below TIER since the last evaluation, and quiet evaluations in a row (R277). -/
  steepShort : Vector Bool 4 := #v[false, false, false, false]
  steepQuiet : Vector Nat 4 := #v[0, 0, 0, 0]
  tierTimeout : BitVec 16 := 0
  tierPoison : BitVec 16 := 0
  tierFail : BitVec 16 := 0
  tierIdle : BitVec 16 := 0
  /-- the entry gate (R211). -/
  gate : Bool := true
  /-- the request: its DONE count, the cores that have sent DONE, MOD_USEC at gate opening, LIMIT and the µs counted. -/
  doneCount : Nat := 0
  done : NumSet := []
  gateUsec : Nat := 0
  limitMs : Nat := 0
  reqUsec : Nat := 0
  /-- REGION_ENABLE in progress: its cores are started and its final completion is owed (R372, R466). -/
  enabling : Option CmdRef := Option.none
  /-- SECTION_LOAD in progress: its command and the new SECTION_ID (R79). -/
  load : Option (CmdRef × BitVec 16) := Option.none
  /-- REGION_DRAIN held or in progress, and its EBB option (R79, R465). -/
  drain : Option (CmdRef × Bool) := Option.none
  drainHeld : Bool := false
  /-- REGION_FLOOD in progress. -/
  flood : Option CmdRef := Option.none
  /-- the state a flood returns the region to (R94). -/
  resume : RState := .running
  scanCause : ScanCause := .drain
  /-- scan-out saves pool slices (SAVE_POOL, or R398 and R402). -/
  savePool : Bool := false
  /-- logical cores whose image is VOID, or will be (R398, R466). -/
  void : NumSet := []
  /-- a core, or an entry, of the region was lost during its scan-out: the core and the cause (R395, R466). -/
  lostCore : Option (Option Nat × Nat) := Option.none
  /-- a fault raised while STOPPING, whose request ends when SAVED (R120). -/
  stopFault : Option (Nat × Nat) := Option.none
  /-- ROUTER_ARB words kept for the region, a = 16 to 20, and the rectangle they were written over (R317). -/
  arbWords : Option (Word × List Word) := Option.none
  /-- a request has begun since the region was enabled (R119). -/
  requested : Bool := false
  /-- SWITCHED of a region that is SAVED or being flooded (R65, R79). -/
  switchedThen : Nat := 0
  /-- MOD_USEC of the last change of STATE, and the last request's status and tag (R386). -/
  stateUsec : Nat := 0
  lastStatus : BitVec 16 := 0
  lastTag : BitVec 12 := 0
  deriving DecidableEq, Repr

/-- The header of one core's state image in a scan area (R92), with VOID of R398. Its bytes have no layout in the spec
(log 53): they are free values from number `bytes` on, and `st` holds what they say. What R92 gives a place of its own in
the image (queue buffers, planes, accumulator, vector registers, operand cache) lies in memory, and `st` holds it empty. -/
structure ScanImage where
  core : Nat
  rect : Word
  sectionId : BitVec 16
  void : Bool
  gate : Bool
  bytes : Nat
  st : Core
  deriving DecidableEq, Repr

/-! ## Nemar -/

/-- The fields of a submission (R355). -/
structure Submission where
  opcode : BitVec 16 := 0
  inline : Bool := false
  tag : BitVec 12 := 0
  /-- bits of bytes 2 to 7 and 28 to 31 that must be zero. -/
  zero0 : Bool := true
  zero3 : Bool := true
  htimeV : Bool := false
  hostTime : Word := 0
  buf : Word := 0
  bufLen : BitVec 32 := 0
  args : Vector Word 12 := Vector.replicate 12 0
  deriving DecidableEq, Repr

/-- A command fetched and not finally completed (R358). -/
structure Command where
  sub : Submission
  ref : CmdRef
  ring : RingId
  region : BitVec 8 := 0
  /-- the command has passed its checks and begun. -/
  begun : Bool := false
  longAcked : Bool := false
  fetchUsec : Nat := 0
  /-- its ring was reset: completions are dropped (R360). -/
  dropped : Bool := false
  /-- its final completion waits for a port (R345): the tag stays in flight until it is written (R358). -/
  ended : Bool := false
  deriving DecidableEq, Repr

/-- A finished command whose completion was dropped (R387). -/
structure Finished where
  cmd : Command
  status : BitVec 16
  deriving DecidableEq, Repr

/-- An event-log record (R392). -/
structure LogRecord where
  seq : Nat
  stamp : Nat
  code : BitVec 16
  srcKind : BitVec 8
  persist : Bool
  tagValid : Bool
  srcId : BitVec 32
  tag : BitVec 12
  region : BitVec 8
  w0 : Word
  w1 : Word
  w2 : Word
  w3 : Word
  deriving DecidableEq, Repr

/-- A tier report on the control net (R280). -/
structure TierReport where
  region : Nat
  /-- logical core, or none for a watchdog expiry. -/
  core : Option Nat
  status : BitVec 16
  page : Nat
  src : Option Nat
  /-- the request that met it, and whether that request has ended, or none was valid, before the report came. -/
  tag : Option (BitVec 12) := Option.none
  past : Bool := false
  /-- the core whose MU or control core sends it. -/
  sender : Nat := 0
  deriving DecidableEq, Repr

/-- A module-scoped barrier's registers (R308, R331). -/
structure ModBarrier where
  set : Vector Word 4 := #v[0, 0, 0, 0]
  en : Bool := false
  fails : BitVec 16 := 0
  gen : BitVec 32 := 0
  fbar : Word := 0
  /-- children that have arrived, by generation; every child heard from since the commit; generations whose arrival has
  gone to the parent (R331). -/
  childArr : Table NumSet := []
  kids : NumSet := []
  sentUp : Nat := 0
  deriving DecidableEq, Repr

/-- A generation of a barrier as the barrier units count it (R305): key (region × 256 + b, or 65,536 + b), generation, the
cores that have arrived at their die's unit and not yet received the release, and whether the root has released it. -/
structure BarCount where
  inst : Nat
  gen : Nat
  cores : NumSet
  released : Bool := false
  /-- the dies that the root has heard from, and those whose unit has the release. -/
  dies : NumSet := []
  down : NumSet := []
  deriving DecidableEq, Repr

/-- A re-placement in progress (R398): the physical cores fenced, the regions of the affected set that take part, the
REPLACE commands to complete, and the logical cores moved once the row maps are committed (step 3). -/
structure Replacement where
  fences : List Nat
  regions : NumSet
  cmds : List (Nat × CmdRef) := []
  committed : Bool := false
  moved : Nat := 0
  deriving DecidableEq, Repr

/-- A management hart's state (R404); a restarted one with MOD_USEC of its restart. -/
inductive HartState where
  | off
  | running
  | restarted (usec : Nat)
  | fenced
  deriving DecidableEq, Repr

/-- A fault message on its way to Nemar (R119, R120): core, region, CORE_FAULT and its slot, RGN_REQ and its tag at the
fault; `past` once the region has been reset since. -/
structure FaultMessage where
  core : Nat
  region : Nat
  fault : Word
  slot : Nat
  req : Word
  tag : Option (BitVec 12)
  past : Bool := false
  deriving DecidableEq, Repr

/-- Nemar and the MOD_ block. -/
structure Nemar where
  /-- fault messages on the control net, oldest first (R119). -/
  faultMsgs : List FaultMessage := []
  /-- MOD_USEC (R49). -/
  usec : Nat := 0
  cmds : List Command := []
  finished : List Finished := []
  log : List LogRecord := []
  logNext : Nat := 0
  tierReports : List TierReport := []
  /-- MOD_FAULT_CTRL and the counters of MOD_FAULT_STAT (R391). -/
  sramLimit : BitVec 8 := 16
  auto : Bool := true
  transient : BitVec 32 := 0
  lasting : BitVec 16 := 0
  /-- generator check registers (R415). -/
  rngSaved : Word := 0
  rngDerived : Word := 0
  rngSavedSeed : Word := 0
  rngDerivedSeed : Word := 0
  rngChk : Word := 0
  bars : Table ModBarrier := []
  barCounts : List BarCount := []
  /-- spares that have failed their self-test twice in a re-placement and are not yet fenced (R398). -/
  badSpares : NumSet := []
  /-- harts, primary 0 to 3 then EE, ES, EW. -/
  harts : Vector HartState 7 := #v[.running, .running, .running, .running, .off, .off, .off]
  /-- SECTIONS as 32 bytes, and NSECT (R446). -/
  sections : List Byte := List.replicate 32 0
  nsect : Nat := 0
  /-- by physical core, the distinct locations that have given lasting SRAM errors, as kind × 2^32 + location; the cores that are
  weak and not yet fenced (R390). -/
  sram : Table NumSet := []
  weak : NumSet := []
  /-- fenced cores since power-on, by physical core. -/
  fencedNow : NumSet := []
  /-- logical cores that no route plan reaches (R296). -/
  unreached : NumSet := []
  replacements : List Replacement := []
  deriving DecidableEq, Repr

/-! ## Host attachment -/

/-- A ring pair (R352). -/
structure Ring where
  sqBase : Word := 0
  cqBase : Word := 0
  en : Bool := false
  port : Bool := false
  sqLog2 : Nat := 0
  cqLog2 : Nat := 0
  intDelay : Nat := 0
  intCount : Nat := 0
  sqHead : Nat := 0
  cqTail : Nat := 0
  inflight : Nat := 0
  refused : Bool := false
  err : BitVec 16 := 0
  sqAck : Nat := 0
  /-- announced SQ tail and released CQ head (R354). -/
  sqTail : Nat := 0
  cqHead : Nat := 0
  /-- completions written and not yet released, and completions owed by fetched commands (R359). -/
  cqUsed : Nat := 0
  owed : Nat := 0
  phase : Bool := true
  /-- completions not yet signalled, and MOD_USEC of the oldest (R352). -/
  unsig : Nat := 0
  unsigUsec : Nat := 0
  droppedCount : Nat := 0
  deriving DecidableEq, Repr

/-- A completion held while no CXL port is up (R345): ring, or boot, and its 32 bytes. -/
structure HeldCompletion where
  ring : Option RingId
  bytes : List Byte
  deriving DecidableEq, Repr

/-- An IDE stream (R447, R448): keys are programmed; it is secure, in containment or skid mode; a failure has taken its keys. -/
structure IdeState where
  keys : Bool := false
  secure : Bool := false
  containment : Bool := false
  lost : Bool := false
  deriving DecidableEq, Repr

/-- What a DOE mailbox answers (R343, R440). -/
inductive DoeAnswer where
  | cdat (table : List Byte)
  | version (major minor : Nat)
  /-- what the responder supports: key exchange, encryption and authentication of messages; neither CHALLENGE nor measurements
  nor pre-shared keys. -/
  | capabilities
  /-- secp384r1, SHA-384, AES-256-GCM. -/
  | algorithms
  | digests (slot0 : List Byte)
  | certificate (slot0 : List Byte)
  /-- signed with the session key. -/
  | keyExchange (signature : List Byte)
  | finish
  | unsupportedRequest
  | unexpectedRequest
  /-- IDE_KM: keys are programmed, or a stream is secure. -/
  | keysProgrammed (k : IdeStream)
  | nowSecure (k : IdeStream)
  deriving DecidableEq, Repr

/-- A CXL port (R343, R347, R440, R447). -/
structure CxlPort where
  up : Bool := false
  speed : BitVec 4 := 0
  width : BitVec 4 := 0
  /-- the taps its sixteen lanes were last trained with (R434). -/
  presets : List Word := []
  pid : BitVec 12 := 0
  busMaster : Bool := true
  /-- how far the SPDM negotiation has come: GET_VERSION, GET_CAPABILITIES, NEGOTIATE_ALGORITHMS; KEY_EXCHANGE has been
  answered and FINISH has not; a session is established (R440). -/
  spdm : Nat := 0
  kex : Bool := false
  session : Bool := false
  /-- the IDE streams, and an IDE failure that holds the port as down until it is re-keyed (R447, R448). -/
  io : IdeState := {}
  cachemem : IdeState := {}
  ideFailed : Bool := false
  /-- KEY_EXCHANGE messages answered; DOE answers waiting for the host, oldest first, each with its request. -/
  exchanges : Nat := 0
  doe : List (DoeMessage × DoeAnswer) := []
  deriving DecidableEq, Repr

/-- HST_STATUS.STATE (R347). -/
inductive HState where
  | firmware
  | mgmt
  | ready
  | halted
  deriving DecidableEq, Repr

/-- The host attachment: HST_ and MBX_ blocks. -/
structure HostIf where
  state : HState := .firmware
  heartbeat : Nat := 0
  hwinEn : Bool := false
  ports : Vector CxlPort 2 := Vector.replicate 2 {}
  hdmValid : Bool := false
  hdmError : Bool := false
  hdmHalf : BitVec 6 := 0
  /-- HALF as the last accepted decoder commit took it. -/
  hdmMap : BitVec 6 := 0
  errAlign : BitVec 16 := 0
  errDbell : BitVec 16 := 0
  errTagdup : BitVec 16 := 0
  errHdmPois : BitVec 16 := 0
  /-- the boot mailbox's 4 KiB (R351). -/
  boot : Memory := []
  bootBusy : Bool := false
  bootDone : Bool := false
  rings : Vector Ring 16 := Vector.replicate 16 {}
  /-- the MSI-X table's words, by BAR0 offset (R346). -/
  msix : Table Word := []
  /-- interrupts sent to the host, and those held while no port is up, oldest first. -/
  irqs : List (BitVec 5) := []
  heldIrqs : List (BitVec 5) := []
  held : List HeldCompletion := []
  /-- host-held lines of the snoop filters, by edge agent, oldest first (R350). -/
  snoop : Vector (List Nat) 4 := Vector.replicate 4 []
  /-- BISnpInv and BISnpData messages sent, each answered by BIRsp before the access went on (R350; log 133). -/
  bisnpInv : Nat := 0
  bisnpData : Nat := 0
  /-- the last answer to a host access of the HDM window: line data and poison. -/
  hdmAnswer : Option (BitVec 512 × Bool) := Option.none
  /-- snoop answers sent: RspI (R343). -/
  rspI : Nat := 0
  /-- the ring that was served last (R359), and the answer to the host's last read of BAR0 (R346). -/
  lastRing : Nat := 15
  bar0Answer : Word := 0
  deriving DecidableEq, Repr

/-! ## Memory tiers -/

/-- A placement entry (R264). -/
structure PtEntry where
  w0 : Word := 0
  w1 : Word := 0
  w2 : Word := 0
  heat : BitVec 16 := 0
  deriving DecidableEq, Repr

/-- A location (R264): tier, node, frame. -/
structure Location where
  tier : BitVec 2
  node : NodeId
  frame : BitVec 27
  deriving DecidableEq, Repr

/-- A page move in progress (R275): its old location, its destination, why it was chosen, and whether the copy and the second
invalidation are done. -/
structure Move where
  page : Nat
  src : Location
  dst : Location
  demotion : Bool
  against : Bool
  /-- steep (region × 4 + w) the promotion serves. -/
  steep : Option Nat
  copied : Bool := false
  /-- lines of another node still to be read or written for it (R264, R325), and whether they are written. -/
  lines : List (Nat × Nat) := []
  asked : Bool := false
  writing : Bool := false
  deriving DecidableEq, Repr

/-- A PAGE_RESTORE whose source or whose page has lines of another node (R285, R325): command, page, the key of its source (none
where the source is poisoned), lines still to be sent, and whether the source has been written. -/
structure PageRestore where
  ref : CmdRef
  page : Nat
  src : Option Nat
  lines : List (Nat × Nat)
  written : Bool := false
  deriving DecidableEq, Repr

/-- A command that waits for invalidations of pages (R267, R285). -/
structure PageWait where
  ref : CmdRef
  pages : NumSet
  result : Word
  deriving DecidableEq, Repr

/-- The tiers: placement table, frame pools, migration engine (R263 to R278). -/
structure Tiers where
  pt : Table PtEntry := []
  pool0 : NumSet := []
  pool1 : NumSet := []
  /-- frames taken from the pools by promotions. -/
  granted0 : NumSet := []
  granted1 : NumSet := []
  moves : List Move := []
  /-- invalidations not yet acknowledged: page and the cores whose MU still holds the entry. -/
  inval : List (Nat × NumSet) := []
  waits : List PageWait := []
  restores : List PageRestore := []
  /-- pages promoted for a steep: page to region × 4 + w. -/
  forSteep : Table Nat := []
  /-- bytes of each page that the MUs have read since the last evaluation (R264, R274). -/
  readBytes : Table Nat := []
  /-- bytes that BW still allows, carried from one period to the next. -/
  carry : Nat := 0
  bounds : Word := 0x00001000A0400040
  movesDone : Word := 0
  against : Word := 0
  fail : Word := 0
  deriving DecidableEq, Repr

/-! ## Mesh -/

/-- Messages of the control net (R303). -/
inductive CtlKind where
  | evt
  | fault
  | report
  | invalidate
  | staged
  | scan
  | arrive
  | release
  /-- a die's complete count of a generation on its way to the root, and the root's release on its way to a die (R305). -/
  | up (gen : Nat)
  | down (gen : Nat)
  deriving DecidableEq, Repr

/-- The kind of transfer a flit belongs to (R288, R290), or the control-net message it is (R302). An owner is a generator of
a core, or its DMA channel as 4 and 5; a key is a byte of the module's memory. -/
inductive FlitKind where
  /-- a stream entry: its queue names the flit. -/
  | entry
  /-- a read request of a line, and its return. -/
  | read (core owner key : Nat)
  | back (core owner key : Nat)
  /-- a write of bytes of a line: tile and run of a generator, and whether the run is counted in ERRS (R199); of a channel
  the tile is 1 where the descriptor is POSTED. -/
  | write (core owner key len tile run : Nat) (counted : Bool)
  /-- a request that an edge die makes for a line, a write or a read, and the read's return (R290, R301). -/
  | edgeReq (edge key : Nat) (write : Bool)
  | edgeBack (edge key : Nat)
  /-- a message from or to a core, and what it is about. -/
  | ctl (kind : CtlKind) (core key : Nat)
  deriving DecidableEq, Repr

/-- A flit on the data mesh, or a message on the control net (R288, R293, R302): position, destination, lane, route epoch,
beats spent, whether it has left the mesh. -/
structure MeshFlit where
  px : Nat
  py : Nat
  dx : Nat
  dy : Nat
  lane : Bool
  epoch : Bool
  beats : Nat := 0
  resent : Bool := false
  delivered : Bool := false
  kind : FlitKind := .entry
  /-- it is bound for an edge die and leaves by port 5. -/
  edge : Bool := false
  /-- the edge die that it came from, and whether it is still in the FIFO of its attachment point (R300). -/
  from_ : Option Nat := Option.none
  fifo : Bool := false
  /-- the number of its arrival where it is (R303). -/
  arr : Nat := 0
  /-- the input of its router that it stands at (R310): north, east, south, west, local injection. -/
  inp : Nat := 4
  deriving DecidableEq, Repr

/-- One input's request at a router output, or one class's at the injection port of an MU (R310, R311): when it was posted, the
grants that have passed it over, and whether lane 1 went last of it (R288). -/
structure LinkAsk where
  posted : Nat := 0
  passed : Nat := 0
  lane1 : Bool := false
  deriving DecidableEq, Repr

/-- The mapping that an edge die spreads its ingress by (R301): the mask, and the points that are unavailable. -/
structure EdgeMap where
  mask : BitVec 16 := 0x5555
  out : NumSet := []
  deriving DecidableEq, Repr

/-- A router's registers (R294) and router-output arbiters' words (R317). -/
structure Router where
  pass : Bool := false
  isolated : Bool := false
  oldEmpty : Bool := false
  epoch : Bool := false
  active : Bool := false
  /-- entries that differ from 0: bank × 512 + isY × 256 + index. -/
  table : Table (BitVec 4) := []
  deriving DecidableEq, Repr

/-- A re-plan in progress (R295). -/
structure Replan where
  trigger : ReplanTrigger
  /-- MOD_USEC of its start. -/
  startUsec : Nat := 0
  /-- the new route epoch, and the routers it routes around. -/
  epoch : Bool := false
  around : NumSet := []
  deriving DecidableEq, Repr

/-- What an edge die has been asked for: a READ or a WRITE of another node, or a line of the HDM window. -/
inductive TransitReq where
  | read (f : Flit)
  | write (f : Flit)
  | hdm (addr : Nat) (wr : Option (BitVec 512)) (poison : Bool)
  deriving DecidableEq, Repr

/-- A request of an edge die whose flits are on the data mesh (R290, R301). -/
structure Transit where
  edge : Nat
  req : TransitReq
  net : List Nat
  deriving DecidableEq, Repr

/-- The data mesh. -/
structure Mesh where
  routers : Table Router := []
  flits : Table MeshFlit := []
  nextFlit : Nat := 0
  replan : Option Replan := Option.none
  waiting : List RoutePlan := []
  /-- ZL_SPRAY as committed, and the mapping each edge die applies (R301). -/
  spray : Vector (BitVec 16) 4 := Vector.replicate 4 0x5555
  maps : Vector EdgeMap 4 := Vector.replicate 4 {}
  nextArr : Nat := 0
  /-- requests at links, by sending router × 8 + port, then × 8 + input; port 7 is the MU's injection port, by class. -/
  asks : Table LinkAsk := []
  /-- code-error links marked failed: sending router × 4 + direction. -/
  failedLinks : NumSet := []
  /-- requests of the edge dies that wait for the mesh, oldest first. -/
  transits : List Transit := []
  deriving DecidableEq, Repr

/-! ## Dies, quadrants, power -/

/-- The fault map's row entry (R425) and the map in force (R32). -/
structure Row where
  /-- every lasting fault, and failed routers, of the fault map. -/
  faults : NumSet := []
  routers : NumSet := []
  rowOut : Bool := false
  /-- what DIE_ROWMAP shows: faults mapped around, routers among them, row out. -/
  inForce : NumSet := []
  inForceOut : Bool := false
  deriving DecidableEq, Repr

/-- A thermal quadrant (R57, R58, R456). -/
structure Quadrant where
  rateBounds : Word := 0x0352A05A
  thermBounds : Word := 0x5F55
  vrail : Nat := 0
  rate : Nat := 0
  tj : Nat := 0
  twork : Nat := 0
  throttled : Bool := false
  conflict : Bool := false
  conflictQuiet : Nat := 0
  safetyTemp : Bool := false
  safetyCur : Bool := false
  /-- effective RMAX in percent of RMAX (R56). -/
  effRmax : Nat := 100
  ebbed : Bool := false
  ebbing : Bool := false
  ebbUsec : Nat := 0
  /-- µs above 100 °C at the floor, and at or below 70 °C while ebbed (R401, R403). -/
  hotUsec : Nat := 0
  coolUsec : Nat := 0
  /-- µs since throttling last began or T_work last rose (R55). -/
  calmUsec : Nat := 0
  temps : Vector (BitVec 16) 4 := Vector.replicate 4 0
  irail : BitVec 11 := 0
  phases : Nat := 24
  slow : Bool := false
  powered : Bool := false
  deriving DecidableEq, Repr

/-- A stack (R13, R456, R457). -/
structure Stack where
  temp : BitVec 16 := 0
  hot : Bool := false
  phaseLost : Bool := false
  failed : Bool := false
  /-- the eight timing parameters it was trained with (R421, R434). -/
  timing : List Word := []
  deriving DecidableEq, Repr

/-- Dies, input power and coolant. -/
structure Plant where
  rows : Table Row := []
  meshUp : NumSet := []
  /-- dies that this bring-up could not bring up, and the fault map's DIE_OUT, which only grows (R423, R425). -/
  dieOut : NumSet := []
  dieOutMap : NumSet := []
  quads : Table Quadrant := []
  dram : Table Stack := []
  pcap : BitVec 9 := 420
  /-- rows of the bring-up sequence completed (R420); 2: FIRMWARE. -/
  bootStep : Nat := 2
  powerGood : Bool := true
  /-- ALERT held by a halted module, and by coolant alarms (R404, R459). -/
  alertHalt : Bool := false
  bricksFailed : Nat := 0
  pin : BitVec 16 := 0
  iin : BitVec 16 := 0
  vin : BitVec 16 := 0
  inputLimit : Bool := false
  cool : CoolReadings := ⟨0, 0, 0, 0⟩
  pwrAlarm : Bool := false
  dieAlarm : Bool := false
  /-- failed phases of the edge dies, and edge dies lost (R454). -/
  edgePhases : Vector Nat 4 := Vector.replicate 4 0
  edgeLost : Vector Bool 4 := Vector.replicate 4 false
  deriving DecidableEq, Repr

/-! ## Zoinnath fabric -/

/-- ZL_PORT_STAT.STATE (R323). -/
inductive ZState where
  | down
  | training
  | up8
  | up4
  | mismatch
  deriving DecidableEq, Repr

/-- A flit with its kind. -/
structure KFlit where
  kind : BitVec 4
  f : Flit
  deriving DecidableEq, Repr

/-- A Zoinnath port (R321, R323). -/
structure ZPortState where
  cfg : Word := 0
  state : ZState := .down
  lanes : BitVec 8 := 0
  retry : BitVec 32 := 0
  lasting : BitVec 16 := 0
  retrain : BitVec 16 := 0
  /-- next SEQ to send, next SEQ expected, flits sent and not covered by a LACK, flits waiting to be sent. -/
  txSeq : BitVec 12 := 0
  rxSeq : BitVec 12 := 0
  replay : List KFlit := []
  tx : List KFlit := []
  /-- link-layer flits this port has sent: kind and AUX, oldest first. -/
  sentLink : List (BitVec 4 × BitVec 32) := []
  /-- each SEQ that has failed its CRC and not arrived good since (R321). -/
  failedSeqs : NumSet := []
  /-- each SEQ that the far end has named in a LNAK and no LACK covers yet. -/
  nakSeqs : NumSet := []
  credits : Nat := 0
  /-- traffic held for a retrain (R321). -/
  held : Bool := false
  /-- traffic held while the port trains for a changed configuration (R376). -/
  fresh : Bool := false
  ident0 : Word := 0
  ident1 : Word := 0
  /-- the taps its eight lanes were last trained with (R434). -/
  presets : List Word := []
  /-- deviation of each lane's taps from the preset, and conflicts raised (R322). -/
  dev : Table Nat := []
  conflict : NumSet := []
  eqQuiet : Table Nat := []
  deriving DecidableEq, Repr

/-- A read of one line sent over the fabric that is not answered, or has failed: tag, node, line number and owner: core and
generator, core and DMA channel as 4 and 5, page of a move as 6. -/
structure FabRead where
  tag : BitVec 12
  node : NodeId
  line : Nat
  core : Nat
  gen : Nat
  failed : Bool := false
  deriving DecidableEq, Repr

/-- A line sent over the fabric as a write that is not yet acknowledged, or has failed: tag, node, line number, owner as
for a read, tile of a generator (of a channel: 1 where the descriptor is POSTED), run of the tile, and whether that run is
counted in ERRS already (R199). -/
structure FabWrite where
  tag : BitVec 12
  node : NodeId
  line : Nat
  core : Nat
  gen : Nat
  tile : Nat
  run : Nat := 0
  counted : Bool := false
  failed : Bool := false
  deriving DecidableEq, Repr

/-- A pour contribution whose round is not known to be over (R335, R338): core, slot, κ, line of its source, its round since
the slot's commit, lines sent, and whether SENT has counted it. -/
structure Contribution where
  core : Nat
  slot : Nat
  kappa : Nat
  src : Nat
  round : Nat
  sent : Nat := 0
  counted : Bool := false
  deriving DecidableEq, Repr

/-- A pour slot (R334, R336). -/
structure PourSlotState where
  w0 : Word := 0
  w1 : Word := 0
  w2 : Word := 0
  w3 : Word := 20
  state : BitVec 8 := 0
  rounds : BitVec 32 := 0
  plines : Word := 0
  refused : BitVec 32 := 0
  fails : BitVec 32 := 0
  /-- folder: contribution lines of the present round, line × 4,096 + κ to data, and poisoned ones. -/
  have_ : Table Line := []
  bad : NumSet := []
  /-- folder: lines of the round whose result has been written, and MOD_USEC of its first line. -/
  written : NumSet := []
  startUsec : Option Nat := Option.none
  /-- folder: lines of the round whose result has been sent to another node, which has not yet answered (R336). -/
  out : NumSet := []
  /-- folder: this slot holds a fold part (R336). -/
  part : Bool := false
  /-- folder: nodes that have contributed since the commit, the round in hand since it, and the cause that a failed round
  answers its later lines with (R338). -/
  nodes : NumSet := []
  rnd : Nat := 0
  cause : Nat := 3
  /-- contributor: the round its credit is for, and the windows granted of it (R336). -/
  cround : Nat := 0
  cwin : Nat := 2
  /-- rounds this module has begun to contribute since the commit, by κ. -/
  begun : Table Nat := []
  deriving DecidableEq, Repr

/-- A copy of a mover that reaches other nodes: the lines it has still to ask for or, once its destination is written here, to
send; whether its last line is being read back (R207); the bytes moved. -/
structure FarCopy where
  lines : List (Nat × Nat)
  written : Bool := false
  back : Bool := false
  bytes : List Byte := []
  deriving DecidableEq, Repr

/-- A re-shard in progress (R341). -/
structure Reshard where
  ref : CmdRef
  epoch : BitVec 16
  /-- source, destination, length. -/
  table : List (Nat × Nat × Nat)
  drainMs : Nat
  startUsec : Nat
  /-- participants that have reported drained, and their copies confirmed, when this module coordinates. -/
  drained : NumSet := []
  done : NumSet := []
  reported : Bool := false
  copying : Bool := false
  copied : NumSet := []
  /-- entries whose copy waits for other nodes. -/
  jobs : Table FarCopy := []
  deriving DecidableEq, Repr

/-- The Zoinnath fabric. -/
structure Fabric where
  ports : Vector ZPortState 32 := Vector.replicate 32 {}
  node : NodeId := 0
  routes : Table Word := []
  eqBounds : Vector Word 4 := Vector.replicate 4 0x4645
  reads : List FabRead := []
  writes : List FabWrite := []
  nextTag : BitVec 12 := 0
  layout : BitVec 16 := 0
  pours : Table PourSlotState := []
  contribs : List Contribution := []
  reshard : Option Reshard := Option.none
  /-- slots that ask for credit and have no fold part, in the order of asking, and POUR flits of theirs (R336). -/
  asking : List Nat := []
  pourWait : List Flit := []
  /-- the end of a re-shard owed to nodes that a link failure kept from it: node and payload of its message (R342). -/
  owed : List (Nat × Nat) := []
  /-- reports of step 3 that came before this module's own RESHARD: node and epoch (R341). -/
  early : List (Nat × Nat) := []
  /-- FABRIC_SET waiting for its ports, and MOD_USEC of its commit (R376). -/
  fabricCmd : Option (CmdRef × Nat) := Option.none
  deriving DecidableEq, Repr

/-! ## Persistent store -/

/-- A journal record (R427): JSEQ, KIND, a key within the kind, and the body's words. -/
structure JournalRecord where
  jseq : Nat
  kind : BitVec 16
  key : Nat
  body : List Word
  deriving DecidableEq, Repr

/-- A firmware slot (R430): STATE 0 EMPTY, 1 VALID, 2 BAD. -/
structure FwSlot where
  state : BitVec 8 := 0
  version : BitVec 32 := 0
  length : Nat := 0
  digest : List Byte := []
  /-- the image's bytes as FW_STAGE programmed them; the factory's are not given, and verify unless they spoil (log 47). -/
  image : List Byte := []
  factory : Bool := false
  deriving DecidableEq, Repr

/-- A shard of a checkpoint list (R378): source, destination, length, the digest its entry holds. -/
structure Shard where
  src : Nat
  dst : Nat
  len : Nat
  digest : List Byte
  deriving DecidableEq, Repr

/-- A checkpoint copy in progress (R408, R409): command, mode, shards, the digests of those copied, how many entries in order
have been dealt with, the lowest failing shard with its status. -/
structure CkptCopy where
  ref : CmdRef
  restore : Bool
  shards : List Shard
  digests : Table (List Byte) := []
  written : Nat := 0
  failed : Option (Nat × BitVec 16) := Option.none
  /-- shards whose copy waits for other nodes. -/
  jobs : Table FarCopy := []
  deriving DecidableEq, Repr

/-- A journal half: the GEN of its header, its records, and the bytes in use (R426). -/
structure JournalHalf where
  gen : Nat
  records : List JournalRecord
  used : Nat
  deriving DecidableEq, Repr

/-- A compaction in progress (R429): the JSEQ after its snapshot's, the records written into the alternate half, steps done. -/
structure Compaction where
  next : Nat
  records : List JournalRecord := []
  step : Nat := 1
  deriving DecidableEq, Repr

/-- The persistent store (R426 to R434, R441 to R443) and the checkpoint copies. -/
structure Store where
  journal : List JournalRecord := []
  jseq : Nat := 0
  /-- bytes used in the active half, its GEN, which half is active. -/
  used : Nat := 4096
  gen : Nat := 1
  halfB : Bool := false
  /-- the other half, where its header is valid; a compaction in progress; records that wait for room (R429). -/
  other : Option JournalHalf := Option.none
  compaction : Option Compaction := Option.none
  waiting : List (BitVec 16 × Nat × List Word) := []
  slots : Vector FwSlot 4 := #v[{ state := 1, factory := true }, {}, {}, {}]
  active : BitVec 4 := 0
  fallback : BitVec 4 := 0
  loaded : BitVec 4 := 0
  /-- committed NEXT of SIGIDX, and the next index to sign with (R442). -/
  sigNext : Nat := 0
  sigIdx : Nat := 0
  /-- lower trees built: number of the one in memory, and of the one after it when built (R443). -/
  tree : Option Nat := Option.none
  treeNext : Option Nat := Option.none
  /-- the top tree's signatures over their public keys, and the lower tree that signed last since power-on (R443). -/
  topSig : List Byte := []
  topSigNext : List Byte := []
  treeUsed : Option Nat := Option.none
  /-- an ATTEST whose index is assigned and whose lower tree is not yet built: command, index, report bytes 0x000 to 0x17F. -/
  attest : Option (CmdRef × Nat × List Byte) := Option.none
  /-- user calibration values by kind × 2^32 + key (R434). -/
  cal : Table Word := []
  powerOns : Nat := 0
  minutes : Nat := 0
  lifeTransient : Nat := 0
  lifeLasting : Nat := 0
  /-- JSEQ of the last fault-map change (R425). -/
  faultJseq : Nat := 0
  /-- a compaction is due (R428, R429). -/
  compactDue : Bool := false
  /-- a record's program-verify fails, and the retry works; or both fail (R428; log 114). -/
  verifyWeak : Bool := false
  verifyFails : Bool := false
  /-- entries of the fault map whose present value no committed record holds. -/
  unrecorded : NumSet := []
  copies : List CkptCopy := []
  /-- by mover, the copies in the order in which their shards take turns (R408). -/
  turns : Vector (List CmdRef) 4 := Vector.replicate 4 []
  deriving DecidableEq, Repr

/-! ## The module -/

/-- The MV16. -/
structure State where
  /-- the part's grade (R4); no command changes it. -/
  grade : Grade := .a
  /-- logical cores, by logical core number. -/
  cores : Table Core := []
  /-- every byte the module can reach (see Ops.lean for the keys), and the marked 16-byte sectors of pool, stacks, host
  and fabric (R197, R198). -/
  mem : Memory := []
  marks : NumSet := []
  regions : Table Region := []
  /-- scan images by the module-local address R91 gives them. -/
  images : Table ScanImage := []
  nemar : Nemar := {}
  host : HostIf := {}
  tiers : Tiers := {}
  mesh : Mesh := {}
  plant : Plant := {}
  fabric : Fabric := {}
  store : Store := {}
  /-- MODEL'S OWN: the counter the free values are taken at (log 2); no state of the hardware. -/
  free : Nat := 0
  /-- the commands that wait, first in, first out. -/
  pending : List Instr := []
  deriving DecidableEq, Repr

/-- The module right after reset: every register at its Reset column, memory with nothing listed, no command waiting. -/
def State.reset : State := {}

end Sys2Proof.Machine
end

