-- ==== Sys2Proof/Machine/Ops.lean ====
section
/-! DEFINITION. Machine/Ops.lean: the named operations over memory, marks, coordinates, registers and queues that every
family shares. Byte keys of `State.mem`: a module-local address of the pool or a stack; host byte h at the host
window's base plus h; byte a of fabric node n at 2^60 + n × 2^48 + a (log 6). -/

namespace Sys2Proof.Machine

/-! ## Bytes and marks -/

/-- What a byte nothing has written reads as: 0 (DESIGN CHOICE, log 1). -/
def unlisted : Byte := 0

/-- Reads one byte. -/
def getByte (m : Memory) (a : Nat) : Byte := look m a unlisted

/-- Writes one byte, keeping the canonical form. -/
def setByte (m : Memory) (a : Nat) (b : Byte) : Memory := if b = unlisted then drop m a else put m a b

/-- Keys strictly rising from a bound on. -/
def Memory.above (lo : Nat) : Memory → Bool
  | [] => true
  | (a, b) :: t => lo ≤ a && b ≠ unlisted && Memory.above (a + 1) t

/-- The canonical form of a memory. -/
def Memory.wf (m : Memory) : Bool := Memory.above 0 m

/-- Reads `n` bytes from an address up. -/
def getBytes (m : Memory) (a : Nat) : Nat → List Byte
  | 0 => []
  | n + 1 => getByte m a :: getBytes m (a + 1) n

/-- Writes bytes from an address up. -/
def setBytes (m : Memory) (a : Nat) : List Byte → Memory
  | [] => m
  | b :: t => setBytes (setByte m a b) (a + 1) t

/-- A 64-bit word, the lowest byte first. -/
def getWord (m : Memory) (a : Nat) : Word := BitVec.ofNat 64 (ofBytes (getBytes m a 8))

/-- Bytes a mark covers where an address lies: a 16-byte sector in the pool, a 128-byte line in stacks and fabric, 64
bytes of host memory (R197, R198). -/
def granule (a : Nat) : Nat :=
  if a < 0x1000000000 then 16
  else if a < 0x100000000000 then 128
  else if a < 0x200000000000 then 64
  else 128

/-- The sector of an address is marked. -/
def marked (ms : NumSet) (a : Nat) : Bool := ms.contains (a / 16)

/-- Sets or clears the marks of the sectors of one granule. -/
def setGranule (g : Nat) (ms : NumSet) (k : Nat) (on : Bool) : NumSet :=
  (rangeFrom (k * (g / 16)) (g / 16)).foldl (fun t j => if on then addNum t j else dropNum t j) ms

/-- The marks after bytes with their poison are written at an address (R198): a granule wholly covered takes the mark of
its data, one covered in part stays marked. -/
def writeMarks (ms : NumSet) (a : Nat) (ps : List Bool) : NumSet :=
  let g := granule a
  let n := ps.length
  if n = 0 then ms else
  (rangeFrom (a / g) ((a + n - 1) / g + 1 - a / g)).foldl (fun t k =>
    let lo := Nat.max a (k * g)
    let hi := Nat.min (a + n) ((k + 1) * g)
    let bad := ((ps.drop (lo - a)).take (hi - lo)).any id
    let whole := hi - lo == g
    if bad then setGranule g t k true else if whole then setGranule g t k false else t) ms

/-- A 64-byte line meets a range. -/
def lineMeets (a n k : Nat) : Bool := a < 64 * k + 64 && 64 * k < a + n

/-- The host-held lines that a range meets: before a write of it an agent sends BISnpInv for each, before a read BISnpData,
and waits for BIRsp (R350). The host writes a line that it has changed back by HDM_ACCESS before it answers (DESIGN CHOICE,
log 133). -/
def HostIf.heldLines (h : HostIf) (a n : Nat) : List Nat := h.snoop.toList.flatMap (fun t => t.filter (lineMeets a n))

/-- BISnpInv for each host-held line that a write of n bytes at a touches, and the filters as its BIRsp leaves them: no such
line is host-held. -/
def HostIf.unsnoop (h : HostIf) (a n : Nat) : HostIf :=
  if h.snoop.toList.all List.isEmpty then h
  else { h with snoop := h.snoop.map (fun t => t.filter (fun k => !lineMeets a n k)),
                bisnpInv := h.bisnpInv + (h.heldLines a n).length }

/-- BISnpData for each host-held line that a module read of n bytes at a touches; the line stays host-held. -/
def State.snoopData (s : State) (a n : Nat) : State :=
  if a < 0x1000000000 || (s.host.heldLines a n).isEmpty then s
  else { s with host := { s.host with bisnpData := s.host.bisnpData + (s.host.heldLines a n).length } }

/-- Writes bytes and their poison to the module's byte memory. -/
def State.writeMem (s : State) (a : Nat) (bs : List (Byte × Bool)) : State :=
  { s with mem := setBytes s.mem a (bs.map Prod.fst), marks := writeMarks s.marks a (bs.map Prod.snd)
           host := s.host.unsnoop a bs.length }

/-- Reads bytes with the marks of their sectors. -/
def State.readMem (s : State) (a n : Nat) : List (Byte × Bool) :=
  (getBytes s.mem a n).zip ((rangeFrom a n).map (marked s.marks))

/-- The marks of the eight sectors of a pool line. -/
def State.lineMarks (s : State) (a : Nat) : BitVec 8 :=
  (List.range 8).foldl (fun m k => if marked s.marks (a + 16 * k) then m ||| BitVec.ofNat 8 (2 ^ k) else m) 0

/-- An entry's 128 bytes with the poison of their sectors (R197). -/
def Entry.bytes (e : Entry) : List (Byte × Bool) :=
  ((toBytes 128 e.data.toNat).zipIdx).map (fun b => (b.1, bit e.marks (b.2 / 16)))

/-- Clean bytes. -/
def clean (bs : List Byte) : List (Byte × Bool) := bs.map (fun b => (b, false))

/-- Any byte of a run is poisoned. -/
def anyBad (bs : List (Byte × Bool)) : Bool := bs.any Prod.snd

/-! ## Coordinates (R14 to R20) -/

/-- Die of a logical core. -/
def coreDie (l : Nat) : Nat := l / 1024
/-- Row of a logical core. -/
def coreRow (l : Nat) : Nat := l / 32 % 32
/-- Logical column of a logical core. -/
def coreCol (l : Nat) : Nat := l % 32
/-- X of R14. -/
def coreX (l : Nat) : Nat := coreDie l % 4 * 32 + coreCol l
/-- Y of R14. -/
def coreY (l : Nat) : Nat := coreDie l / 4 * 32 + coreRow l
/-- The logical core at X, Y. -/
def coreAt (x y : Nat) : Nat := (y / 32 * 4 + x / 32) * 1024 + y % 32 * 32 + x % 32

/-- First byte of a core's pool slice (R24). -/
def sliceBase (l : Nat) : Nat := l * 0x400000

/-- The dies of a grade that have cores (R4, R5). -/
def dieExists (g : Grade) (d : Nat) : Bool :=
  match g with
  | .a => d < 16
  | .s => d < 16 && !(d == 0 || d == 3 || d == 12 || d == 15)

/-- A stack exists in a grade (R4). -/
def stackExists (g : Grade) (k : Nat) : Bool := k < 32 && dieExists g (k / 2)

/-- The absent stack that a module-local address lies in, if it lies in one (R24, R379). -/
def absentStackAt (g : Grade) (a : Nat) : Option Nat :=
  let k := (a - 0x040000000000) / 0x2000000000
  if 0x040000000000 ≤ a && a < 0x080000000000 && !stackExists g k then some k else none

/-- Row entry of a die's row. -/
def State.row (s : State) (d r : Nat) : Row := look s.plant.rows (d * 32 + r) {}

/-- The physical column of logical column j past the faults mapped around (R16). -/
def physCol (faults : NumSet) (j : Nat) : Nat := ((List.range 34).filter (fun c => !faults.contains c)).getD j 33

/-- The physical core beneath a logical core under the row maps in force. -/
def State.physOf (s : State) (l : Nat) : Nat :=
  coreDie l * 1088 + coreRow l * 34 + physCol (s.row (coreDie l) (coreRow l)).inForce (coreCol l)

/-- Die, row and column of a physical core (R15). -/
def physDie (p : Nat) : Nat := p / 1088
/-- Row of a physical core. -/
def physRow (p : Nat) : Nat := p % 1088 / 34
/-- Physical column of a physical core. -/
def physColOf (p : Nat) : Nat := p % 34

/-- The logical core a physical core carries, if any (R17). -/
def State.logOf (s : State) (p : Nat) : Option Nat :=
  let base := physDie p * 1024 + physRow p * 32
  ((rangeFrom base 32).filter (fun l => s.physOf l == p)).head?

/-- Module quadrant of a physical core (R20). -/
def physQuad (p : Nat) : Nat := physDie p * 4 + physRow p / 16 * 2 + (if physColOf p < 16 then 0 else 1)

/-- A quadrant's record. -/
def State.quad (s : State) (q : Nat) : Quadrant := look s.plant.quads q {}

/-- Writes a quadrant's record. -/
def State.setQuad (s : State) (q : Nat) (v : Quadrant) : State :=
  { s with plant := { s.plant with quads := put s.plant.quads q v } }

/-- The physical core beneath a logical core is fenced as faulty and its row not yet remapped (R394). -/
def State.reef (s : State) (l : Nat) : Bool :=
  (s.row (coreDie l) (coreRow l)).faults.contains (s.physOf l % 34)

/-- A logical core exists in the grade, is no reef, its row is not marked out, its quadrant is not ebbed, its die is up
and routes reach it (R5, R18, R20, R296, R394). -/
def State.available (s : State) (l : Nat) : Bool :=
  dieExists s.grade (coreDie l) && !s.reef l && !(s.row (coreDie l) (coreRow l)).inForceOut &&
    !(s.quad (physQuad (s.physOf l))).ebbed && !(s.quad (physQuad (s.physOf l))).ebbing &&
    !s.plant.dieOut.contains (coreDie l) && !s.nemar.unreached.contains l

/-! ## Cores and regions -/

/-- A logical core's state. -/
def State.core (s : State) (l : Nat) : Core := look s.cores l {}

/-- Writes a logical core's state. -/
def State.setCore (s : State) (l : Nat) (c : Core) : State := { s with cores := put s.cores l c }

/-- A region's register set. -/
def State.region (s : State) (r : Nat) : Region := look s.regions r {}

/-- Writes a region's register set. -/
def State.setRegion (s : State) (r : Nat) (v : Region) : State := { s with regions := put s.regions r v }

/-- X0, Y0, X1, Y1 of RGN_RECT (R65). -/
def rectX0 (w : Word) : Nat := fld w 0 7
/-- Y0. -/
def rectY0 (w : Word) : Nat := fld w 8 7
/-- X1. -/
def rectX1 (w : Word) : Nat := fld w 16 7
/-- Y1. -/
def rectY1 (w : Word) : Nat := fld w 24 7

/-- A logical core lies in a rectangle (R60). -/
def inRect (w : Word) (l : Nat) : Bool :=
  l < 16384 && rectX0 w ≤ coreX l && coreX l ≤ rectX1 w && rectY0 w ≤ coreY l && coreY l ≤ rectY1 w

/-- The logical cores of a rectangle in ascending order. -/
def rectCores (w : Word) : NumSet :=
  let xs := rangeFrom (rectX0 w) (rectX1 w + 1 - rectX0 w)
  let ys := rangeFrom (rectY0 w) (rectY1 w + 1 - rectY0 w)
  (ys.flatMap (fun y => xs.map (fun x => coreAt x y))).foldl addNum []

/-- The states that count as enabled (R66). -/
def RState.enabled : RState → Bool
  | .free => false
  | .staged => false
  | .saved => false
  | _ => true

/-- The states in which a region's cores complete slots. -/
def RState.executes : RState → Bool
  | .running => true
  | .tideline => true
  | .ebbing => true
  | .slack => true
  | _ => false

/-- The enabled region that holds a logical core. -/
def State.regionOf (s : State) (l : Nat) : Option Nat :=
  ((s.regions.filter (fun e => e.2.state.enabled && inRect e.2.rect l)).head?).map Prod.fst

/-- The state of the enabled region that holds a core; FREE in none. -/
def State.coreRState (s : State) (l : Nat) : RState :=
  match s.regionOf l with
  | some r => (s.region r).state
  | none => .free

/-! ## Scalar registers and instruction memory (R96, R97, R112) -/

/-- Reads a scalar register: s0 is zero. -/
def Core.getS (c : Core) (r : BitVec 5) : Word := if r = 0 then 0 else look c.sregs r.toNat 0

/-- Writes a scalar register: a write to s0 is discarded. -/
def Core.setS (c : Core) (r : BitVec 5) (v : Word) : Core :=
  if r = 0 then c else { c with sregs := put c.sregs r.toNat v }

/-- The instruction word at an address of a bank. -/
def Core.imem (c : Core) (bank : Bool) (a : Nat) : Word := look (if bank then c.imem1 else c.imem0) a 0

/-- Writes an instruction word. -/
def Core.setImem (c : Core) (bank : Bool) (a : Nat) (w : Word) : Core :=
  if bank then { c with imem1 := put c.imem1 a w } else { c with imem0 := put c.imem0 a w }

/-! ## Stream queues (R68 to R71, R73, R77, R78) -/

/-- The queue is in use. -/
def StreamQueue.bound (q : StreamQueue) : Bool := bit q.cfg 31
/-- PEER_Q of a configuration word. -/
def peerQ (w : Word) : Nat := fld w 16 3
/-- PEER_CORE of a configuration word. -/
def peerCore (w : Word) : Nat := fld w 0 14
/-- SIZE of a spill word. -/
def spillSize (w : Word) : Nat := fld w 0 15

/-- Present occupancy, buffer plus spill. -/
def StreamQueue.occ (q : StreamQueue) : Nat := q.buf.length + q.spill.length

/-- First line and length of the spill area of a word of CORE_SQ_SPILL. -/
def areaOf (w : Word) : Nat × Nat := (fld w 32 15, spillSize w)

/-- The spill area in force (R70, R78): the old one until the tideline has left; the old one, which takes no entry, while
entries remain in it; then the new one. -/
def StreamQueue.area (q : StreamQueue) : Nat × Nat :=
  match q.oldCfg, q.oldSpill with
  | some _, some w => areaOf w
  | some _, none => areaOf q.spillCfg
  | none, some w => ((areaOf w).1, 0)
  | none, none => areaOf q.spillCfg

/-- Spill entries the queue may take now. -/
def StreamQueue.spillRoom (q : StreamQueue) : Nat := q.area.2

/-- The line of the spill tail (R70): the areas' lines are taken in turn. -/
def StreamQueue.tailLine (q : StreamQueue) : Nat :=
  match q.spill.getLast? with
  | none => q.area.1
  | some x => q.area.1 + (x.line + 1 - q.area.1) % Nat.max 1 q.area.2

/-- Room for `k` more entries in buffer and spill together (R70). -/
def StreamQueue.roomFor (q : StreamQueue) (k : Nat) : Bool := q.occ + k ≤ Config.sqEntries + q.spillRoom

/-- The queue's occupancy has changed: HWM and the deadlock watch (R81, R84). -/
def StreamQueue.noted (q : StreamQueue) : StreamQueue := { q with hwm := Nat.max q.hwm q.occ, moved := true }

/-- First entry of a phase in a buffer, with the entries before it. -/
def firstOfPhase (ph : Bool) : List Entry → Option (List Entry × Entry × List Entry)
  | [] => none
  | e :: t =>
    if e.phase == ph then some ([], e, t)
    else (firstOfPhase ph t).map (fun r => (e :: r.1, r.2.1, r.2.2))

/-- The entry at the head of an input queue for its consumer (R77), a tideline included. -/
def StreamQueue.head (q : StreamQueue) (ph : Bool) : Option Entry := (firstOfPhase ph q.buf).map (fun r => r.2.1)

/-- An entry can be delivered: its phase is the core's and it is no tideline (R75, R77). -/
def StreamQueue.ready (q : StreamQueue) (ph : Bool) : Bool :=
  match q.head ph with
  | some e => !e.tide
  | none => false

/-- A buffer or spill entry of an input queue is freed: the credit granted for it may be granted again (R69). -/
def StreamQueue.freeCredit (q : StreamQueue) (ph : Bool) : StreamQueue :=
  if ph then { q with out1 := q.out1 - 1 } else { q with out0 := q.out0 - 1 }

/-- Removes the head entry of the core's phase. -/
def StreamQueue.pop (q : StreamQueue) (ph : Bool) : Option (Entry × StreamQueue) :=
  match firstOfPhase ph q.buf with
  | some (a, e, b) => if e.tide then none else some (e, ({ q with buf := a ++ b, moved := true }).freeCredit ph)
  | none => none

/-- Queue n of a core. -/
def Core.queue (c : Core) (n : Nat) : StreamQueue := (c.sq[n]?).getD {}

/-- Writes queue n of a core. -/
def Core.setQueue (c : Core) (n : Nat) (q : StreamQueue) : Core := { c with sq := c.sq.setIfInBounds n q }

/-- The entry that a line of core l's slice holds for a queue (R70). -/
def State.spillEntry (s : State) (l : Nat) (x : SpillLine) : Entry :=
  let a := sliceBase l + 128 * x.line
  { data := BitVec.ofNat 1024 (ofBytes (getBytes s.mem a 128)), marks := s.lineMarks a, phase := x.phase, tide := x.tide }

/-- The spilled entries of queue n of core l, oldest first. -/
def State.spilled (s : State) (l n : Nat) : List Entry := ((s.core l).queue n).spill.map (s.spillEntry l)

/-- Writes an entry to the spill tail of queue n (R70). -/
def State.toSpill (s : State) (l n : Nat) (e : Entry) : State :=
  let c := s.core l
  let q := c.queue n
  (s.setCore l (c.setQueue n { q with spill := q.spill ++ [⟨q.tailLine, e.phase, e.tide⟩] })).writeMem
    (sliceBase l + 128 * q.tailLine) e.bytes

/-- The oldest spilled entry of queue n returns to its buffer (R70); with the last entry of an old area the new one takes
effect (R78). -/
def State.unspill (s : State) (l n : Nat) : State :=
  let c := s.core l
  let q := c.queue n
  match q.spill with
  | [] => s
  | x :: t => s.setCore l (c.setQueue n { q with
      buf := q.buf ++ [s.spillEntry l x], spill := t, moved := true,
      oldSpill := if t.isEmpty && q.oldCfg.isNone then none else q.oldSpill })

/-- The spilled entries that return to the buffer before an entry joins a queue: all that an old area holds (R78), the oldest
where the area is full (R70). -/
def StreamQueue.returning (q : StreamQueue) : Nat :=
  if q.oldCfg.isNone && q.oldSpill.isSome then q.spill.length else if q.spillRoom ≤ q.spill.length then 1 else 0

/-- The lines of the slice that an output queue reads and writes as an entry joins it (R70). -/
def StreamQueue.pushLines (q : StreamQueue) : List Nat :=
  let back := q.spill.take q.returning
  let left := { q with buf := q.buf ++ back.map (fun _ => ({} : Entry)), spill := q.spill.drop q.returning }
  back.map SpillLine.line ++
    (if left.spill.isEmpty && (left.buf.length < Config.sqEntries || q.spillRoom = 0) then [] else [left.tailLine])

/-- Appends an entry to queue n, in arrival order (R70): to the buffer while nothing is spilled and it has room; while an old
spill area drains, behind its entries as they return (R78); else to the spill tail, the oldest spilled entry returning first
where the area is full and the buffer is not. -/
def State.push (s : State) (l n : Nat) (e : Entry) : State :=
  let q := (s.core l).queue n
  let s :=
    if q.oldCfg.isNone && q.oldSpill.isSome then (List.range q.spill.length).foldl (fun (t : State) _ => t.unspill l n) s
    else if q.spillRoom ≤ q.spill.length then s.unspill l n
    else s
  let c := s.core l
  let q := c.queue n
  let s :=
    if q.spill.isEmpty && (q.buf.length < Config.sqEntries || q.spillRoom = 0) then
      s.setCore l (c.setQueue n { q with buf := q.buf ++ [e] })
    else s.toSpill l n e
  s.setCore l ((s.core l).setQueue n ((s.core l).queue n).noted)

/-- Generator g of a core. -/
def Core.gen (c : Core) (g : Nat) : AddrGen := (c.ag[g]?).getD {}

/-- Writes generator g of a core. -/
def Core.setGen (c : Core) (g : Nat) (a : AddrGen) : Core := { c with ag := c.ag.setIfInBounds g a }

/-- DMA channel of a core. -/
def Core.chan (c : Core) (ch : Nat) : DmaChannel := (c.dma[ch]?).getD {}

/-- Writes a DMA channel of a core. -/
def Core.setChan (c : Core) (ch : Nat) (d : DmaChannel) : Core := { c with dma := c.dma.setIfInBounds ch d }

/-- Unit u's counters. -/
def Core.unit (c : Core) (u : Nat) : UnitCount := (c.units[u]?).getD {}

/-- Writes unit u's counters, unless FREEZE holds them (R84). -/
def Core.setUnit (c : Core) (u : Nat) (v : UnitCount) : Core :=
  if c.freeze then c else { c with units := c.units.setIfInBounds u v }

/-! ## Address generator fields (R187) -/

/-- EN. -/
def AddrGen.en (a : AddrGen) : Bool := bit a.ctrl 31
/-- DIR: true for WRITE. -/
def AddrGen.writes (a : AddrGen) : Bool := bit a.ctrl 30
/-- MODE: true for INDEX. -/
def AddrGen.indexed (a : AddrGen) : Bool := bit a.ctrl 29
/-- IDXR. -/
def AddrGen.indexer (a : AddrGen) : Bool := bit a.ctrl 28
/-- ENTRY. -/
def AddrGen.entryStream (a : AddrGen) : Bool := bit a.ctrl 27
/-- AHEAD. -/
def AddrGen.ahead (a : AddrGen) : Nat := fld a.ctrl 23 4
/-- TDIM. -/
def AddrGen.tdim (a : AddrGen) : Nat := fld a.ctrl 20 3
/-- SLOT. -/
def AddrGen.slotCode (a : AddrGen) : Nat := fld a.ctrl 17 3
/-- ISRC. -/
def AddrGen.isrc (a : AddrGen) : Nat := fld a.ctrl 13 4
/-- WQ. -/
def AddrGen.wq (a : AddrGen) : Nat := fld a.ctrl 9 3
/-- RUN. -/
def AddrGen.run (a : AddrGen) : Nat := fld a.dim0 0 17

/-- A tile of an indexer whose indices its consumer may have to take again (R210), after its last entry has gone. -/
def AddrGen.passedTile (a : AddrGen) (x : GenTile) : List GenTile :=
  if a.indexer then a.hist ++ [{ x with n := a.deq + 1 }] else a.hist

/-- Removes the oldest delivered entry of a fetch queue and counts it against its tile (R195, R212). -/
def AddrGen.dequeue (a : AddrGen) : Option (Entry × AddrGen) :=
  match a.fq with
  | [] => none
  | e :: t =>
    let a := { a with fq := t }
    match a.left with
    | [] => some (e, a)
    | x :: ns =>
      if x.n ≤ 1 then
        some (e, { a with left := ns, deq := 0, told := if x.last then 0 else a.told + 1, tilesDone := a.tilesDone + 1,
                          hist := a.passedTile x })
      else some (e, { a with left := { x with n := x.n - 1 } :: ns, deq := a.deq + 1 })

/-- A slot that a fetch pass or a DMA chain waits for has come; a core whose results are all visible, or that has faulted,
has none left to wait for (R196, R201; log 124). -/
def Core.reached (c : Core) (due : Nat) : Bool := due ≤ c.slot || (c.ended && c.pend.isEmpty) || c.faulted

/-- A source code of R131 can be dequeued now. -/
def Core.sourceReady (c : Core) (code : Nat) : Bool :=
  if code < 8 then (c.queue code).ready c.phase
  else if code < 12 then !(c.gen (code - 8)).fq.isEmpty
  else false

/-- Dequeues one entry from a source code of R131. -/
def Core.takeFrom (c : Core) (code : Nat) : Option (Entry × Core) :=
  if code < 8 then (c.queue code).pop c.phase |>.map (fun r => (r.1, c.setQueue code r.2))
  else if code < 12 then (c.gen (code - 8)).dequeue |>.map (fun r => (r.1, c.setGen (code - 8) r.2))
  else none

/-- A WRITE generator of the core takes its entries from this input queue (R191). -/
def Core.isWq (c : Core) (n : Nat) : Bool :=
  (List.range 4).any (fun g => (c.gen g).en && (c.gen g).writes && (c.gen g).wq == n)

/-- An indexed generator takes its indices from this input queue (R190). -/
def Core.isIndexQ (c : Core) (n : Nat) : Bool :=
  (List.range 4).any (fun g => (c.gen g).en && (c.gen g).indexed && (c.gen g).isrc == n + 8)

/-- A source code names a queue an instruction may dequeue (R136, R165, R186, R191). -/
def Core.sourceLegal (c : Core) (code : Nat) : Bool :=
  if code < 8 then (c.queue code).bound && !c.isWq code
  else if code < 12 then
    let a := c.gen (code - 8)
    a.en && !a.indexer && !a.writes
  else false

/-! ## Storage of the compute unit (R132, R159, R160) -/

/-- An accumulator line is poisoned, or reading it meets an uncorrectable error (R132). -/
def Core.accBad (c : Core) (line : Nat) : Bool := c.accMarks.contains line || c.accErr.contains line

/-- A block of a vector register is poisoned, or reading it meets an uncorrectable error (R160). -/
def Core.vregBad (c : Core) (k : Nat) : Bool := c.vregMarks.contains k || c.vregErr.contains k

/-- A granule of the operand cache is poisoned, or reading it meets an uncorrectable error (R160). -/
def Core.cacheBad (c : Core) (k : Nat) : Bool := c.cacheMarks.contains k || c.cacheErr.contains k

/-- The first n bits of a register taken from a new value, the others kept. -/
def lowBits (n old new : Nat) : Nat := old / 2 ^ n * 2 ^ n + new % 2 ^ n

/-- A plane after a load (R127): the registers and poison bits of the rows below K_len and the columns below M_len take the
load's values, those of an MX format their scales too; the masked ones keep theirs. -/
def Plane.loaded (old new : Plane) : Plane :=
  let bits := new.mLen * elemBits new.fmt.toNat
  let blocks := ceilDiv new.mLen 32
  let mx := isMx new.fmt.toNat
  { new with
    rows := (List.range new.kLen).foldl (fun t k =>
      put t k (BitVec.ofNat 512 (lowBits bits (look t k (0 : BitVec 512)).toNat (look new.rows k 0).toNat))) old.rows
    rowMarks := (List.range new.kLen).foldl (fun t k =>
      (List.range blocks).foldl (fun t j =>
        if new.rowMarks.contains (4 * k + j) then addNum t (4 * k + j) else dropNum t (4 * k + j)) t) old.rowMarks
    scales := if mx then BitVec.ofNat 1024 (lowBits (8 * new.mLen) old.scales.toNat new.scales.toNat) else old.scales
    scaleMarks := if mx then BitVec.ofNat 8 (lowBits (2 * blocks) old.scaleMarks.toNat new.scaleMarks.toNat)
      else old.scaleMarks }

/-- One element of an accumulator line. -/
def Core.accElem (c : Core) (line j : Nat) : Nat := fld (look c.acc (line % 512) (0 : Line)) (32 * j) 32

/-- Replaces elements of an accumulator line and its poison bit. -/
def Core.setAcc (c : Core) (line : Nat) (vals : List (Nat × Nat)) (bad : Bool) : Core :=
  let l := line % 512
  let old := (look c.acc l (0 : Line)).toNat
  let new := vals.foldl (fun w v =>
    let sh := 32 * v.1
    w - ((w >>> sh) % 2 ^ 32) <<< sh + (v.2 % 2 ^ 32) <<< sh) old
  { c with acc := put c.acc l (BitVec.ofNat 1024 new),
           accMarks := if bad then addNum c.accMarks l else dropNum c.accMarks l }

/-- Replaces `wid` bits at a bit position of a byte memory. -/
def setBits (m : Memory) (pos wid v : Nat) : Memory :=
  let a := pos / 8
  let n := (pos % 8 + wid + 7) / 8
  let old := ofBytes (getBytes m a n)
  let sh := pos % 8
  let new := old - ((old >>> sh) % 2 ^ wid) <<< sh + (v % 2 ^ wid) <<< sh
  setBytes m a (toBytes n new)

/-- Reads `wid` bits at a bit position of a byte memory. -/
def getBits (m : Memory) (pos wid : Nat) : Nat :=
  (ofBytes (getBytes m (pos / 8) ((pos % 8 + wid + 7) / 8)) >>> (pos % 8)) % 2 ^ wid

/-! ## Slots (R39 to R43, R98, R106) -/

/-- Inserts a result in flight in order of visibility slot, then issue number (R98). -/
def insertPending (p : Pending) : List Pending → List Pending
  | [] => [p]
  | q :: t => if p.vis < q.vis || (p.vis == q.vis && p.iss < q.iss) then p :: q :: t else q :: insertPending p t

/-- Adds a result in flight. -/
def Core.addPending (c : Core) (p : Pending) : Core := { c with pend := insertPending p c.pend }

/-- Adds results in flight. -/
def Core.addPendings (c : Core) (ps : List Pending) : Core := ps.foldl Core.addPending c

/-- Of the next `k` slots, those in which unit u holds work (R84): an engine, from the slot after an issue to the end of
its occupancy; the fetch engine, while it has an instruction, a pass or a read; a channel, a chain; the packer, part of
a frame (DEDUCED, log 8). The tap counts where it bins (R185). -/
def Core.heldSlots (c : Core) (u k : Nat) : Nat :=
  let all := fun (b : Bool) => if b then k else 0
  match u with
  | 0 => k
  | 1 => Nat.min (c.slot + k) c.matTail - Nat.max c.slot c.matFrom
  | 2 => Nat.min (c.slot + k) c.vecTail - Nat.max c.slot c.vecFrom
  | 3 => all (!c.fetchQ.isEmpty || (List.range 4).any (fun g =>
      (c.gen g).cur.isSome || !(c.gen g).passes.isEmpty || !(c.gen g).tiles.isEmpty))
  | 4 => all (!(c.chan 0).chains.isEmpty)
  | 5 => all (!(c.chan 1).chains.isEmpty)
  | 6 => all (!c.pk.packIn.isEmpty)
  | _ => 0

/-- Of the next `k` slots, those in which each unit of 0 to 6 holds work. -/
def Core.heldUnits (c : Core) (k : Nat) : List Nat := (List.range 7).map (fun u => c.heldSlots u k)

/-- The BUSY counters take the slots given for each unit (R84). -/
def Core.addBusy (c : Core) (held : List Nat) : Core :=
  held.zipIdx.foldl (fun (d : Core) e =>
    d.setUnit e.2 { d.unit e.2 with busy := (d.unit e.2).busy + BitVec.ofNat 64 e.1 }) c

/-- `k` unstretched slots complete: CORE_SLOTS, CORE_REFBEATS and the BUSY counters (R41, R43, R84). -/
def Core.completeSlots (c : Core) (k : Nat) : Core :=
  let c := c.addBusy (c.heldUnits k)
  { c with slot := c.slot + k, refbeats := c.refbeats + k }

/-- `k` beats that advance no slot: stretch beats or ended beats, counted once in CORE_STALL_TOTAL (R41, R84, R117). -/
def Core.stallBeats (c : Core) (k : Nat) : Core :=
  { c with refbeats := c.refbeats + k, stallTotal := if c.freeze then c.stallTotal else c.stallTotal + k }

/-- `k` ended beats: counted in CORE_U_WEMPTY of the control core and the stall total (R117). -/
def Core.endedBeats (c : Core) (k : Nat) : Core :=
  (c.setUnit 0 { c.unit 0 with wempty := (c.unit 0).wempty + BitVec.ofNat 64 k }).stallBeats k

/-- Counts a stretch beat of one kind (R84): every unit that holds work in the stretched slot, and every unit that causes the
stretch, counts it once. -/
def Core.waitBeat (c : Core) (units : List Nat) (f : UnitCount → UnitCount) : Core :=
  if units.isEmpty then c
  else
    let held := c.heldUnits 1
    (List.range 8).foldl (fun (d : Core) u =>
      if held.getD u 0 ≠ 0 || units.contains u then d.setUnit u (f (d.unit u)) else d) c

/-- A stretch beat that a stream queue or a fetch queue causes (R41, R84). -/
def Core.blameQueue (c : Core) (code : Nat) : Core :=
  if code < 8 || 16 ≤ code then
    let n := if code < 8 then code else code - 8
    (if c.freeze then c else
      let q := c.queue n
      c.setQueue n { q with stall := q.stall + 1 })
  else
    let a := c.gen (code - 8)
    c.setGen (code - 8) { a with fqStall := a.fqStall + 1 }

/-- Bits that two ranges (first bit, length) share. -/
def overlap (a b : Nat × Nat) : Nat := Nat.min (a.1 + a.2) (b.1 + b.2) - Nat.max a.1 b.1

/-- Marks of the 256-bit granules a block's bit ranges touch (R179): a poisoned block marks each, a clean one clears
those it covers wholly. -/
def markGranules (t : NumSet) (bad : Bool) (ranges : List (Nat × Nat)) : NumSet :=
  let ks := ranges.foldl (fun k r => addNum (addNum k (r.1 / 256)) ((r.1 + r.2 - 1) / 256)) []
  if bad then ks.foldl addNum t
  else ks.foldl (fun t k =>
    if (ranges.map (overlap (k * 256, 256))).sum = 256 then dropNum t k else t) t

/-- The element codes of a place are written: vector registers, operand cache, accumulator file (R159, R160, R179, R180). -/
def Core.writeElems (c : Core) (p : Place) (fmt : Nat) (w : ElemWrite) : Core :=
  let blks := w.vals.foldl (fun t v => addNum t (v.1 / 32)) []
  match p with
  | .vreg r =>
    { c with
      vregs := w.vals.foldl (fun t v => put t (r * 4096 + v.1) (BitVec.ofNat 32 (v.2 % 2 ^ elemBits fmt))) c.vregs
      vregMarks := blks.foldl (fun t j =>
        if w.pois.contains j then addNum t (r * 128 + j) else dropNum t (r * 128 + j)) c.vregMarks }
  | .cache base =>
    let b := elemBits fmt
    { c with
      cache := w.vals.foldl (fun t v => setBits t (base * 8 + v.1 * b) b v.2) c.cache
      cacheMarks := blks.foldl (fun t j =>
        let es := (w.vals.filter (fun v => v.1 / 32 == j)).map Prod.fst
        let es := if w.packed then rangeFrom (32 * j) (es.getLastD 0 + 1 - 32 * j) else es
        markGranules t (w.pois.contains j) (es.map (fun e => (base * 8 + e * b, b)))) c.cacheMarks }
  | .acc line =>
    blks.foldl (fun (d : Core) j =>
      d.setAcc (line + j) ((w.vals.filter (fun v => v.1 / 32 == j)).map (fun v => (v.1 % 32, v.2)))
        (w.pois.contains j)) c
  | _ => c

/-- RGN_REQ. -/
def Region.reqWord (g : Region) : Word := flag64 12 g.reqValid ||| at64 0 12 g.reqTag.toNat

/-- The tag of a region's request, where one is valid. -/
def Region.tagNow (g : Region) : Option (BitVec 12) := if g.reqValid then some g.reqTag else none

end Sys2Proof.Machine
end

