-- ==== Sys2Proof/Machine/Log.lean ====
section
/-! DEFINITION. Machine/Log.lean: status, reason and record codes (R382, R383), the event log (R392) and the append
operation of the journal (R427). -/

namespace Sys2Proof.Machine

/-- A status, reason or record code. -/
abbrev Code := BitVec 16

/-- SUCCESS. -/
def stSuccess : Code := 0x0000
/-- UNKNOWN_OPCODE. -/
def stUnknownOpcode : Code := 0x1001
/-- BAD_FIELD. -/
def stBadField : Code := 0x1002
/-- BAD_BUFFER. -/
def stBadBuffer : Code := 0x1003
/-- BAD_STATE. -/
def stBadState : Code := 0x1004
/-- NOT_PRESENT. -/
def stNotPresent : Code := 0x1005
/-- TAG_BUSY. -/
def stTagBusy : Code := 0x1006
/-- BOOT_LONG. -/
def stBootLong : Code := 0x1007
/-- ADDR_ABSENT. -/
def stAddrAbsent : Code := 0x1008
/-- ADDR_ALIGN. -/
def stAddrAlign : Code := 0x1009
/-- ADDR_PROT. -/
def stAddrProt : Code := 0x100A
/-- IMEM_ACTIVE. -/
def stImemActive : Code := 0x100B
/-- HOST_BUFFER. -/
def stHostBuffer : Code := 0x100C
/-- CHECK_REFUSED. -/
def stCheckRefused : Code := 0x2001
/-- REGION_BUSY. -/
def stRegionBusy : Code := 0x2002
/-- REGION_STATE. -/
def stRegionState : Code := 0x2003
/-- ABORTED. -/
def stAborted : Code := 0x3001
/-- PROGRAM_FAULT. -/
def stProgramFault : Code := 0x3002
/-- REGION_DEADLOCK. -/
def stRegionDeadlock : Code := 0x3003
/-- REQ_TIMEOUT. -/
def stReqTimeout : Code := 0x3004
/-- TIER_TIMEOUT. -/
def stTierTimeout : Code := 0x4001
/-- TIER_POISON. -/
def stTierPoison : Code := 0x4002
/-- TIER_FAIL. -/
def stTierFail : Code := 0x4003
/-- POUR_TIMEOUT. -/
def stPourTimeout : Code := 0x5001
/-- POUR_DUP. -/
def stPourDup : Code := 0x5002
/-- EPOCH_STALE. -/
def stEpochStale : Code := 0x5003
/-- RESHARD_BUSY. -/
def stReshardBusy : Code := 0x5004
/-- RESHARD_FAIL. -/
def stReshardFail : Code := 0x5005
/-- CORE_LOST. -/
def stCoreLost : Code := 0x6001
/-- REPLACE_FAIL. -/
def stReplaceFail : Code := 0x6002
/-- DIGEST_MISMATCH. -/
def stDigestMismatch : Code := 0x7001
/-- CKPT_FAIL. -/
def stCkptFail : Code := 0x7002
/-- IMAGE_SIG. -/
def stImageSig : Code := 0x8001
/-- IMAGE_SLOT. -/
def stImageSlot : Code := 0x8002
/-- SIG_EXHAUSTED. -/
def stSigExhausted : Code := 0x8003
/-- STORE_FAIL. -/
def stStoreFail : Code := 0x8004
/-- FW_INTERNAL: an internal error of the firmware, which the model's firmware does not meet (log 114). -/
def stFwInternal : Code := 0xF001
/-- POLICY_CONFLICT record. -/
def rcPolicyConflict : Code := 0xE001
/-- DEADLOCK record. -/
def rcDeadlock : Code := 0xE002
/-- RNG_SKEW record. -/
def rcRngSkew : Code := 0xE003
/-- FAULT_RECORD. -/
def rcFault : Code := 0xE004
/-- TIER_RECORD. -/
def rcTier : Code := 0xE005
/-- TRANSIENT record. -/
def rcTransient : Code := 0xE006
/-- LASTING record. -/
def rcLasting : Code := 0xE007
/-- PORT_STATE record. -/
def rcPortState : Code := 0xE008
/-- EVT_LOG record. -/
def rcEvtLog : Code := 0xE009
/-- EVT_REFUSED record. -/
def rcEvtRefused : Code := 0xE00A
/-- HOST_TIME record. -/
def rcHostTime : Code := 0xE00B
/-- DONE_IDLE record. -/
def rcDoneIdle : Code := 0xE00C
/-- POUR_FAIL record. -/
def rcPourFail : Code := 0xE00D

/-- Reason codes of R383. -/
def rsRegionLimit : Nat := 0x1
/-- RECT_ORDER. -/
def rsRectOrder : Nat := 0x2
/-- REGION_OVERLAP. -/
def rsRegionOverlap : Nat := 0x3
/-- REGION_ABSENT. -/
def rsRegionAbsent : Nat := 0x4
/-- QUEUE_BINDING. -/
def rsQueueBinding : Nat := 0x5
/-- SPILL_RANGE. -/
def rsSpillRange : Nat := 0x6
/-- SCAN_RANGE. -/
def rsScanRange : Nat := 0x7
/-- DRAIN_MODE. -/
def rsDrainMode : Nat := 0x8
/-- STREAM_CFG. -/
def rsStreamCfg : Nat := 0x9
/-- STREAM_LAND. -/
def rsStreamLand : Nat := 0xA
/-- PACK_CFG. -/
def rsPackCfg : Nat := 0xB
/-- WDOG_RANGE. -/
def rsWdogRange : Nat := 0xC
/-- FLOOD_MISMATCH. -/
def rsFloodMismatch : Nat := 0xD
/-- IMAGE_FORMAT. -/
def rsImageFormat : Nat := 0xE
/-- STEEP_RANGE. -/
def rsSteepRange : Nat := 0x10
/-- BOUND_RANGE. -/
def rsBoundRange : Nat := 0x11
/-- SPRAY_CFG. -/
def rsSprayCfg : Nat := 0x12
/-- BAR_SET. -/
def rsBarSet : Nat := 0x13
/-- FBAR_CFG. -/
def rsFbarCfg : Nat := 0x14
/-- ARB_RANGE. -/
def rsArbRange : Nat := 0x15
/-- ARB_STARVE. -/
def rsArbStarve : Nat := 0x16
/-- PORT_CFG. -/
def rsPortCfg : Nat := 0x17
/-- POUR_CFG. -/
def rsPourCfg : Nat := 0x18
/-- RESHARD_TABLE. -/
def rsReshardTable : Nat := 0x19
/-- RING_CFG. -/
def rsRingCfg : Nat := 0x1A
/-- PLACE_LOC. -/
def rsPlaceLoc : Nat := 0x20
/-- POOL_FRAME. -/
def rsPoolFrame : Nat := 0x21

/-! ## Journal (R427, R429) -/

/-- Bytes of a journal half. -/
def halfBytes : Nat := 384 * 1048576

/-- CAL, FAULT, SLOT, BOOTSEL, SIGIDX, COUNTERS, EVENT, COMPACTED (R427). -/
def jkCal : BitVec 16 := 1
/-- FAULT. -/
def jkFault : BitVec 16 := 2
/-- SLOT. -/
def jkSlot : BitVec 16 := 3
/-- BOOTSEL. -/
def jkBootsel : BitVec 16 := 4
/-- SIGIDX. -/
def jkSigidx : BitVec 16 := 5
/-- COUNTERS. -/
def jkCounters : BitVec 16 := 6
/-- EVENT. -/
def jkEvent : BitVec 16 := 7
/-- COMPACTED. -/
def jkCompacted : BitVec 16 := 8

/-- Bytes a record of so many body words takes: header, body rounded up to 16, commit block. -/
def recordBytes (words : Nat) : Nat := 48 + ceilDiv (8 * words) 16 * 16

/-- Bytes that a half's header and records take (R426). -/
def usedBy (rs : List JournalRecord) : Nat := rs.foldl (fun n r => n + recordBytes r.body.length) 4096

/-- Bytes of the active half that writing a record takes: a failed program-verify moves it to the next free position (R428). -/
def Store.takes (st : Store) (words : Nat) : Nat :=
  if st.verifyWeak || st.verifyFails then 2 * recordBytes words else recordBytes words

/-- The active half has no room for records of so many body words: they wait for a compaction (R429). -/
def Store.full (st : Store) (ws : List Nat) : Bool := halfBytes < ws.foldl (fun n w => n + st.takes w) st.used

/-- Appends a record to the active half (R427 to R429): past 75 % a compaction is due; where the half is full it waits; where
its program-verify fails twice it does not exist, and a compaction is due. -/
def Store.append (st : Store) (kind : BitVec 16) (key : Nat) (body : List Word) : Store :=
  let used := st.used + st.takes body.length
  if st.full [body.length] then { st with waiting := st.waiting ++ [(kind, key, body)], compactDue := true }
  else if st.verifyFails then
    { st with used := used, compactDue := true
              unrecorded := if kind = jkFault then addNum st.unrecorded key else st.unrecorded }
  else
    { st with journal := st.journal ++ [⟨st.jseq, kind, key, body⟩], jseq := st.jseq + 1, used := used,
              compactDue := st.compactDue || halfBytes * 3 < used * 4
              unrecorded := if kind = jkFault then dropNum st.unrecorded key else st.unrecorded }

/-- Nemar's primary harts act: the module has power and is not halted (R404). -/
def State.managed (s : State) : Bool := s.plant.powerGood && s.host.state != .halted

/-- Appends a journal record; a halted module writes none (R404). -/
def State.journalAppend (s : State) (kind : BitVec 16) (key : Nat) (body : List Word) : State :=
  if s.host.state = .halted then s else { s with store := s.store.append kind key body }

/-- Writes a COUNTERS record (R427). -/
def State.recordCounters (s : State) : State :=
  s.journalAppend jkCounters 0 [BitVec.ofNat 64 s.store.powerOns, BitVec.ofNat 64 s.store.minutes,
    BitVec.ofNat 64 s.store.lifeTransient, BitVec.ofNat 64 s.store.lifeLasting]

/-! ## Firmware slots (R430) -/

/-- Slot i. -/
def Store.slot (st : Store) (i : Nat) : FwSlot := (st.slots[i]?).getD {}

/-- The version of slot i. -/
def Store.version (st : Store) (i : Nat) : Nat := (st.slot i).version.toNat

/-- Slot i's record says VALID. -/
def Store.valid (st : Store) (i : Nat) : Bool := ((st.slots[i]?).getD {}).state == 1

/-! ## Event log (R392) -/

/-- Codes whose every record has PERSIST = 1 (R392): LASTING, FAULT_RECORD, DEADLOCK, POLICY_CONFLICT, PORT_STATE,
RNG_SKEW, and the records of a lost core. -/
def persistCode (c : Code) : Bool :=
  c == rcLasting || c == rcFault || c == rcDeadlock || c == rcPolicyConflict || c == rcPortState || c == rcRngSkew ||
    c == stCoreLost

/-- A record's eight words (R392), as an EVENT body of the journal. -/
def LogRecord.words (r : LogRecord) : List Word :=
  let flags := b2n r.persist + 2 * b2n r.tagValid
  [BitVec.ofNat 64 r.seq, BitVec.ofNat 64 r.stamp,
   BitVec.ofNat 64 (r.code.toNat + r.srcKind.toNat <<< 16 + flags <<< 24 + r.srcId.toNat <<< 32),
   BitVec.ofNat 64 (r.tag.toNat + r.region.toNat <<< 16), r.w0, r.w1, r.w2, r.w3]

/-- What a record says beside its payload. -/
structure LogHead where
  code : Code
  srcKind : BitVec 8
  srcId : Nat
  tag : Option (BitVec 12) := none
  region : Nat := 0xFF
  persist : Bool := false
  deriving DecidableEq, Repr

/-- Appends a record to the event log, stamped with MOD_USEC; the oldest is dropped when the ring is full; a PERSIST
record is written to the journal too (R392, R427). Once the primary harts are gone nothing is logged (R404). -/
def State.logEvent (s : State) (h : LogHead) (w0 w1 w2 w3 : Word) : State :=
  if s.host.state = .halted then s else
  let r : LogRecord :=
    { seq := s.nemar.logNext, stamp := s.nemar.usec, code := h.code, srcKind := h.srcKind,
      persist := h.persist || persistCode h.code, tagValid := h.tag.isSome, srcId := BitVec.ofNat 32 h.srcId,
      tag := h.tag.getD 0, region := BitVec.ofNat 8 h.region, w0 := w0, w1 := w1, w2 := w2, w3 := w3 }
  let log := s.nemar.log ++ [r]
  let log := if Config.logRecords < log.length then log.drop 1 else log
  let s := { s with nemar := { s.nemar with log := log, logNext := s.nemar.logNext + 1 } }
  if r.persist then s.journalAppend jkEvent r.seq r.words else s

/-- Error kinds of TRANSIENT and LASTING records (R392). -/
def errCode : Nat := 0x01
/-- Zoinnath CRC. -/
def errZlCrc : Nat := 0x02
/-- CXL link. -/
def errCxl : Nat := 0x03
/-- stack ECC, direct. -/
def errStackDirect : Nat := 0x09
/-- stack ECC, object range. -/
def errStackObject : Nat := 0x0A
/-- self-test. -/
def errSelfTest : Nat := 0x0B
/-- probe unanswered. -/
def errProbe : Nat := 0x0C
/-- core self-check. -/
def errSelfCheck : Nat := 0x0D
/-- router self-check. -/
def errRouter : Nat := 0x0E
/-- management hart. -/
def errHart : Nat := 0x0F

/-- All ones. -/
def allOnes : Word := 0xFFFFFFFFFFFFFFFF

/-- Logs a TRANSIENT or LASTING record and counts it (R391, R392). -/
def State.logError (s : State) (lasting : Bool) (srcKind : BitVec 8) (srcId kind where_ : Nat) (beats : Word)
    (core : Option Nat) : State :=
  let w3 := match core with
    | some l => BitVec.ofNat 64 l
    | none => allOnes
  let s := s.logEvent { code := if lasting then rcLasting else rcTransient, srcKind := srcKind, srcId := srcId,
                        persist := kind == errHart }
    (BitVec.ofNat 64 kind) (BitVec.ofNat 64 where_) beats w3
  if lasting then { s with nemar := { s.nemar with lasting := BitVec.ofNat 16 (satInc 16 s.nemar.lasting.toNat) },
                           store := { s.store with lifeLasting := s.store.lifeLasting + 1 } }
  else { s with nemar := { s.nemar with transient := BitVec.ofNat 32 (satInc 32 s.nemar.transient.toNat) },
                store := { s.store with lifeTransient := s.store.lifeTransient + 1 } }

/-! ## Calibration values (R432, R434) -/

/-- A factory calibration value, within the range R432 checks: rate in Mbeat/s, offset in 0.01 °C, four taps, or a timing
parameter. -/
def factoryValue (kind key : Nat) : Word :=
  let w := Config.factoryCal kind key
  match kind with
  | 1 => BitVec.ofNat 64 (500 + w.toNat % 2001)
  | 2 => at64 0 16 ((w.toNat % 2001 + 64536) % 65536)
  | 3 => w &&& 0x3F3F3F3F
  | _ => w &&& 0xFFFFFFFF

/-- The calibration value of a kind and key: the user's, else the factory's. -/
def State.calValue (s : State) (kind key : Nat) : Word :=
  (find? s.store.cal (kind * 2 ^ 32 + key)).getD (factoryValue kind key)

/-- The values of a kind from a key on. -/
def State.calRun (s : State) (kind key n : Nat) : List Word := (rangeFrom key n).map (s.calValue kind)

end Sys2Proof.Machine
end

