-- ==== Sys2Proof/Machine/Flags.lean ====
section
/-! DEFINITION. Machine/Flags.lean: the element operations of the vector engine with the sticky flags they raise (R167,
R168), conversions (R169, R220 to R224), reductions (R177, R178), and the scalar compares of R101. -/

namespace Sys2Proof.Machine

/-- The code of 1 in a format of F, or of INT32. -/
def oneCode (code : Nat) : Nat :=
  match code with
  | 0x0 => 0x3F80
  | 0x1 => 0x3C00
  | 0xC => 1
  | _ => 0x3F800000

/-- A compare's result (R168). -/
def cmpCode (code : Nat) (b : Bool) : Nat := if b then oneCode code else 0

/-- Invalid when an operand signals. -/
def snanFlag (xs : List Fv) : BitVec 8 := if xs.any Fv.isSnan then flagInvalid else 0

/-- Invalid when an operand of an ordered compare is a NaN (IEEE 754). -/
def nanFlag (xs : List Fv) : BitVec 8 := if xs.any Fv.isNan then flagInvalid else 0

/-- a × b + c rounded once (VFMA). 0 × infinity + a quiet NaN is invalid, which IEEE 754 leaves to the implementation (DESIGN
CHOICE, log 153). -/
def fmaFv (a b c : Fv) : Fv × Bool :=
  let p := Fv.mul a b
  let s := Fv.add p.1 c
  (s.1, p.2 || s.2 || c.isSnan)

/-- Largest or smallest of two codes (R168): the operand itself, canonical NaN when either is a NaN. -/
def pickOp (isMax : Bool) (code a b : Nat) : Nat × BitVec 8 :=
  let x := decodeElem code a
  let y := decodeElem code b
  if x.isNan || y.isNan then (canonicalNan code, snanFlag [x, y])
  else
    let aWins := if x.lt y then !isMax else if y.lt x then isMax else if isMax then y.neg else x.neg
    (if aWins then a else b, 0)

/-- An element operation in F by opcode (R167, R168): result code and flags. `key` names the element for the model's
fallback free value. -/
def floatOp (op code key : Nat) (r : Rounding) (a b c : Nat) : Nat × BitVec 8 :=
  let f := floatFmt code
  let x := decodeElem code a
  let y := decodeElem code b
  match op with
  | 0xA0 => roundFv code r (Fv.add x y)
  | 0xA1 => roundFv code r (Fv.add x y.negate)
  | 0xA2 => roundFv code r (Fv.mul x y)
  | 0xA3 => roundFv code r (fmaFv x y (decodeElem code c))
  | 0xA4 => divOp code r x y
  | 0xA5 => sqrtOp code r x
  | 0xA6 => rsqrtOp code r x
  | 0xA7 => expOp false code key r x
  | 0xA8 => expOp true code key r x
  | 0xA9 => log2Op code key r x
  | 0xAA => tanhOp code key r x
  | 0xAB => pickOp true code a b
  | 0xAC => pickOp false code a b
  | 0xAD => (if x.isNan then canonicalNan code else a % 2 ^ (f.eb + f.fb), 0)
  | 0xAE => (if x.isNan then canonicalNan code else Nat.xor a (2 ^ (f.eb + f.fb)), 0)
  | 0xAF => (cmpCode code (x.lt y), nanFlag [x, y])
  | 0xB0 => (cmpCode code (x.le y), nanFlag [x, y])
  | 0xB1 => (cmpCode code (x.eqv y), snanFlag [x, y])
  | 0xB2 => (cmpCode code x.isFin, 0)
  | _ => (a, 0)

/-- An element operation on INT32 by opcode (R167, R168). -/
def intOp (op a b : Nat) : Nat :=
  let x := toSigned 32 (a % 2 ^ 32)
  let y := toSigned 32 (b % 2 ^ 32)
  let wrap : Int → Nat := fun v => (v % (2 ^ 32 : Nat)).toNat
  match op with
  | 0xA0 => wrap (x + y)
  | 0xA1 => wrap (x - y)
  | 0xAB => if x < y then b else a
  | 0xAC => if x < y then a else b
  | 0xAD => wrap (if x < 0 then -x else x)
  | 0xAE => wrap (-x)
  | 0xAF => b2n (x < y)
  | 0xB0 => b2n (x ≤ y)
  | 0xB1 => b2n (x = y)
  | _ => a

/-- A mask or select element is active: a bit other than the sign bit is 1 (R167). -/
def activeElem (code v : Nat) : Bool := v % 2 ^ (elemBits code - 1) ≠ 0

/-! ## Conversions -/

/-- An element's exact value under its block scale (R219, R223). -/
def decodeScaled (code scale v : Nat) : Fv :=
  if scale = 0xFF then .nan false else
  match decodeElem code v with
  | .fin n m e => .fin n m (e + (scale : Int) - 127)
  | x => x

/-- e_max of R221. -/
def emaxOf (code : Nat) : Int :=
  match code with
  | 0x4 => 8
  | 0x5 => 15
  | 0x6 => 4
  | 0x7 => 2
  | 0x9 => 2
  | _ => 0

/-- Largest magnitude of finite values. -/
def amaxOf : List Fv → Mag
  | [] => ⟨0, 1, 0⟩
  | .fin _ m e :: t => let y := amaxOf t; if y.lt ⟨m, 1, e⟩ then ⟨m, 1, e⟩ else y
  | _ :: t => amaxOf t

/-- The block scale VCVT chooses (R221, R222). -/
def chooseScale (code : Nat) (xs : List Fv) : Nat :=
  if xs.any (fun v => !v.isFin) then 0xFF
  else
    let a := amaxOf xs
    if a.num = 0 then 0
    else
      let x := a.ilog2 - emaxOf code + 127
      if x < 0 then 0 else if 254 < x then 254 else x.toNat

/-- Encodes one element of an MX block under its scale (R222), with the flags of R168 over the scaled value. MXINT8 has no
smallest normal (R213), so it meets no underflow (DEDUCED, log 50). -/
def encodeScaled (code scale : Nat) (r : Rounding) (v : Fv) : Nat × BitVec 8 :=
  if scale = 0xFF then (0, 0) else
  match v with
  | .fin neg m e =>
    let x : Mag := ⟨m, 1, e + 127 - (scale : Int)⟩
    if code = 0x8 then
      let top : Nat := if neg then 128 else 127
      let rr := if (⟨top, 1, -6⟩ : Mag).lt x then Rounding.nearest else r
      let (n, d) := x.inUnits (-6)
      let q := roundQuot rr n d
      let k := Nat.min top q
      (if neg then (256 - k) % 256 else k, if top < q then flagOverflow else 0)
    else
      let (c, fl) := roundTo (floatFmt code) r true x
      (signed (floatFmt code) neg c, fl)
  | _ => (0, 0)

/-- Converts outside the MX set to a format of R161 (R224), with the flags of R168. -/
def convertTo (code : Nat) (r : Rounding) (v : Fv) : Nat × BitVec 8 :=
  if code = 0x8 then encodeScaled code 127 r v
  else
    let f := floatFmt code
    match v with
    | .nan s => (f.nanCode.getD 0, if s then flagInvalid else 0)
    | _ => encodeFloat f r v

/-! ## Reductions -/

/-- One rounded block sum with its flags: invalid for infinities of both signs, overflow and underflow of the rounding. -/
def blockSumFlags (prods : List (Fv × Bool)) : Nat × BitVec 8 :=
  let vs := prods.map Prod.fst
  let inv := prods.any (fun p => p.2) || (vs.any (Fv.isInf true) && vs.any (Fv.isInf false))
  let rnd :=
    if vs.all Fv.isFin then
      let q := minExp vs
      let k := sumUnits q vs
      (encodeFloat fmtFp32 .nearest (.fin (k < 0) k.natAbs q)).2
    else 0
  (blockSum prods 0, (if inv then flagInvalid else 0) ||| rnd)

/-- The reference tree with its flags; `fuel` bounds the depth. -/
def refTreeFlags : Nat → List (Nat × BitVec 8) → Nat × BitVec 8
  | 0, _ => (0, 0)
  | k + 1, xs =>
    match xs with
    | [] => (0, 0)
    | [x] => x
    | _ =>
      let h := splitPoint xs.length
      let a := refTreeFlags k (xs.take h)
      let b := refTreeFlags k (xs.drop h)
      let s := Fv.add (ofFp32 a.1) (ofFp32 b.1)
      let e := encodeFloat fmtFp32 .nearest s.1
      (e.1, a.2 ||| b.2 ||| e.2 ||| (if s.2 then flagInvalid else 0))

/-- SUM or SUMSQ of elements of a format in F (R178): FP32 code and flags. -/
def sumKind (square : Bool) (code : Nat) (xs : List Nat) : Nat × BitVec 8 :=
  let vs := xs.map (fun v =>
    let x := decodeElem code v
    if square then Fv.mul x x else (x, x.isSnan))
  let bs := (blocks32 (xs.length + 1) vs).map blockSumFlags
  refTreeFlags (bs.length + 1) bs

/-- MAX, MIN or AMAX of elements of a format in F as an FP32 code; canonical NaN when any is a NaN (R177). -/
def pickKind (kind code : Nat) (xs : List Nat) : Nat × BitVec 8 :=
  let vs := xs.map (decodeElem code)
  if vs.any Fv.isNan then (0x7FC00000, snanFlag vs)
  else
    match kind with
    | 2 => (toFp32 (vs.foldl Fv.max (.inf true)), 0)
    | 3 => (toFp32 (vs.foldl Fv.min (.inf false)), 0)
    | _ => (toFp32 ((vs.map Fv.absVal).foldl Fv.max (.fin false 0 0)), 0)

/-- A reduction kind of R177 over elements and their block poison: the 64-bit word and flags. -/
def reduceKind (kind code : Nat) (xs : List (Nat × Bool)) : Word × BitVec 8 :=
  let vs := xs.map Prod.fst
  let word := fun (r : Nat × BitVec 8) => (BitVec.ofNat 64 r.1, r.2)
  match kind with
  | 0 => word (sumKind false code vs)
  | 1 => word (sumKind true code vs)
  | 2 =>
    if code = 0xC then
      (BitVec.ofInt 64 ((vs.map (toSigned 32)).foldl (fun m v => if m < v then v else m) (-(2 ^ 31 : Nat))), 0)
    else word (pickKind 2 code vs)
  | 3 =>
    if code = 0xC then
      (BitVec.ofInt 64 ((vs.map (toSigned 32)).foldl (fun m v => if v < m then v else m) (2 ^ 31 - 1)), 0)
    else word (pickKind 3 code vs)
  | 4 => word (pickKind 4 code vs)
  | 5 => (BitVec.ofNat 64 (vs.filter (fun v => code ≠ 0xC && !(decodeElem code v).isFin)).length, 0)
  | 6 => (BitVec.ofNat 64 (vs.filter (activeElem code)).length, 0)
  | _ => (BitVec.ofNat 64 ((blocks32 (xs.length + 1) xs).filter (fun b => b.any Prod.snd)).length, 0)

/-! ## FX48 (R171, R218) -/

/-- Master plus delta rounded once to FX48: the FP32 word, the low word, and flags. -/
def fxAdd (hi lo delta : Nat) : Nat × Nat × BitVec 8 :=
  let m := decodeFloat fmtFx48 (hi % 2 ^ 32 * 2 ^ 16 + lo % 2 ^ 16)
  let s := Fv.add m (ofFp32 delta)
  let e := encodeFloat fmtFx48 .nearest s.1
  (e.1 / 2 ^ 16, e.1 % 2 ^ 16, if s.2 then e.2 ||| flagInvalid else e.2)

/-! ## Scalar compares (R101) -/

/-- FLT: a < b as FP32, 0 for a NaN. -/
def scalarFlt (a b : Word) : Bool := (ofFp32 a.toNat).lt (ofFp32 b.toNat)

/-- FLE: a ≤ b as FP32, 0 for a NaN. -/
def scalarFle (a b : Word) : Bool := (ofFp32 a.toNat).le (ofFp32 b.toNat)

/-! ## Histogram bins (R181) -/

/-- The bin of an FP32 value for EBASE. -/
def histBin (ebase v : Nat) : Nat :=
  let e := Nat.max ebase 1
  let ex := v / 2 ^ 23 % 256
  let fr := v % 2 ^ 23
  if ex = 255 then (if fr = 0 then 62 else 63)
  else if ex = 0 then (if fr = 0 then 60 else 61)
  else if ex < e then 0 else Nat.min 59 ((ex - e) / 4)

end Sys2Proof.Machine
end

