-- ==== Sys2Proof/Machine/Operands.lean ====
section
/-! DEFINITION. Machine/Operands.lean: instruction words (R99), the fields a word must leave zero (R100, R464), the
causes of R119, and every operand form of the matrix and vector instructions (R131, R136, R151, R162 to R165). -/

namespace Sys2Proof.Machine

/-! ## Instruction words (R99) -/

/-- Format A. -/
def encA (op : BitVec 8) (f : FmtA) : Word := op ++ f.sd ++ f.sa ++ f.sb ++ f.z
/-- Format I. -/
def encI (op : BitVec 8) (f : FmtI) : Word := op ++ f.sd ++ f.sa ++ f.z ++ f.imm
/-- Format W. -/
def encW (op : BitVec 8) (f : FmtW) : Word := op ++ f.sd ++ f.z ++ f.imm
/-- Format B. -/
def encB (op : BitVec 8) (f : FmtB) : Word := op ++ f.sa ++ f.sb ++ f.z ++ f.target
/-- Format C. -/
def encC (op : BitVec 8) (f : FmtC) : Word := op ++ f.z1 ++ f.sa ++ f.z2 ++ f.kind ++ f.imm
/-- MLOAD (R135). -/
def encMload (f : FmtMload) : Word :=
  (0x80 : BitVec 8) ++ f.delay ++ f.sKM ++ f.isrc ++ f.ifmt ++ f.p ++ f.z
/-- MSTR and MSTRL (R135). -/
def encMstr (op : BitVec 8) (f : FmtMstr) : Word :=
  op ++ f.delay ++ f.sN ++ f.sB ++ f.wsrc ++ f.wssrc ++ f.wfmt ++ f.acc ++ f.accBase ++ f.depth ++ f.last ++ f.p ++
    f.sKM ++ f.isrc ++ f.ifmt
/-- MMA (R145). -/
def encMma (f : FmtMma) : Word :=
  (0x98 : BitVec 8) ++ f.delay ++ f.sC ++ f.sX ++ f.sL ++ f.wsrc ++ f.wssrc ++ f.isrc ++ f.wfmt ++ f.ifmt ++ f.dest ++
    f.accBase ++ f.oq ++ f.z
/-- Format V (R162). -/
def encV (op : BitVec 8) (f : FmtV) : Word :=
  op ++ f.delay ++ f.sN ++ f.opd ++ f.opa ++ f.opb ++ f.opc ++ f.fmt ++ f.aux ++ f.rnd ++ f.sS ++ f.tap ++ f.z
/-- FGO (R193). -/
def encFgo (f : FmtFgo) : Word := (0xD0 : BitVec 8) ++ f.delay ++ f.g ++ f.sOff ++ f.sCnt ++ f.z
/-- FSTOP (R193). -/
def encFstop (f : FmtFstop) : Word := (0xD1 : BitVec 8) ++ f.delay ++ f.g ++ f.z
/-- DMA (R201). -/
def encDma (f : FmtDma) : Word := (0xE0 : BitVec 8) ++ f.delay ++ f.ch ++ f.sD ++ f.z

/-- An opcode that R101 or an engine chapter assigns (R100). -/
def opcodeAssigned (op : Nat) : Bool :=
  op ≤ 0x19 || op == 0x20 || op == 0x21 || op == 0x28 || op == 0x29 || op == 0x2C || op == 0x2D ||
    (0x30 ≤ op && op ≤ 0x38) || (0x40 ≤ op && op ≤ 0x47) || (0x80 ≤ op && op ≤ 0x82) || op == 0x98 ||
    (0xA0 ≤ op && op ≤ 0xBB) || (0xC0 ≤ op && op ≤ 0xC2) || op == 0xC4 || op == 0xC5 || op == 0xC8 || op == 0xCC ||
    op == 0xD0 || op == 0xD1 || op == 0xE0

/-! ## Causes of a program fault (R119, R121) -/

/-- ILLEGAL. -/
def causeIllegal : Nat := 0x1
/-- IMEM_END. -/
def causeImemEnd : Nat := 0x2
/-- IMEM_BUSY. -/
def causeImemBusy : Nat := 0x3
/-- IMEM_ECC. -/
def causeImemEcc : Nat := 0x4
/-- LDST_RANGE. -/
def causeLdst : Nat := 0x5
/-- LCSR_RANGE. -/
def causeLcsr : Nat := 0x6
/-- ABSENT_UNIT. -/
def causeAbsent : Nat := 0x7
/-- TRAP. -/
def causeTrap : Nat := 0x8

/-- The first cause of a list of (present, cause) in the order of R119. -/
def firstCause : List (Bool × Nat) → Option Nat
  | [] => none
  | (b, k) :: t => if b then some k else firstCause t

/-! ## Matrix operands -/

/-- Class of a format code of R123: 0 16-bit, 1 8-bit, 2 4-bit. -/
def fmtClass (code : Nat) : Nat := if code ≤ 1 then 0 else if code = 9 then 2 else 1
/-- M_max of a format code (R123). -/
def mMax (code : Nat) : Nat := 32 * 2 ^ fmtClass code
/-- Lines per output row, w of R132. -/
def linesPerRow (code : Nat) : Nat := 2 ^ fmtClass code
/-- Weight rows per entry (R128). -/
def rowsPerEntry (code : Nat) : Nat := 1024 / (32 * elemBits code)
/-- A matrix format code is reserved (R123). -/
def matFmtBad (code : Nat) : Bool := 9 < code

/-- A load's lengths from sKM (R137). -/
def planeLoad (src : Nat) (fmt : BitVec 4) (km : Word) : PlaneLoad :=
  { src := src, fmt := fmt, kLen := Nat.min (fld km 0 8) 32, mLen := Nat.min (fld km 8 8) (mMax fmt.toNat) }

/-- MLOAD raises ILLEGAL (R136, R186). -/
def mloadIllegal (c : Core) (f : FmtMload) : Bool :=
  f.z ≠ 0 || matFmtBad f.ifmt.toNat || !c.sourceLegal f.isrc.toNat

/-- MSTR or MSTRL raises ILLEGAL (R136, R186). -/
def mstrIllegal (c : Core) (isLoad : Bool) (f : FmtMstr) : Bool :=
  matFmtBad f.wfmt.toNat || 1 < f.acc.toNat || !c.sourceLegal f.wsrc.toNat ||
    (isMx f.wfmt.toNat && !c.sourceLegal f.wssrc.toNat) ||
    (if isLoad then matFmtBad f.ifmt.toNat || !c.sourceLegal f.isrc.toNat
     else f.sKM ≠ 0 || f.isrc ≠ 0 || f.ifmt ≠ 0)

/-- MMA raises ILLEGAL (R151, R186); OQ is unused, and must be zero, where DEST is ACC (R100, R145). -/
def mmaIllegal (c : Core) (f : FmtMma) : Bool :=
  f.z ≠ 0 || matFmtBad f.wfmt.toNat || matFmtBad f.ifmt.toNat || fmtClass f.wfmt.toNat ≠ fmtClass f.ifmt.toNat ||
    1 < f.dest.toNat || !c.sourceLegal f.isrc.toNat || !c.sourceLegal f.wsrc.toNat ||
    (isMx f.wfmt.toNat && !c.sourceLegal f.wssrc.toNat) ||
    (if f.dest = 1 then !(c.queue (8 + f.oq.toNat)).bound else f.oq ≠ 0)

/-- Rounds up a logarithm to base 2. -/
def clog2 (n : Nat) : Nat := if n ≤ 1 then 0 else Nat.log2 (n - 1) + 1

/-- The walk an MMA makes (R146, R147). -/
def walkOf (f : FmtMma) (sx sl : Word) : Walk :=
  let mw := mMax f.ifmt.toNat
  let w := linesPerRow f.ifmt.toNat
  let nk := ceilDiv (fld sx 0 16) 32
  let lev := Nat.max 1 (clog2 nk)
  let nc := Nat.min 512 (512 / (w * lev))
  { k := Nat.min (fld sl 0 16) (fld sx 0 16), m := Nat.min (fld sl 16 16) (fld sx 16 16),
    n := Nat.min (fld sl 32 16) (fld sx 32 16), nkMax := nk, nmMax := ceilDiv (fld sx 16 16) mw,
    nnMax := ceilDiv (fld sx 32 16) nc, levels := lev, chunk := nc, mw := mw, wsrc := f.wsrc.toNat,
    wssrc := f.wssrc.toNat, isrc := f.isrc.toNat, wfmt := f.wfmt, ifmt := f.ifmt, base := f.accBase.toNat,
    oq := if f.dest = 1 then some f.oq else none }

/-- Run-time tile counts (R147). -/
def Walk.nk (w : Walk) : Nat := ceilDiv w.k 32
/-- nM of R147. -/
def Walk.nm (w : Walk) : Nat := ceilDiv w.m w.mw
/-- nN of R147. -/
def Walk.nn (w : Walk) : Nat := ceilDiv w.n w.chunk
/-- T of R147. -/
def Walk.tiles (w : Walk) : Nat := w.nmMax * w.nnMax * w.nkMax
/-- q: computed tiles. -/
def Walk.computed (w : Walk) : Nat := w.nm * w.nn * w.nk
/-- Rows of N-chunk ci. -/
def Walk.rows (w : Walk) (ci : Nat) : Nat := Nat.min w.chunk (w.n - w.chunk * ci)
/-- Skipped tiles after the last computed one, k_q of R152. -/
def Walk.tail (w : Walk) : Nat :=
  (w.nkMax - w.nk) + (w.nnMax - w.nn) * w.nkMax + (w.nmMax - w.nm) * w.nnMax * w.nkMax
/-- Slots of the streams of one M-tile (R152). -/
def Walk.perM (w : Walk) : Nat := (((List.range w.nn).map (fun ci => Nat.max (w.rows ci) 33)).sum) * w.nk
/-- Occupancy O_MMA (R152). -/
def Walk.occ (w : Walk) : Nat :=
  if w.computed = 0 then Nat.max w.tiles 1
  else
    let last := w.rows (w.nn - 1)
    33 + w.perM * w.nm - Nat.max last 33 + last + (w.tiles - w.computed)
/-- Slots from the end of the occupancy to V_C (R152). -/
def Walk.extra (w : Walk) : Nat := if w.computed = 0 then 0 else 11 - w.tail

/-! ## Vector operands -/

/-- F of R167. -/
def isF (code : Nat) : Bool := code == 0 || code == 1 || code == 0xA
/-- Every format of R161 but FX48. -/
def isMovable (code : Nat) : Bool := code ≤ 0xA || code == 0xC

/-- How an operand field is used: its element format and count, as a source or as a destination. -/
structure OperandUse where
  fmt : Nat
  n : Nat
  dest : Bool := false
  deriving DecidableEq, Repr

/-- What a vector opcode does with its fields (R162): accepted, the four operand uses, whether AUX and sS are used, whether
the operand A or D names a pool offset register, whether RND = 1 is permitted (R165). -/
structure VecUse where
  ok : Bool := true
  d : Option OperandUse := none
  a : Option OperandUse := none
  b : Option OperandUse := none
  c : Option OperandUse := none
  aux : Bool := false
  sS : Bool := false
  poolA : Bool := false
  poolD : Bool := false
  rounds : Bool := false
  lanes : Nat := 64
  depth : Nat := 8
  deriving DecidableEq, Repr

/-- The uses of each vector opcode (R165, R167, R169 to R171, R173 to R177, R182). The formats of VCOMPRESS and VEXPAND, those
that can be a mask, are a DESIGN CHOICE (log 118). W of a VRED is that of the format it reads, although its result is FP32: a
scalar register is no vector (DEDUCED, log 146). -/
def vecUse (op fmt aux n cols : Nat) : VecUse :=
  let s : Nat → OperandUse := fun k => ⟨fmt, k, false⟩
  let d : Nat → OperandUse := fun k => ⟨fmt, k, true⟩
  let tile := cols ≠ 0 && n % cols == 0
  let w := lanesOf fmt
  if op = 0xA0 || op = 0xA1 || op = 0xAB || op = 0xAC || op = 0xAF || op = 0xB0 || op = 0xB1 then
    { ok := isF fmt || fmt == 0xC, d := d n, a := s n, b := s n, lanes := w, depth := 6,
      rounds := (op == 0xA0 || op == 0xA1) && fmt ≤ 1 }
  else if op = 0xA2 || op = 0xA4 then
    { ok := isF fmt, d := d n, a := s n, b := s n, lanes := w, depth := 6, rounds := fmt ≤ 1 }
  else if op = 0xA3 then
    { ok := isF fmt, d := d n, a := s n, b := s n, c := s n, lanes := w, depth := 6, rounds := fmt ≤ 1 }
  else if 0xA5 ≤ op && op ≤ 0xAA then
    { ok := isF fmt, d := d n, a := s n, lanes := w, depth := 6, rounds := fmt ≤ 1 }
  else if op = 0xAD || op = 0xAE then
    { ok := isF fmt || fmt == 0xC, d := d n, a := s n, lanes := w, depth := 6 }
  else if op = 0xB2 then { ok := isF fmt, d := d n, a := s n, lanes := w, depth := 6 }
  else if op = 0xB3 then
    { ok := isMovable fmt, d := d n, a := s n, b := s n, c := s n, lanes := w, depth := 6 }
  else if op = 0xB4 then { ok := isMovable fmt, d := d n, a := s n, lanes := w, depth := 6 }
  else if op = 0xB5 then
    { ok := fmt ≤ 0xA && aux ≤ 0xA, d := some ⟨aux, n, true⟩, a := s n,
      b := if isMx fmt then some ⟨0x8, ceilDiv n 32, false⟩ else none,
      c := if isMx aux then some ⟨0x8, ceilDiv n 32, true⟩ else none,
      aux := true, lanes := Nat.min w (lanesOf aux), depth := 6,
      rounds := aux ≤ 9 && (aux ≠ fmt || isMx aux) }
  else if op = 0xB6 then { ok := isMovable fmt, d := d n, sS := true, lanes := w, depth := 6 }
  else if op = 0xB7 then { ok := fmt == 0xA || fmt == 0xC, d := d n, sS := true, lanes := w, depth := 6 }
  else if op = 0xB8 then { ok := fmt == 0xA, d := d n, sS := true, lanes := w, depth := 6 }
  else if op = 0xB9 then { ok := isMovable fmt, d := d n, poolA := true, lanes := w }
  else if op = 0xBA then { ok := isMovable fmt, a := s n, poolD := true, lanes := w }
  else if op = 0xBB then
    { ok := fmt == 0xB, d := some ⟨0xA, n, true⟩, a := some ⟨0xA, n, false⟩, b := some ⟨0x0, n, false⟩,
      c := some ⟨0xA, n, false⟩, lanes := 32, depth := 6 }
  else if op = 0xC0 || op = 0xC1 then
    { ok := tile && aux ≤ 5 && (isF fmt || (fmt == 0xC && aux ≠ 2 && aux ≠ 5)), d := d n, a := s n,
      b := s (if op = 0xC0 then cols else n / cols), aux := true, lanes := w, rounds := fmt ≤ 1 }
  else if op = 0xC2 then
    { ok := tile && aux ≤ 4 && (isF fmt || (fmt == 0xC && (aux == 2 || aux == 3))),
      d := some ⟨if fmt = 0xC then 0xC else 0xA, n / cols, true⟩, a := s n, aux := true, lanes := 64 }
  else if op = 0xC4 then
    { ok := isF fmt || fmt == 0xC, d := d n, a := s n, b := s n, sS := true, lanes := w }
  else if op = 0xC5 then
    { ok := (isF fmt || fmt == 0xC) && aux ≤ 1, d := d n, a := s n, b := s n, aux := true, lanes := w }
  else if op = 0xC8 then
    { ok := (if aux ≤ 1 || aux == 4 then isF fmt
             else if aux ≤ 3 then isF fmt || fmt == 0xC
             else aux ≤ 7 && isMovable fmt),
      a := s n, aux := true, sS := true, lanes := w, depth := 12 }
  else if op = 0xCC then { ok := fmt == 0, sS := true, lanes := 8 }
  else { ok := false }

/-- SPACE of an operand field (R163). -/
def spaceOf (o : BitVec 7) : Nat := fld o 5 2
/-- IDX of an operand field. -/
def idxOf (o : BitVec 7) : Nat := fld o 0 5

/-- Where an operand lies, its scalar register read now (R163). -/
def placeOf (c : Core) (o : BitVec 7) : Place :=
  match spaceOf o with
  | 0 => .vreg (idxOf o)
  | 1 => .cache (fld (c.getS (BitVec.ofNat 5 (idxOf o))) 0 19)
  | 2 => .acc (fld (c.getS (BitVec.ofNat 5 (idxOf o))) 0 9)
  | _ => .queue (fld o 0 4)

/-- An operand of an instruction of n elements raises ILLEGAL (R163, R165, R180, R186, R191). -/
def operandIllegal (c : Core) (insFmt n : Nat) (o : BitVec 7) (u : Option OperandUse) : Bool :=
  match u with
  | none => o ≠ 0
  | some u =>
    match placeOf c o with
    | .vreg r => 15 < r || 4096 < n
    | .cache base =>
      let size := Nat.max 1 (elemBits u.fmt / 8)
      base % size ≠ 0 || 0x80000 < base + ceilDiv (u.n * elemBits u.fmt) 8
    | .acc _ => insFmt ≠ 0xA || u.fmt ≠ 0xA
    | .queue q =>
      bit o 4 || (if u.dest then q < 8 || !(c.queue q).bound else !c.sourceLegal q)
    | _ => false

/-- Two used source operands name one queue (R165). -/
def sameSourceQueue (c : Core) (u : VecUse) (f : FmtV) : Bool :=
  let q : BitVec 7 → Option OperandUse → List Nat := fun o v =>
    match v, placeOf c o with
    | some w, .queue k => if w.dest then [] else [k]
    | _, _ => []
  let qs := q f.opa u.a ++ q f.opb u.b ++ q f.opc u.c
  !(qs.Nodup)

/-- Element count n and columns C of a vector instruction (R162). -/
def vecCount (c : Core) (f : FmtV) : Nat := fld (c.getS f.sN) 0 16
/-- C of R162. -/
def vecCols (c : Core) (f : FmtV) : Nat := fld (c.getS f.sN) 16 16

/-- The uses of a vector instruction's fields at its issue. -/
def vecUseOf (c : Core) (op : Nat) (f : FmtV) : VecUse :=
  vecUse op f.fmt.toNat f.aux.toNat (vecCount c f) (vecCols c f)

/-- The byte range of a VPLD, VPST or HFLUSH leaves the slice or is misaligned (R170, R182). -/
def poolRangeBad (off size len : Nat) : Bool := off % size ≠ 0 || Config.sliceBytes < off + len

/-- A vector instruction raises ILLEGAL (R100, R162, R165). -/
def vecIllegal (c : Core) (op : Nat) (f : FmtV) : Bool :=
  let u := vecUseOf c op f
  let n := vecCount c f
  let fm := f.fmt.toNat
  !u.ok || f.z ≠ 0 || (!u.aux && f.aux ≠ 0) || (f.rnd ≠ 0 && !u.rounds) ||
    (!u.sS && f.rnd = 0 && f.sS ≠ 0) || 16384 < n ||
    (if u.poolA then spaceOf f.opa ≠ 0 else operandIllegal c fm n f.opa u.a) ||
    (if u.poolD then spaceOf f.opd ≠ 0 else operandIllegal c fm n f.opd u.d) ||
    operandIllegal c fm n f.opb u.b || operandIllegal c fm n f.opc u.c || sameSourceQueue c u f ||
    ((op == 0xC0 || op == 0xC1 || op == 0xBB) && spaceOf f.opb = 3) ||
    (op == 0xCC && (f.sN ≠ 0 || f.tap ≠ 0))

/-- A vector instruction raises ABSENT_UNIT (R119, R183). -/
def vecAbsent (g : Grade) (op : Nat) (f : FmtV) : Bool := g == .s && (f.tap ≠ 0 || op == 0xCC)

/-- The pool byte offset a VPLD, VPST or HFLUSH names. -/
def vecPoolOff (c : Core) (op : Nat) (f : FmtV) : Nat :=
  if op = 0xB9 then (c.getS (BitVec.ofNat 5 (idxOf f.opa))).toNat
  else if op = 0xBA then (c.getS (BitVec.ofNat 5 (idxOf f.opd))).toNat
  else (c.getS f.sS).toNat

/-- A vector instruction raises LDST_RANGE (R170, R182). -/
def vecRange (c : Core) (op : Nat) (f : FmtV) : Bool :=
  if op = 0xB9 || op = 0xBA then
    poolRangeBad (vecPoolOff c op f) (Nat.max 1 (elemBits f.fmt.toNat / 8))
      (ceilDiv (vecCount c f * elemBits f.fmt.toNat) 8)
  else if op = 0xCC then poolRangeBad (vecPoolOff c op f) 8 528
  else false

/-- A used place, or none. -/
def placeIf (c : Core) (o : BitVec 7) (u : Option OperandUse) : Place := if u.isSome then placeOf c o else .none

/-- Every operand of the instruction is a vector register (R167). -/
def allVregs (ps : List Place) : Bool :=
  ps.all (fun p => match p with
    | .none => true
    | .vreg _ => true
    | _ => false)

/-- The instruction as it enters the vector queue, every scalar register read at issue (R163). -/
def vecOpOf (c : Core) (op : Nat) (f : FmtV) : VecOp :=
  let u := vecUseOf c op f
  { op := op, n := if op = 0xCC then 66 else vecCount c f, cols := vecCols c f,
    d := if u.poolD then .pool (vecPoolOff c op f) else placeIf c f.opd u.d,
    a := if u.poolA then .pool (vecPoolOff c op f) else placeIf c f.opa u.a,
    b := placeIf c f.opb u.b, c := placeIf c f.opc u.c, fmt := f.fmt.toNat, aux := f.aux.toNat, rnd := f.rnd = 1,
    sS := c.getS f.sS, sDst := f.sS, tap := f.tap = 1, w := u.lanes }

/-- Groups of work of a vector instruction: ⌈n ÷ W⌉. -/
def VecOp.groups (o : VecOp) : Nat := ceilDiv o.n o.w

/-- Depth D of R106 and R167. -/
def vecDepth (u : VecUse) (o : VecOp) : Nat :=
  if u.depth = 6 then (if allVregs [o.d, o.a, o.b, o.c] then 6 else 8) else u.depth

end Sys2Proof.Machine
end

