-- ==== Sys2Proof/Machine/CoreCsr.lean ====
section
/-! DEFINITION. Machine/CoreCsr.lean: a core's CORE_ block from 0x1_0000 to 0x1_4FFF: what each register reads as, and
what a write of the core's own SCSR does (R84, R102, R121, R142, R157, R184, R187, R212, R241, R286, R294, R306, R315,
R335), with the pour and arbiter operations such a write starts. -/

namespace Sys2Proof.Machine

/-! ## DMA descriptors as they stand in a slice (R202) -/

/-- A descriptor's words. -/
structure Desc where
  w0 : Word
  w1 : Word
  w2 : Word
  w3 : Word
  w4 : Word
  w5 : Word
  w6 : Word
  deriving DecidableEq, Repr

/-- Reads the descriptor at a byte address. -/
def readDesc (m : Memory) (a : Nat) : Desc :=
  ⟨getWord m a, getWord m (a + 8), getWord m (a + 16), getWord m (a + 24), getWord m (a + 32), getWord m (a + 40),
   getWord m (a + 48)⟩

/-- OWN. -/
def Desc.own (d : Desc) : Bool := bit d.w0 63
/-- MODE: POSTED. -/
def Desc.isPosted (d : Desc) : Bool := bit d.w0 62
/-- OP. -/
def Desc.op (d : Desc) : Nat := fld d.w0 56 4
/-- LINK. -/
def Desc.link (d : Desc) : Bool := bit d.w1 16
/-- NEXT as a byte offset. -/
def Desc.next (d : Desc) : Nat := fld d.w1 0 16 * 64
/-- SRC. -/
def Desc.src (d : Desc) : Nat := fld d.w2 0 48
/-- DST. -/
def Desc.dst (d : Desc) : Nat := fld d.w3 0 48
/-- ROWS, 0 acting as 1. -/
def Desc.rows (d : Desc) : Nat := Nat.max 1 (fld d.w4 32 16)
/-- LEN. -/
def Desc.len (d : Desc) : Nat := fld d.w4 0 32
/-- SSTRIDE. -/
def Desc.sstride (d : Desc) : Int := toSigned 32 (fld d.w5 0 32)
/-- DSTRIDE. -/
def Desc.dstride (d : Desc) : Int := toSigned 32 (fld d.w5 32 32)

/-- The address of row r of one side, modulo 2^48. -/
def rowAddr (base : Nat) (stride : Int) (r : Nat) : Nat := addrOf ((base : Int) + (r : Int) * stride)

/-- First byte of a core's CORE_ block (R26). -/
def coreBlock (l : Nat) : Nat := 0x080800000000 + l * 0x20000

/-- A row of the destination touches a byte range. -/
def Desc.touches (d : Desc) (lo n : Nat) : Bool :=
  (List.range d.rows).any (fun r =>
    let a := rowAddr d.dst d.dstride r
    a < lo + n && lo < a + d.len)

/-- A descriptor of a chain, from an offset of a slice on, writes a byte range (R114); `fuel` bounds the chain by the
descriptors a slice can hold. -/
def chainTouches (m : Memory) (base lo n : Nat) : Nat → Nat → Bool
  | 0, _ => false
  | k + 1, off =>
    let d := readDesc m (base + off)
    d.own && (d.touches lo n || (d.link && chainTouches m base lo n k d.next))

/-- IMEM_PEND (R114, R121): an accepted chain of a core of the region still writes the core's inactive bank. -/
def State.imemPend (s : State) (l : Nat) : Bool :=
  let lo := coreBlock l + (if (s.core l).bank then 0 else 0x8000)
  let cores := match s.regionOf l with
    | some r => rectCores (s.region r).rect
    | none => [l]
  cores.any (fun k =>
    let c := s.core k
    [0, 1].any (fun ch => (c.chan ch).chains.any (fun x => chainTouches s.mem (sliceBase k) lo 0x8000 65536 x.1)))

/-! ## Reads -/

/-- CORE_CU_STATUS (R121). -/
def State.cuStatus (s : State) (l : Nat) : Word :=
  let c := s.core l
  at64 32 12 c.pc.toNat ||| flag64 31 c.bank ||| flag64 30 c.ended |||
    flag64 29 (c.waiting && c.slot < c.idleUntil) ||| flag64 28 c.faulted ||| flag64 27 (s.imemPend l) |||
    flag64 26 c.spoison ||| at64 0 16 c.evtLost.toNat

/-- CORE_EQ_OCC (R121). -/
def Core.eqOcc (c : Core) : Word :=
  at64 24 8 c.dmaQ.length ||| at64 16 8 c.fetchQ.length ||| at64 8 8 c.vecQ.length ||| at64 0 8 c.matQ.length

/-- CORE_ID (R121). -/
def State.coreId (s : State) (l : Nat) : Word :=
  at64 32 8 ((s.regionOf l).getD 0) ||| at64 24 7 (coreY l) ||| at64 16 7 (coreX l) ||| at64 0 14 l

/-- CORE_MAT_STATUS (R142). -/
def Core.matStatus (c : Core) : Word :=
  flag64 48 c.classErr ||| at64 40 8 c.plane1.mLen ||| at64 34 6 c.plane1.kLen ||| at64 30 4 c.plane1.fmt.toNat |||
    at64 16 8 c.plane0.mLen ||| at64 10 6 c.plane0.kLen ||| at64 6 4 c.plane0.fmt.toNat

/-- CORE_SEQ_POS (R157): ACTIVE while an MMA occupies the matrix array. -/
def Core.seqPosReg (c : Core) : Word :=
  setFld c.seqPos 63 1 (b2n (c.slot < c.walkEnd))

/-- CORE_BAR_STAT (R306). -/
def Core.barStat (c : Core) : Word := at64 32 16 c.barArr.toNat ||| at64 16 16 c.barRel.toNat ||| flag64 0 c.barFail

/-- CORE_POUR_STAT (R335). -/
def Core.pourStat (c : Core) : Word := at64 32 16 c.pourDone.toNat ||| at64 16 16 c.pourSent.toNat ||| flag64 0 c.pourFail

/-- AG status word (R212): a pass is in progress until its last tile is wholly dequeued (DEDUCED, log 52). -/
def AddrGen.stat (a : AddrGen) : Word :=
  at64 52 4 a.passes.length ||| flag64 51 a.gated ||| flag64 50 (a.cur.isSome || !a.left.isEmpty) ||| at64 32 16 a.deq ||| at64 0 32 a.told

/-- A generator's registers (R187, R212), by offset in its set. -/
def AddrGen.reg (a : AddrGen) (enabled : Bool) (o : Nat) : Word :=
  let st := fun (w : Word) => if enabled then w else 0
  match o with
  | 0x00 => a.ctrl
  | 0x08 => a.base
  | 0x10 => a.dim0
  | 0x18 => a.dims[0]
  | 0x20 => a.dims[1]
  | 0x28 => a.dims[2]
  | 0x30 => a.dims[3]
  | 0x38 => a.idx
  | 0x40 => a.land
  | 0x48 => st a.stat
  | 0x50 => st a.tilesDone
  | 0x58 => st a.errs
  | 0x60 => st a.late
  | 0x68 => st a.fqStall
  | _ => 0

/-- DMA channel status words (R212). -/
def DmaChannel.stat (d : DmaChannel) : Word :=
  at64 32 16 d.desc.toNat ||| flag64 31 d.busy ||| flag64 30 d.ownStop ||| flag64 29 d.abandoned ||| flag64 28 d.pfail |||
    at64 24 3 d.chains.length

/-- CORE_SQ_STAT (R84): the head of an input queue is that of its consumer, of an output queue the next entry to leave. -/
def Core.sqStat (c : Core) (n : Nat) : Word :=
  let q := c.queue n
  let tide := match (if n < 8 then q.head c.phase else q.buf.head?) with
    | some e => e.tide
    | none => false
  let old := 8 ≤ n && q.oldSpill.isSome
  let next := if n < 8 then (q.buf.filter (fun e => e.phase != c.phase)).length else 0
  at64 32 15 q.hwm ||| flag64 29 old ||| flag64 28 tide ||| at64 25 3 next ||| at64 0 15 q.occ

/-- Module coordinates of a physical core (R287). -/
def physPX (p : Nat) : Nat := physDie p % 4 * 34 + physColOf p
/-- PY. -/
def physPY (p : Nat) : Nat := physDie p / 4 * 32 + physRow p

/-- An attachment router (R300). -/
def isAttachment (p : Nat) : Bool :=
  let x := physPX p
  let y := physPY p
  let along := fun (v m : Nat) => let r := v % m; r == 2 || r == 10 || r == 18 || r == 26
  ((y == 0 || y == 127) && along x 34) || ((x == 0 || x == 135) && along y 32)

/-- A router's record. -/
def State.router (s : State) (p : Nat) : Router := look s.mesh.routers p {}

/-- PASS: the router's CU and MU are unpowered (R17, R294): a core fenced or ebbed around, on a die that is up a spare or a
core of a fused die, and a core switched off by an ebb drain (R86). -/
def State.routerPass (s : State) (p : Nat) : Bool :=
  (s.router p).pass || (s.plant.meshUp.contains (physDie p) && (!dieExists s.grade (physDie p) ||
    match s.logOf p with
    | none => true
    | some l => (s.core l).off))

/-- CORE_RT_CTRL (R294). -/
def State.rtCtrl (s : State) (p : Nat) : Word :=
  let r := s.router p
  flag64 7 (isAttachment p) ||| flag64 5 (s.routerPass p) ||| flag64 4 r.isolated ||| flag64 3 r.oldEmpty ||| flag64 2 r.epoch |||
    flag64 0 r.active

/-- A table word of a router: 16 four-bit entries of a bank's X or Y table (R294). -/
def Router.tableWord (r : Router) (bank : Nat) (isY : Bool) (w : Nat) : Word :=
  (List.range 16).foldl (fun acc i =>
    acc ||| at64 (4 * i) 4 (look r.table (bank * 512 + b2n isY * 256 + 16 * w + i) (0 : BitVec 4)).toNat) 0

/-- The router sub-block by offset from 0x1_2000. -/
def State.routerReg (s : State) (p o : Nat) : Word :=
  if o = 0 then s.rtCtrl p
  else if 0x100 ≤ o && o < 0x300 then
    let b := (o - 0x100) / 0x100
    let k := (o % 0x100) / 8
    if k < 9 then (s.router p).tableWord b false k
    else if k < 17 then (s.router p).tableWord b true (k - 9)
    else 0
  else 0

/-- Reset value of ARB_PRIO for arbiter a (R315). -/
def arbPrioReset (a : Nat) : Word := if a ≤ 15 then 0x611111112 else 0x611111111

/-- Requester classes of arbiter a (R310). -/
def arbClasses (a : Nat) : Nat :=
  if a ≤ 15 then 7 else if a ≤ 20 then 5 else if a = 21 then 6 else if a = 22 then 3 else 0

/-- The active ARB_PRIO word of arbiter a. -/
def Core.arbPrio (c : Core) (a : Nat) : Word := look c.arbActive a (arbPrioReset a)

/-- The priority of a parked request: its class's, or 3 once passed over by 2^AGE grants (R311, R315). -/
def arbRank (w : Word) (x : Nat × Nat) : Nat :=
  let age := fld w 32 4
  if age != 15 && 2 ^ age ≤ x.2 then 3 else fld w (4 * x.1) 2

/-- Index of the request granted next: the highest priority, the oldest among equals. -/
def arbPick (w : Word) (xs : List (Nat × Nat)) : Nat :=
  let best := xs.foldl (fun m x => Nat.max m (arbRank w x)) 0
  (xs.findIdx? (fun x => arbRank w x == best)).getD 0

/-- A request of class k that finds the resource busy is parked, or refused where the queue is full (R311, R313). -/
def Arbiter.park (x : Arbiter) (k : Nat) : Arbiter :=
  if x.parked.length < Config.arbPending then
    { x with parked := x.parked ++ [(k, 0)], hwm := Nat.max x.hwm (x.parked.length + 1) }
  else { x with refuse := BitVec.ofNat 16 (satInc 16 x.refuse.toNat) }

/-- A request of class k arrives. -/
def Arbiter.request (x : Arbiter) (k : Nat) : Arbiter :=
  if x.granted.isNone && x.parked.isEmpty then { x with granted := some k } else x.park k

/-- The resource frees: the pending queue is served. -/
def Arbiter.freed (x : Arbiter) (w : Word) : Arbiter :=
  match x.parked with
  | [] => { x with granted := none }
  | _ =>
    let i := arbPick w x.parked
    { x with granted := (x.parked[i]?).map Prod.fst, parked := (removeAt x.parked i).map (fun y => (y.1, y.2 + 1)) }

/-- A granted request is withdrawn: one beat serves no one. -/
def Arbiter.withdrawn (x : Arbiter) : Arbiter :=
  if x.granted.isSome then { x with granted := none, dead := BitVec.ofNat 16 (satInc 16 x.dead.toNat) } else x

/-- The ARB_ sub-block by offset from 0x1_3000 (R315). -/
def Core.arbReg (c : Core) (o : Nat) : Word :=
  if o < 8 * 23 then look c.arbActive (o / 8) (arbPrioReset (o / 8))
  else if o = 0x108 then
    flag64 32 c.arbRefused ||| at64 16 16 c.arbCommits.toNat ||| at64 0 16 c.arbReason.toNat
  else if 0x200 ≤ o && o < 0x200 + 8 * 23 then
    let a := look c.arbs ((o - 0x200) / 8) ({} : Arbiter)
    at64 32 16 a.dead.toNat ||| at64 16 16 a.refuse.toNat ||| at64 8 4 a.hwm ||| at64 0 4 a.parked.length
  else 0

/-- The pool bank of a byte address (R22). -/
def bankOf (a : Nat) : Nat := a / 128 % 16

/-- The arbiters a CU operand access to n bytes at an address of the own slice asks, with its class at each (R310): the CU
operand port, where the control core is class 0, the vector engine 1 and the tap 2; then the bank of every line. -/
def cuPorts (k a n : Nat) : List (Nat × Nat) :=
  (22, k) :: (rangeFrom (a / 128) ((a + n - 1) / 128 + 1 - a / 128)).map (fun ln => (bankOf (128 * ln), 0))

/-- How a CU operand access stands at its arbiters: granted at every one, and the arbiters and its parked places after. -/
structure CuAccess where
  ok : Bool
  arbs : Table Arbiter
  parked : NumSet
  deriving DecidableEq, Repr

/-- The key of a place of `Core.cuParked`. -/
def accessKey (u : Nat) (p : Nat × Nat) : Nat := (u * 8 + p.2) * 32 + p.1

/-- An arbiter as a request finds it: one whose last grant has ended has granted the next of its pending queue (R311). -/
def Arbiter.served (x : Arbiter) (w : Word) : Arbiter :=
  if x.granted.isNone && !x.parked.isEmpty then x.freed w else x

/-- One arbiter's answer to the access of a unit (R311, R313): an idle one grants it in this beat; one that has parked it
grants it when its turn comes; else it is parked, or refused to ask again at the next beat. `busy` names an arbiter whose
resource another access of this beat holds. -/
def CuAccess.ask (prio : Nat → Word) (busy : Nat → Bool) (u : Nat) (x : CuAccess) (p : Nat × Nat) : CuAccess :=
  let b := look x.arbs p.1 ({} : Arbiter)
  let b := if busy p.1 then b else b.served (prio p.1)
  let key := accessKey u p
  let here := x.parked.contains key
  if here && b.granted == some p.2 then { x with arbs := put x.arbs p.1 b }
  else if here && b.parked.any (fun y => y.1 == p.2) then { x with ok := false, arbs := put x.arbs p.1 b }
  else if b.granted.isNone && b.parked.isEmpty && !busy p.1 then x
  else
    let c := b.park p.2
    { ok := false, arbs := put x.arbs p.1 c
      parked := if b.parked.length < c.parked.length then addNum x.parked key else dropNum x.parked key }

/-- Releases the arbiters that held the access once it is made (R311). -/
def CuAccess.release (prio : Nat → Word) (u : Nat) (x : CuAccess) (p : Nat × Nat) : CuAccess :=
  if x.parked.contains (accessKey u p) then
    { x with arbs := put x.arbs p.1 ((look x.arbs p.1 ({} : Arbiter)).freed (prio p.1))
             parked := dropNum x.parked (accessKey u p) }
  else x

/-- The access of unit u to the arbiters `ps`: granted by all, and then done in this beat; or waiting. -/
def Core.access (c : Core) (busy : Nat → Bool) (u : Nat) (ps : List (Nat × Nat)) : CuAccess :=
  let x := ps.foldl (CuAccess.ask c.arbPrio busy u) { ok := true, arbs := c.arbs, parked := c.cuParked }
  if x.ok then ps.foldl (CuAccess.release c.arbPrio u) x else x

/-- The vector engine has used the CU operand port in the present beat, which serves one access a beat (R311). -/
def Core.portTaken (c : Core) : Bool := c.vecBeat == c.refbeats + 1

/-- A CU operand access of unit u to n bytes at an address (R311, R313): granted by the operand port and by every bank it
touches, and then done in this beat; or waiting. -/
def Core.cuAccess (c : Core) (u k a n : Nat) : CuAccess := c.access (fun p => p == 22 && c.portTaken) u (cuPorts k a n)

/-- The unit number under which the stream spill waits at its arbiters, beside the CU's 0 to 7. -/
def spillUnit : Nat := 8

/-- The access of the stream spill to lines of the slice: class 3 of the bank of each (R70, R310). -/
def Core.spillAccess (c : Core) (lines : List Nat) : CuAccess :=
  c.access (fun _ => false) spillUnit (lines.map (fun ln => (bankOf (128 * ln), 3)))

/-- The core after its access's turn at the arbiters. -/
def Core.arbitrated (c : Core) (x : CuAccess) : Core :=
  if c.arbs = x.arbs && c.cuParked = x.parked then c else { c with arbs := x.arbs, cuParked := x.parked }

/-- A parked or granted request is given up by its requester: a grant costs its beat (R312), a parked one leaves the queue. -/
def Arbiter.givenUp (x : Arbiter) (k : Nat) : Arbiter :=
  if x.granted == some k then x.withdrawn
  else match x.parked.findIdx? (fun y => y.1 == k) with
    | some i => { x with parked := removeAt x.parked i }
    | none => x

/-- The CU gives up the accesses that wait at its arbiters. -/
def Core.dropAccesses (c : Core) : Core :=
  { c with
    arbs := c.cuParked.foldl (fun t k => put t (k % 32) ((look t (k % 32) ({} : Arbiter)).givenUp (k / 32 % 8))) c.arbs
    cuParked := [] }

/-- The stall-counter sub-block by offset from 0x1_4000 (R84). -/
def Core.countReg (c : Core) (o : Nat) : Word :=
  if o < 0x100 then
    let u := c.unit (o / 0x20)
    match o % 0x20 with
    | 0x00 => u.busy
    | 0x08 => u.wempty
    | 0x10 => u.wfull
    | 0x18 => u.wbank
    | _ => 0
  else if o < 0x200 then
    if o % 0x10 = 0 then c.sqStat ((o - 0x100) / 0x10)
    else if o % 0x10 = 8 then (c.queue ((o - 0x100) / 0x10)).stall
    else 0
  else if o = 0x200 then BitVec.ofNat 64 c.stallTotal
  else if o = 0x208 then flag64 1 c.freeze
  else 0

/-- The CU sub-block by offset from 0x1_0000; the tap's registers read as zero on MV16-S (R183). -/
def State.cuReg (s : State) (l o : Nat) : Word :=
  let c := s.core l
  let tap := s.grade == .a
  match o with
  | 0x00 => s.cuStatus l
  | 0x08 => c.faultReg
  | 0x10 => BitVec.ofNat 64 c.slot
  | 0x18 => BitVec.ofNat 64 c.refbeats
  | 0x20 => c.eqOcc
  | 0x28 => BitVec.ofNat 64 c.faultSlot
  | 0x30 => s.coreId l
  | 0x40 => c.matStatus
  | 0x48 => c.seqPosReg
  | 0x50 => at64 0 8 c.vecStatus.toNat
  | 0x58 => if tap then c.htapCfg else 0
  | 0x60 => c.rngSeed
  | 0x68 => c.rngCtx
  | 0x70 => c.barStat
  | 0x88 => c.pourStat
  | 0x600 => if tap then at64 0 32 c.htapPois else 0
  | 0x608 => if tap then at64 0 32 c.htapInstr else 0
  | _ =>
    if 0x400 ≤ o && o < 0x600 && o % 8 = 0 && tap then at64 0 32 (look c.htapBins ((o - 0x400) / 8) 0) else 0

/-- The entry gate of a core's region is open (R211). -/
def State.gateOpen (s : State) (l : Nat) : Bool :=
  match s.regionOf l with
  | some r => (s.region r).gate
  | none => false

/-- The MU sub-block by offset from 0x1_1000. GATED shows while the gate is closed. -/
def State.muReg (s : State) (l o : Nat) : Word :=
  let c := s.core l
  let en := (s.regionOf l).isSome
  if o < 0x200 then
    let a := c.gen (o / 0x80)
    ({ a with gated := a.gated && !s.gateOpen l } : AddrGen).reg en (o % 0x80)
  else match o with
  | 0x200 => if en then (c.chan 0).stat else 0
  | 0x208 => if en then at64 32 32 (c.chan 0).nbad.toNat ||| at64 0 32 (c.chan 0).ndone.toNat else 0
  | 0x210 => if en then (c.chan 1).stat else 0
  | 0x218 => if en then at64 32 32 (c.chan 1).nbad.toNat ||| at64 0 32 (c.chan 1).ndone.toNat else 0
  | 0x300 => at64 0 10 c.rdl.toNat
  | 0x400 => c.pk.cfg
  | 0x408 => c.pk.pframes
  | 0x410 => c.pk.uframes
  | 0x418 => at64 32 32 c.pk.nanblk.toNat ||| at64 16 16 c.pk.short.toNat
  | 0x500 => c.ptMiss
  | 0x508 => c.ptRetry
  | 0x510 => c.steepMiss
  | _ =>
    if 0x800 ≤ o && o < 0x880 && o % 8 = 0 then (c.queue ((o - 0x800) / 8)).cfg
    else if 0x880 ≤ o && o < 0x900 && o % 8 = 0 then (c.queue ((o - 0x880) / 8)).spillCfg
    else 0

/-- A core's register at an offset of its CORE_ block; instruction memory reads as zero (R112), as do undefined offsets
(R26). -/
def State.coreReg (s : State) (l off : Nat) : Word :=
  if off < 0x10000 then 0
  else if off < 0x11000 then s.cuReg l (off - 0x10000)
  else if off < 0x12000 then s.muReg l (off - 0x11000)
  else if off < 0x13000 then s.routerReg (s.physOf l) (off - 0x12000)
  else if off < 0x14000 then (s.core l).arbReg (off - 0x13000)
  else if off < 0x15000 then (s.core l).countReg (off - 0x14000)
  else 0

/-! ## Arbiter commit (R316) -/

/-- A word of ARB_PRIO as it is kept: AGE, and two priority bits for each class. -/
def arbMask (v : Word) : Word := v &&& 0x0000000F33333333

/-- The check of R316 over (arbiter, word): AGE from 11 to 14; AGE 15 on a router output. -/
def arbCheck (ws : List (Nat × Word)) : Option Nat :=
  if ws.any (fun e => 11 ≤ fld e.2 32 4 && fld e.2 32 4 ≤ 14) then some rsArbRange
  else if ws.any (fun e => fld e.2 32 4 == 15 && 16 ≤ e.1 && e.1 ≤ 20) then some rsArbStarve
  else none

/-- Commits every ARB_PRIO of a core, or refuses the whole commit (R316). -/
def Core.arbCommit (c : Core) : Core :=
  match arbCheck c.arbShadow with
  | some r => { c with arbRefused := true, arbReason := BitVec.ofNat 16 r }
  | none =>
    { c with arbActive := c.arbShadow.foldl (fun t e => put t e.1 e.2) c.arbActive,
             arbCommits := c.arbCommits + 1, arbRefused := false, arbReason := 0 }

/-- A program's write of ARB_PRIO a: ignored for the router outputs (R315). -/
def Core.arbWrite (c : Core) (a : Nat) (v : Word) : Core :=
  if a ≤ 15 || a == 21 || a == 22 then { c with arbShadow := put c.arbShadow a (arbMask v) } else c

/-! ## Counters (R84) -/

/-- CLEAR: zeroes every counter and HWM of the stall-counter sub-block. -/
def Core.clearCounters (c : Core) : Core :=
  { c with units := Vector.replicate 8 {}, stallTotal := 0, sq := c.sq.map (fun q => { q with stall := 0, hwm := 0 }) }

/-! ## Pour start (R335) -/

/-- Egress reducers present (R4). -/
def reducers (g : Grade) : Nat :=
  match g with
  | .a => 4
  | .s => 2

/-- A pour slot's record. -/
def State.pourSlot (s : State) (k : Nat) : PourSlotState := look s.fabric.pours k {}

/-- Writes a pour slot's record. -/
def State.setPour (s : State) (k : Nat) (p : PourSlotState) : State :=
  { s with fabric := { s.fabric with pours := put s.fabric.pours k p } }

/-- A byte address in the pool or stack range (R24). -/
def inPoolOrStacks (a : Nat) : Bool := a < 0x1000000000 || (0x040000000000 ≤ a && a < 0x080000000000)

/-- A CORE_POUR write breaks a condition of R335. -/
def State.pourBad (s : State) (l : Nat) (v : Word) : Bool :=
  let k := fld v 53 10
  let n := reducers s.grade
  let p := s.pourSlot k
  256 * n ≤ k || !bit p.w0 63 || fld p.w0 0 13 ≤ fld v 41 12 || !inPoolOrStacks (fld v 0 41 * 128) ||
    16 ≤ (s.fabric.contribs.filter (fun c => c.core == l && !c.counted)).length ||
    1024 ≤ (s.fabric.contribs.filter (fun c => c.slot % n == k % n && !c.counted)).length

/-- Rounds of a slot this module has begun to contribute to. -/
def PourSlotState.roundsBegun (p : PourSlotState) : Nat := p.begun.foldl (fun m e => Nat.max m e.2) 0

/-- Rounds of a slot that are open or over, as this module knows: by its own contributions, by the folder's round in hand, by a
window granted that only lines of the round can have opened (R336). -/
def PourSlotState.roundsOpened (p : PourSlotState) : Nat :=
  Nat.max p.roundsBegun
    (if bit p.w0 62 then (if p.state == 1 then p.rnd + 1 else p.rnd) else if 2 < p.cwin then p.cround + 1 else p.cround)

/-- A re-shard in progress refuses a contribution that would open a new round under the epoch it ends; a round that any module
has opened goes on (R341). -/
def State.pourStale (s : State) (v : Word) : Bool :=
  let p := s.pourSlot (fld v 53 10)
  s.fabric.reshard.isSome && fld p.w0 32 16 == s.fabric.layout.toNat &&
    p.roundsOpened ≤ look p.begun (fld v 41 12) 0

/-- Logs POUR_FAIL for a core, with the tag of its region's request (R392). -/
def State.logPourFail (s : State) (l slot kappa status : Nat) : State :=
  let g := s.regionOf l
  let tag := match g with
    | some r => if (s.region r).reqValid then some (s.region r).reqTag else none
    | none => none
  s.logEvent { code := rcPourFail, srcKind := 0, srcId := l, tag := tag, region := g.getD 0xFF }
    (BitVec.ofNat 64 slot) (BitVec.ofNat 64 kappa) (BitVec.ofNat 64 status) 0

/-- A CORE_POUR write is refused (R335, R341). -/
def State.pourRefused (s : State) (l : Nat) (v : Word) : Bool := s.pourBad l v || s.pourStale v

/-- A write of CORE_POUR takes effect: a contribution starts, or is refused, sets FAIL and is logged (R335). -/
def State.pourStart (s : State) (l : Nat) (v : Word) : State :=
  let k := fld v 53 10
  let kap := fld v 41 12
  if s.pourRefused l v then
    let c := s.core l
    let why := if s.pourBad l v then 0 else stEpochStale.toNat
    (s.setCore l { c with pourFail := true }).logPourFail l k kap why
  else
    let p := s.pourSlot k
    let rd := look p.begun kap 0
    let s := s.setPour k { p with begun := put p.begun kap (rd + 1) }
    { s with fabric := { s.fabric with contribs := s.fabric.contribs ++
        [{ core := l, slot := k, kappa := kap, src := fld v 0 41, round := rd }] } }

/-! ## Writes (R102) -/

/-- A write to a register of the core's CU sub-block: W1C and RW fields; RO fields ignore it. -/
def Core.cuWrite (c : Core) (tap : Bool) (o : Nat) (v : Word) : Core :=
  match o with
  | 0x00 => if bit v 26 then { c with spoison := false } else c
  | 0x40 => if bit v 48 then { c with classErr := false } else c
  | 0x50 => { c with vecStatus := c.vecStatus &&& ~~~(BitVec.ofNat 8 v.toNat &&& 0xFC) }
  | 0x58 => if tap then { c with htapCfg := v &&& 0xF3 } else c
  | 0x60 => { c with rngSeed := v }
  | 0x68 => { c with rngCtx := v &&& 0x0000FFFFFFFFFFFF }
  | 0x70 => if bit v 0 then { c with barFail := false } else c
  | 0x88 => if bit v 0 then { c with pourFail := false } else c
  | _ => c

/-- A write of a register at an offset of 0x1_0000 to 0x1_4FFF of a core's block takes effect. The SC fields of the MU
sub-block take their values from section images only, so a write to them changes nothing (DEDUCED, log 9). -/
def State.coreWrite (s : State) (l off : Nat) (v : Word) : State :=
  let c := s.core l
  if off = 0x10080 then s.pourStart l v
  else if 0x10000 ≤ off && off < 0x11000 then s.setCore l (c.cuWrite (s.grade == .a) (off - 0x10000) v)
  else if 0x13000 ≤ off && off < 0x13000 + 8 * 23 && off % 8 = 0 then s.setCore l (c.arbWrite ((off - 0x13000) / 8) v)
  else if off = 0x13100 then (if bit v 0 then s.setCore l c.arbCommit else s)
  else if off = 0x14208 then
    let c := { c with freeze := bit v 1 }
    s.setCore l (if bit v 0 then c.clearCounters else c)
  else s

end Sys2Proof.Machine
end

