-- ==== Sys2Proof/Machine/Mesh.lean ====
section
/-! DEFINITION. Machine/Mesh.lean: a router's choice of port, the links of the mesh, the flits and messages that travel it,
their destinations and lanes, and the edge dies' attachment points (R287 to R293, R295, R300 to R303). -/

namespace Sys2Proof.Machine

/-- The physical core at module coordinates PX, PY (R287). -/
def physAt (x y : Nat) : Nat := (y / 32 * 4 + x / 34) * 1088 + y % 32 * 34 + x % 34

/-- The bank a flit of an epoch uses (R294, R295). -/
def Router.bank (r : Router) (epoch : Bool) : Nat := b2n (if epoch == r.epoch then r.active else !r.active)

/-- A router's table entry. -/
def Router.entry (r : Router) (bank : Nat) (isY : Bool) (i : Nat) : BitVec 4 := look r.table (bank * 512 + b2n isY * 256 + i) 0

/-- The port of plain dimension order in X or Y: 0 north, 1 east, 2 south, 3 west, 4 local (R293). -/
def plainPort (isY : Bool) (here there : Nat) : Nat :=
  if here = there then 4 else if isY then (if there < here then 0 else 2) else (if here < there then 1 else 3)

/-- The dimension a flit is travelling: the Y table is looked up (R293). -/
def MeshFlit.usesY (f : MeshFlit) : Bool := if f.lane then f.py != f.dy else f.px == f.dx

/-- Port 4 is port 5 for a flit bound for an edge die (R293). -/
def MeshFlit.exit (f : MeshFlit) (port : Nat) : Nat := if f.edge && port = 4 then 5 else port

/-- The port and lane a router sends a flit by (R293). -/
def Router.choose (r : Router) (f : MeshFlit) : Nat × Bool :=
  let isY := f.usesY
  let e := r.entry (r.bank f.epoch) isY (if isY then f.dy else f.dx)
  if bit e 3 then (fld e 0 3, true)
  else (f.exit (plainPort isY (if isY then f.py else f.px) (if isY then f.dy else f.dx)), f.lane)

/-- The coordinates one step by a port, where a router stands there (R287). -/
def stepBy (x y port : Nat) : Option (Nat × Nat) :=
  match port with
  | 0 => if y = 0 then none else some (x, y - 1)
  | 1 => if x < 135 then some (x + 1, y) else none
  | 2 => if y < 127 then some (x, y + 1) else none
  | 3 => if x = 0 then none else some (x - 1, y)
  | _ => none

/-- A step leaves its die (R35, R289). -/
def crossesDie (x y x' y' : Nat) : Bool := x / 34 != x' / 34 || y / 32 != y' / 32

/-- Writes a router's record. -/
def State.setRouter (s : State) (p : Nat) (r : Router) : State :=
  { s with mesh := { s.mesh with routers := put s.mesh.routers p r } }

/-- Writes a flit's record. -/
def State.setFlit (s : State) (n : Nat) (f : MeshFlit) : State :=
  { s with mesh := { s.mesh with flits := put s.mesh.flits n f } }

/-- Removes a flit from the mesh. -/
def State.dropFlit (s : State) (n : Nat) : State := { s with mesh := { s.mesh with flits := drop s.mesh.flits n } }

/-- A flit enters the mesh with the next number, the next arrival and the route epoch of the injector where it stands (R295). -/
def State.inject (s : State) (f : MeshFlit) : Nat × State :=
  let n := s.mesh.nextFlit
  let f := { f with epoch := (s.router (physAt f.px f.py)).epoch, arr := s.mesh.nextArr }
  (n, { s with mesh := { s.mesh with
    flits := put s.mesh.flits n f, nextFlit := n + 1, nextArr := s.mesh.nextArr + 1 } })

/-- A flit from one router to another on lane 0 (R291, R292). -/
def flitBetween (a b : Nat) (kind : FlitKind) : MeshFlit :=
  { px := physPX a, py := physPY a, dx := physPX b, dy := physPY b, lane := false, epoch := false, kind := kind }

/-- A stream entry leaves one core for another on lane 0 (R291, R292): the flit's number, and the state. -/
def State.launch (s : State) (src dst : Nat) : Nat × State := s.inject (flitBetween (s.physOf src) (s.physOf dst) .entry)

/-! ## Edge dies (R292, R300, R301): EN, EE, ES, EW are 0 to 3 -/

/-- The router of attachment point j of edge die e. -/
def edgePoint (e j : Nat) : Nat × Nat :=
  let along := fun (m : Nat) => m * (j / 4) + 2 + 8 * (j % 4)
  match e with
  | 0 => (along 34, 0)
  | 1 => (135, along 32)
  | 2 => (along 34, 127)
  | _ => (0, along 32)

/-- A point is available: its router is neither isolated nor ebbed (R300, R402), and its edge die is not lost (R454). -/
def State.pointUp (s : State) (e j : Nat) : Bool :=
  let x := edgePoint e j
  let p := physAt x.1 x.2
  !(s.router p).isolated && !(s.quad (physQuad p)).ebbed && !((s.plant.edgeLost[e]?).getD false)

/-- A flit that meets edge die e travels the leg next to it perpendicular to the edge. -/
def ingressLane (e : Nat) : Bool := e % 2 == 0
/-- The lane toward it. -/
def egressLane (e : Nat) : Bool := e % 2 == 1

/-- How far point j of edge die e is from a router: the points of the router's own die column or die row come first (R291). -/
def pointDistance (e x y j : Nat) : Nat :=
  let p := edgePoint e j
  if e % 2 = 0 then (if p.1 / 34 = x / 34 then 0 else 1000) + (Nat.max p.1 x - Nat.min p.1 x)
  else (if p.2 / 32 = y / 32 then 0 else 1000) + (Nat.max p.2 y - Nat.min p.2 y)

/-- The nearest available point of edge die e to a router; of two at one distance the lower (DESIGN CHOICE, log 128). -/
def State.nearestPoint (s : State) (e x y : Nat) : Option Nat :=
  ((List.range 16).filter (s.pointUp e)).foldl (fun (best : Option Nat) j => match best with
    | some k => if pointDistance e x y j < pointDistance e x y k then some j else best
    | none => some j) none

/-- The point that the ingress of a line takes: the k-th set bit of MASK, or the next set point in ascending order whose router
is available. -/
def EdgeMap.point (m : EdgeMap) (line : Nat) : Option Nat :=
  let set := (List.range 16).filter (bit m.mask)
  let k := line % Nat.max 1 set.length
  (set.drop k ++ set.take k).find? (fun j => !m.out.contains j)

/-- A flit of edge die e is on the data mesh. -/
def State.edgeBusy (s : State) (e : Nat) : Bool :=
  s.mesh.flits.any (fun x => x.2.from_ == some e && !x.2.delivered && match x.2.kind with
    | .ctl .. => false
    | _ => true)

/-- Edge dies whose injected flits have all been delivered apply the committed mask and the points' availability (R301). -/
def State.remap (s : State) : State :=
  { s with mesh := { s.mesh with maps := Vector.ofFn (fun (e : Fin 4) =>
      if s.edgeBusy e.val then s.mesh.maps[e]
      else { mask := s.mesh.spray[e], out := (List.range 16).filter (fun j => !s.pointUp e.val j) }) } }

/-- A flit in the FIFO of a point of edge die e, bound for a router. -/
def flitFrom (e j x y : Nat) (kind : FlitKind) : MeshFlit :=
  let p := edgePoint e j
  { px := p.1, py := p.2, dx := x, dy := y, lane := ingressLane e, epoch := false, kind := kind, from_ := some e, fifo := true,
    inp := e }

/-- A flit from a router to a point of edge die e. -/
def flitToward (e j x y : Nat) (kind : FlitKind) : MeshFlit :=
  let p := edgePoint e j
  { px := x, py := y, dx := p.1, dy := p.2, lane := egressLane e, epoch := false, kind := kind, edge := true }

/-! ## The control net (R302, R303) -/

/-- The node of a die's barrier unit: the die's first router (DESIGN CHOICE, log 67). -/
def dieUnit (d : Nat) : Nat := d * 1088

/-- A message from a core to Nemar on EN. With no point available it waits at the core's router for good. -/
def State.tellNemar (s : State) (l : Nat) (kind : CtlKind) (key : Nat) : State :=
  let p := s.physOf l
  (s.inject (flitToward 0 ((s.nearestPoint 0 (physPX p) (physPY p)).getD 0) (physPX p) (physPY p) (.ctl kind l key))).2

/-- A message from Nemar to a core. -/
def State.tellCore (s : State) (l : Nat) (kind : CtlKind) (key : Nat) : State :=
  let p := s.physOf l
  (s.inject (flitFrom 0 ((s.nearestPoint 0 (physPX p) (physPY p)).getD 0) (physPX p) (physPY p) (.ctl kind l key))).2

/-- A message from one router to another. -/
def State.tellNode (s : State) (a b l : Nat) (kind : CtlKind) (key : Nat) : State :=
  (s.inject (flitBetween a b (.ctl kind l key))).2

/-- The number and record of the oldest message of a kind, from or to a core, about a key. -/
def State.message (s : State) (kind : CtlKind) (l key : Nat) : Option (Nat × MeshFlit) :=
  s.mesh.flits.find? (fun x => x.2.kind == .ctl kind l key)

/-- That message is still on its way. -/
def State.underWay (s : State) (kind : CtlKind) (l key : Nat) : Bool :=
  match s.message kind l key with
  | some x => !x.2.delivered
  | none => false

/-- That message is taken from the net by the unit it has reached. -/
def State.takeMessage (s : State) (kind : CtlKind) (l key : Nat) : State :=
  match s.message kind l key with
  | some x => s.dropFlit x.1
  | none => s

/-- The messages of a core that its reset or its image takes with it are gone; its fault messages and reports, which Nemar
holds it to, and invalidations stay. -/
def State.dropMessages (s : State) (l : Nat) : State :=
  { s with mesh := { s.mesh with flits := s.mesh.flits.filter (fun x => match x.2.kind with
      | .ctl .fault _ _ => true
      | .ctl .report _ _ => true
      | .ctl .invalidate _ _ => true
      | .ctl _ k _ => k != l
      | _ => true) } }

/-! ## What flits carry -/

/-- The core and input queue whose arriving entry a flit carries. -/
def State.carrierOf (s : State) (n : Nat) : Option (Nat × Nat) :=
  (s.cores.flatMap (fun e => (List.range 8).filterMap (fun q =>
    if (e.2.queue q).arriving.any (fun x => x.2 == n) then some (e.1, q) else none))).head?

/-- The core that a message on the control net is from or to, where flit n is one. -/
def State.messageOf (s : State) (n : Nat) : Option Nat :=
  match (find? s.mesh.flits n).map (fun f => f.kind) with
  | some (FlitKind.ctl _ l _) => some l
  | _ => none

/-- An entry of core l's input queue q is lost on the mesh. -/
def State.loseEntry (s : State) (l q n : Nat) : State :=
  let c := s.core l
  let k := c.queue q
  s.setCore l (c.setQueue q { k with arriving := k.arriving.filter (fun x => x.2 != n) })

/-- The router holds a flit or a message of an epoch. -/
def State.holdsEpoch (s : State) (p : Nat) (epoch : Bool) : Bool :=
  s.mesh.flits.any (fun e => !e.2.delivered && physAt e.2.px e.2.py == p && e.2.epoch == epoch)

/-- A write of core l by an owner below `top` is on the mesh. -/
def State.meshWrites (s : State) (l top : Nat) : Bool :=
  s.mesh.flits.any (fun x => match x.2.kind with
    | .write c o _ _ _ _ _ => c == l && o < top
    | _ => false)

/-- Every router of the module that is powered and not isolated. -/
def State.liveRouters (s : State) : List Nat := (List.range 17408).filter (fun p => !(s.router p).isolated)

end Sys2Proof.Machine
end

