-- ==== Sys2Proof/Machine/Complete.lean ====
section
/-! DEFINITION. Machine/Complete.lean: the host's memory and buffers, interrupts, completions (R345, R351, R352, R356 to
R360, R363, R368, R387), the end of a request (R374, R375) and the reset of a region (R67). -/

namespace Sys2Proof.Machine

/-! ## The host -/

/-- Byte key of host physical address 0: the host window's base (R348). -/
def hostBase : Nat := 0x100000000000

/-- Byte key of a host physical address: in the host window below 2⁴⁴ (R348); addresses above, which only CXL.io reaches
(R352), have keys of their own. -/
def hostKey (h : Nat) : Nat := if h % 2 ^ 64 < 2 ^ 44 then hostBase + h % 2 ^ 64 else 2 ^ 80 + h % 2 ^ 64

/-- Reads n bytes of host memory by CXL.io. -/
def State.hostRead (s : State) (h n : Nat) : List Byte :=
  let m := Nat.min n (2 ^ 44 - h)
  getBytes s.mem (hostKey h) m ++ getBytes s.mem (hostKey (h + m)) (n - m)

/-- Writes bytes of host memory by CXL.io. -/
def State.hostWrite (s : State) (h : Nat) (bs : List Byte) : State :=
  let m := 2 ^ 44 - h
  if m = 0 || bs.length ≤ m then s.writeMem (hostKey h) (clean bs)
  else (s.writeMem (hostKey h) (clean (bs.take m))).writeMem (hostKey (h + m)) (clean (bs.drop m))

/-- A CXL port carries traffic: its link is up and no IDE failure holds it (R347, R448). -/
def CxlPort.carries (p : CxlPort) : Bool := p.up && !p.ideFailed

/-- A CXL port carries traffic (R345). -/
def State.hostUp (s : State) : Bool := s.host.ports.toList.any CxlPort.carries

/-- Raises MSI-X vector v, or holds it while no port is up (R345, R346). -/
def State.raiseIrq (s : State) (v : Nat) : State :=
  if s.hostUp then { s with host := { s.host with irqs := s.host.irqs ++ [BitVec.ofNat 5 v] } }
  else { s with host := { s.host with heldIrqs := s.host.heldIrqs ++ [BitVec.ofNat 5 v] } }

/-- Sets HST_STATUS.STATE; each change raises vector 16 and writes a COUNTERS record (R347, R427). -/
def State.setHState (s : State) (h : HState) : State :=
  if s.host.state = h then s
  else (({ s with host := { s.host with state := h } } : State).recordCounters).raiseIrq 16

/-- Ring pair q. -/
def State.ring (s : State) (q : RingId) : Ring := (s.host.rings[q.toNat]?).getD {}

/-- Writes ring pair q. -/
def State.setRing (s : State) (q : RingId) (r : Ring) : State :=
  { s with host := { s.host with rings := s.host.rings.setIfInBounds q.toNat r } }

/-! ## Commands in flight -/

/-- Long opcodes (R369). -/
def isLongOp (op : Nat) : Bool :=
  [0x07, 0x11, 0x12, 0x13, 0x14, 0x15, 0x18, 0x20, 0x23, 0x30, 0x34, 0x40, 0x50, 0x52, 0x54].contains op

/-- Opcodes of R369. -/
def isKnownOp (op : Nat) : Bool :=
  isLongOp op || (1 ≤ op && op ≤ 6) || op == 0x10 || op == 0x16 || op == 0x17 || op == 0x21 || op == 0x22 ||
    (0x31 ≤ op && op ≤ 0x33) || op == 0x35 || op == 0x51 || op == 0x53

/-- Argument word Ak. -/
def Submission.arg (b : Submission) (k : Nat) : Word := (b.args[k]?).getD 0

/-- The command in flight that a reference names. -/
def State.command (s : State) (k : CmdRef) : Option Command := s.nemar.cmds.find? (fun c => c.ref == k)

/-- Changes the command in flight that a reference names. -/
def State.mapCommand (s : State) (k : CmdRef) (f : Command → Command) : State :=
  { s with nemar := { s.nemar with cmds := s.nemar.cmds.map (fun c => if c.ref == k then f c else c) } }

/-- Removes the command in flight that a reference names. -/
def State.dropCommand (s : State) (k : CmdRef) : State :=
  { s with nemar := { s.nemar with cmds := s.nemar.cmds.filter (fun c => c.ref != k) } }

/-- The tag a reference stands for; the boot mailbox's is ignored (R351). -/
def CmdRef.tagOf : CmdRef → BitVec 12
  | .tag t => t
  | .boot => 0

/-! ## Completion entries (R356) -/

/-- What a completion says. -/
structure Completion where
  status : Code
  long : Bool := false
  dup : Bool := false
  r0 : Word := 0
  r1 : Word := 0
  deriving DecidableEq, Repr

/-- A completion's 32 bytes. -/
def completionBytes (x : Completion) (phase boot : Bool) (tag : BitVec 12) (sqHead sq usec : Nat) : List Byte :=
  toBytes 2 x.status.toNat ++
    toBytes 2 (tag.toNat + b2n x.dup * 4096 + b2n boot * 8192 + b2n x.long * 16384 + b2n phase * 32768) ++
    toBytes 2 sqHead ++ toBytes 1 sq ++ [0] ++ toBytes 8 x.r0.toNat ++ toBytes 8 x.r1.toNat ++ toBytes 8 usec

/-- Signals a ring's completions when INT_DELAY or INT_COUNT calls for it (R352, R357). -/
def State.signalRing (s : State) (q : RingId) : State :=
  let r := s.ring q
  if r.intDelay = 0 || Nat.max r.intCount 1 ≤ r.unsig then (s.setRing q { r with unsig := 0 }).raiseIrq q.toNat else s

/-- Writes one completion entry to a ring's CQ, a port being up (R356, R359). -/
def State.writeCq (s : State) (q : RingId) (x : Completion) (tag : BitVec 12) : State :=
  let r := s.ring q
  let bs := completionBytes x r.phase false tag r.sqHead q.toNat s.nemar.usec
  let s := s.hostWrite (r.cqBase.toNat + 32 * r.cqTail) bs
  let last := r.cqTail + 1 == 2 ^ r.cqLog2
  (s.setRing q { r with
    cqTail := if last then 0 else r.cqTail + 1, phase := if last then !r.phase else r.phase,
    cqUsed := r.cqUsed + 1, owed := r.owed - 1, unsig := r.unsig + 1,
    unsigUsec := if r.unsig = 0 then s.nemar.usec else r.unsigUsec }).signalRing q

/-- Posts a completion of a command: into the boot mailbox, into its ring's CQ, or held while no port is up (R345,
R351). A held entry keeps what it says; the rest is fixed when it is written. -/
def State.post (s : State) (c : Command) (x : Completion) : State :=
  match c.ref with
  | .boot =>
    let bs := completionBytes x false true 0 0 0 s.nemar.usec
    ({ s with host := { s.host with
        boot := setBytes s.host.boot 128 bs, bootBusy := false, bootDone := true } } : State).raiseIrq 16
  | .tag t =>
    if s.hostUp then s.writeCq c.ring x t
    else { s with host := { s.host with
        held := s.host.held ++ [⟨some c.ring, completionBytes x false false t 0 c.ring.toNat 0⟩] } }

/-- What a held entry said. -/
def heldCompletion (bs : List Byte) : Completion × BitVec 12 :=
  let f := ofBytes ((bs.drop 2).take 2)
  ({ status := BitVec.ofNat 16 (ofBytes (bs.take 2)), long := f / 16384 % 2 == 1, dup := f / 4096 % 2 == 1,
     r0 := BitVec.ofNat 64 (ofBytes ((bs.drop 8).take 8)), r1 := BitVec.ofNat 64 (ofBytes ((bs.drop 16).take 8)) },
   BitVec.ofNat 12 f)

/-- A held completion is written: a final one ends its command (R358). -/
def State.settleHeld (s : State) (q : RingId) (x : Completion × BitVec 12) : State :=
  if x.1.long || x.1.dup then s
  else
    let r := s.ring q
    (s.dropCommand (.tag x.2)).setRing q { r with inflight := r.inflight - 1 }

/-- Releases held completions and interrupts once a port is up (R345). -/
def State.releaseHeld (s : State) : State :=
  if s.hostUp then
    let held := s.host.held
    let irqs := s.host.heldIrqs
    let s := { s with host := { s.host with held := [], heldIrqs := [] } }
    let s := held.foldl (fun (t : State) h =>
      match h.ring with
      | some q => (t.settleHeld q (heldCompletion h.bytes)).writeCq q (heldCompletion h.bytes).1 (heldCompletion h.bytes).2
      | none => t) s
    irqs.foldl (fun (t : State) v => t.raiseIrq v.toNat) s
  else s

/-- CQ entries a command still owes: two for a long one not yet acknowledged, one where only the final one waits (R359,
R363). -/
def Command.debt (c : Command) : Nat := if !c.ended && isLongOp c.sub.opcode.toNat && !c.longAcked then 2 else 1

/-- The final completion of a command (R358, R363, R368). A refused long command releases the entry owed for its second
completion; a command whose ring was reset keeps its tag as finished until RESYNC reports it (R360, R387). With no port up
the completion is held, and the command stays in flight (R345, R358). Of a halted module only IDENTIFY, RESYNC and what the
boot mailbox refuses complete (R351, R404). -/
def State.finish (s : State) (k : CmdRef) (status : Code) (r0 r1 : Word) : State :=
  match s.command k with
  | none => s
  | some c =>
    if c.ended || (s.host.state = .halted && 2 < c.sub.opcode.toNat && k != .boot) then s
    else if c.dropped then
      { s.dropCommand k with nemar := { (s.dropCommand k).nemar with finished := s.nemar.finished ++ [⟨c, status⟩] } }
    else
      let s := match k with
        | .boot => s.dropCommand k
        | .tag _ =>
          let r := s.ring c.ring
          let s := if s.hostUp then s.dropCommand k else s.mapCommand k (fun d => { d with ended := true })
          s.setRing c.ring { r with
            inflight := if s.hostUp then r.inflight - 1 else r.inflight, owed := r.owed - (c.debt - 1) }
      s.post c { status := status, r0 := r0, r1 := r1 }

/-- Success. -/
def State.succeed (s : State) (k : CmdRef) (r0 r1 : Word) : State := s.finish k stSuccess r0 r1

/-- A long command has passed its checks and begun: its acknowledgement (R363). -/
def State.ack (s : State) (k : CmdRef) : State :=
  match s.command k with
  | none => s
  | some c =>
    let s := s.mapCommand k (fun c => { c with begun := true, longAcked := c.longAcked || !c.dropped })
    if c.dropped then s else s.post c { status := stSuccess, long := true }

/-! ## RESULT1 (R368) -/

/-- A field of the submission, by its word. -/
def r1Word (k : Nat) : Word := at64 0 32 k
/-- An entry of the buffer, or a word of an access. -/
def r1Entry (k : Nat) : Word := at64 0 32 k ||| flag64 32 true
/-- A reason with its detail and a core. -/
def r1Reason (reason detail : Nat) (core : Option Nat) : Word :=
  at64 0 16 reason ||| at64 16 16 detail ||| at64 32 14 (core.getD 0) ||| flag64 46 core.isSome
/-- A core, a cause, a page and a pour slot. -/
def r1Core (core : Option Nat) (cause page slot : Nat) : Word :=
  at64 0 14 (core.getD 0) ||| flag64 14 core.isSome ||| at64 16 8 cause ||| at64 24 24 page ||| at64 48 10 slot

/-- Refuses a command with a status and RESULT1. -/
def State.refuse (s : State) (k : CmdRef) (status : Code) (r1 : Word) : State := s.finish k status 0 r1

/-! ## Buffers (R355, R357) -/

/-- The bytes of a command's buffer from an offset on. -/
def State.bufRead (s : State) (b : Submission) (off n : Nat) : List Byte :=
  if b.inline then getBytes s.host.boot (160 + off) n else s.hostRead (b.buf.toNat + off) n

/-- Writes result data into a command's buffer. -/
def State.bufWrite (s : State) (b : Submission) (off : Nat) (bs : List Byte) : State :=
  if b.inline then { s with host := { s.host with boot := setBytes s.host.boot (160 + off) bs } }
  else s.hostWrite (b.buf.toNat + off) bs

/-- A 64-bit word of a buffer. -/
def State.bufWord (s : State) (b : Submission) (off : Nat) : Word := BitVec.ofNat 64 (ofBytes (s.bufRead b off 8))

/-- The buffer can be reached: inline, or over a port that is up (HOST_BUFFER otherwise, R382). -/
def State.bufUp (s : State) (b : Submission) : Bool := b.inline || s.hostUp

/-! ## Requests and regions -/

/-- Changes a region's STATE, with the MOD_USEC of the change (R386); entering RUNNING or TIDELINE from another state
starts the deadlock watch's count afresh for every queue of the region (R81). -/
def State.setRState (s : State) (r : Nat) (st : RState) : State :=
  let g := s.region r
  let watched := fun (x : RState) => x == .running || x == .tideline
  let s := s.setRegion r { g with state := st, stateUsec := s.nemar.usec }
  if watched st && !watched g.state then
    (rectCores g.rect).foldl (fun (t : State) l =>
      let c := t.core l
      t.setCore l { c with sq := c.sq.map (fun q => { q with moved := true, quiet := 0 }) }) s
  else s

/-- Ends the region's current request, if there is one (R375). -/
def State.endRequest (s : State) (r : Nat) (status : Code) (r0 r1 : Word) : State :=
  let g := s.region r
  if g.reqValid then
    let s := { s with nemar := { s.nemar with tierReports := s.nemar.tierReports.map (fun (x : TierReport) =>
        if x.region = r then { x with past := true } else x) } }
    (s.setRegion r { g with reqValid := false, lastStatus := status, lastTag := g.reqTag }).finish (.tag g.reqTag)
      status r0 r1
  else s

/-- A generator without its passes, reads and entries; its registers and counters stand (R67, R209). -/
def AddrGen.cleared (a : AddrGen) : AddrGen :=
  { a with passes := [], cur := none, stopping := false, tiles := [], fq := [], landed := [], fresh := 0, begun := 0,
           emitted := 0, left := [], deq := 0,
           told := 0, skip := 0, gated := false, indices := [], replay := [], dropIdx := 0, hist := [],
           histFrom := 0, wbytes := [], wentries := 0,
           openTiles := [] }

/-- A logical core stopped and emptied as REGION_RESET does (R67): queues, engine queues and work in flight. Results not yet
visible are dropped (DESIGN CHOICE, log 119). -/
def Core.emptied (c : Core) : Core :=
  { c.dropAccesses with
    running := false, stopping := false, stopped := false, waiting := false,
    matQ := [], vecQ := [], matA := none, vecA := none, fetchQ := [], dmaQ := [], pend := [], staged := false,
    walkEnd := Nat.min c.walkEnd c.slot,
    stagedSent := false, stagedHere := false, fromSlack := false, switched := false,
    sq := c.sq.map (fun q => { q with
      buf := [], spill := [], arriving := [], cred0 := 0, cred1 := 0, out0 := 0, out1 := 0, oldCfg := none,
      oldSpill := none, tided := false, moved := false, quiet := 0 }),
    ag := c.ag.map AddrGen.cleared,
    dma := c.dma.map (fun d => { d with chains := [], busy := false, fab := none }),
    pk := { c.pk with packIn := [] }, evts := [], barOut := [] }

/-- The commands a region's change of state ends (R375, R465): an enable, a load, a drain, a flood in progress. -/
def State.endRegionCommands (s : State) (r : Nat) (status : Code) (r1 : Word) : State :=
  let g := s.region r
  let refs := g.enabling.toList ++ (g.load.map Prod.fst).toList ++ (g.drain.map Prod.fst).toList ++ g.flood.toList
  let s := s.setRegion r { g with enabling := none, load := none, drain := none, drainHeld := false, flood := none }
  refs.foldl (fun (t : State) k => t.finish k status 0 r1) s

/-- The request's LIMIT runs while the region is in none of the states that suspend it (R375). -/
def RState.suspends : RState → Bool
  | .stopping => true
  | .scanning => true
  | .saved => true
  | .flooding => true
  | _ => false

end Sys2Proof.Machine
end

