-- ==== Sys2Proof/Machine/Slots.lean ====
section
/-! DEFINITION. Machine/Slots.lean: how results in flight become visible, how a core's slots advance, and what a program
fault and the issue of an instruction do (R39 to R43, R97, R98, R103 to R106, R119). -/

namespace Sys2Proof.Machine

/-! ## Results becoming visible -/

/-- Bytes of consecutive elements e0, e0 + 1, … of a pool operand as VPST writes them, merged with the bits beside them. -/
def packElems (m : Memory) (off fmt e0 : Nat) (vals : List (Nat × Bool)) : Nat × List (Byte × Bool) :=
  let b := elemBits fmt
  let pos := off * 8 + e0 * b
  let a := pos / 8
  let total := vals.length * b
  let n := (pos % 8 + total + 7) / 8
  let old := ofBytes (getBytes m a n)
  let body := (vals.foldr (fun v acc => acc * 2 ^ b + v.1 % 2 ^ b) 0) <<< (pos % 8)
  let keep := old - ((old >>> (pos % 8)) % 2 ^ total) <<< (pos % 8)
  let bs := toBytes n (keep + body)
  (a, bs.zipIdx.map (fun x =>
    let lo := x.2 * 8
    (x.1, (vals.zipIdx).any (fun v =>
      v.1.2 && v.2 * b + pos % 8 < lo + 8 && lo < v.2 * b + b + pos % 8))))

/-- The output queue that an effect enters, and the entries it needs room for. -/
def Effect.enters : Effect → Option (Nat × Nat)
  | .enqueue q _ need => some (q, need)
  | .enqueueLine q _ need => some (q, need)
  | _ => none

/-- An effect waits for room in its output queue, buffer and spill area, or for the pool banks of the lines that its entry
moves (R41, R70). That R153's "credit for all w entries" is this room, and no credit of R69 from the peer, is DEDUCED
(log 117). -/
def Core.blocked (c : Core) (e : Effect) : Bool :=
  match e.enters with
  | some (q, need) => !(c.queue q).roomFor need || !(c.spillAccess (c.queue q).pushLines).ok
  | none => false

/-- The turn of the entry that an effect enters a queue with at the arbiters of the lines it moves (R70). -/
def Core.spillTurn (c : Core) (e : Effect) : Core :=
  match e.enters with
  | some (q, _) => c.arbitrated (c.spillAccess (c.queue q).pushLines)
  | none => c

/-- Tap counters after a group (R181), saturating; a beat in which it binned is one busy one of unit 7, however many groups
it binned in it (R185). -/
def Core.tapAdd (c : Core) (slot : Nat) (bins : List Nat) (pois instr : Nat) : Core :=
  let c :=
    if bins.isEmpty || c.tapBusy = slot + 1 then c
    else { c.setUnit 7 { c.unit 7 with busy := (c.unit 7).busy + 1 } with tapBusy := slot + 1 }
  { c with htapBins := bins.foldl (fun t b => put t b (satInc 32 (look t b 0))) c.htapBins,
           htapPois := satAdd 32 c.htapPois pois, htapInstr := satAdd 32 c.htapInstr instr }

/-- The part of an effect that stays inside the core. -/
def Core.applyEffect (c : Core) : Effect → Core
  | .sreg r v => c.setS r v
  | .spoison => { c with spoison := true }
  | .accLine line vals bad => c.setAcc line (vals.map (fun v => (v.1, v.2.toNat))) bad
  | .elems p fmt w => c.writeElems p fmt w
  | .vecFlags m => { c with vecStatus := c.vecStatus ||| m }
  | .plane p pl => if p then { c with plane1 := c.plane1.loaded pl } else { c with plane0 := c.plane0.loaded pl }
  | .classErr => { c with classErr := true }
  | .tapCount slot bins pois instr => c.tapAdd slot bins pois instr
  | _ => c

/-- The entry that carries an accumulator line (R153). -/
def Core.lineEntry (c : Core) (line : Nat) : Entry :=
  let l := line % Config.accLines
  { data := look c.acc l 0, marks := if c.accBad l then 0xFF else 0, phase := c.phase }

/-- One effect of core l becomes visible. -/
def State.applyEffect (s : State) (l : Nat) (e : Effect) : State :=
  match e with
  | .store off v => s.writeMem (sliceBase l + off) (clean (toBytes 8 v.toNat))
  | .csr off v => s.coreWrite l off v
  | .poolElems off fmt e0 vals =>
    let r := packElems s.mem (sliceBase l + off) fmt e0 vals
    s.writeMem r.1 r.2
  | .poolWords off ws => s.writeMem (sliceBase l + off) (clean (ws.flatMap (fun w => toBytes 8 w.toNat)))
  | .enqueue q e _ => s.push l q { e with phase := (s.core l).phase }
  | .enqueueLine q line _ => s.push l q ((s.core l).lineEntry line)
  | e => s.setCore l ((s.core l).applyEffect e)

/-- The state after that turn; an effect that enters no queue has none. -/
def State.spillTurned (s : State) (l : Nat) (e : Effect) : State :=
  if e.enters.isSome then s.setCore l ((s.core l).spillTurn e) else s

/-- Makes results due by slot t visible in order, stopping at one that waits for room: what is left, and the state. -/
def settleList (l t : Nat) : List Pending → State → List Pending × State
  | [], s => ([], s)
  | p :: ps, s =>
    if t < p.vis || (s.core l).blocked p.eff then (p :: ps, s)
    else settleList l t ps ((s.spillTurned l p.eff).applyEffect l p.eff)

/-- Opens slot t of core l, completing the slots before it: results due are made visible; a full output queue holds the
slot at which its entry is due (R41). -/
def State.advance (s : State) (l t : Nat) : State :=
  let c := s.core l
  let r := settleList l t c.pend s
  let d := r.2.core l
  let reach := match r.1 with
    | p :: _ => if p.vis ≤ t then Nat.max c.slot p.vis else t
    | [] => t
  r.2.setCore l ({ d with pend := r.1 }.completeSlots (reach - c.slot))

/-! ## When a core may move -/

/-- The core completes slots at all: started, no fault, not stopping or switched off, its region executing. -/
def State.live (s : State) (l : Nat) : Bool :=
  let c := s.core l
  c.running && !c.faulted && !c.stopping && !c.off && (s.coreRState l).executes

/-- The slot of the matrix array's next event: its next group, its next tile, or the start of the next instruction. -/
def Core.matDue (c : Core) : Option Nat :=
  match c.matA with
  | some a =>
    if a.g < a.groups then some (a.start + a.g)
    else match a.walk with
      | some w => some w.due
      | none => none
  | none => c.matQ.head?.map (fun q => q.start)

/-- The slot of the vector engine's next event. -/
def Core.vecDue (c : Core) : Option Nat :=
  match c.vecA with
  | some a => some (a.start + a.g)
  | none => c.vecQ.head?.map (fun q => q.start)

/-- An engine event is due at or before a slot. -/
def dueBy (d : Option Nat) (t : Nat) : Bool :=
  match d with
  | some k => k ≤ t
  | none => false

/-- The slot at which the control core next issues. -/
def Core.nextIssue (c : Core) : Nat := Nat.max c.slot c.idleUntil

/-- The last slot at which a result of the core is due. -/
def Core.lastDue (c : Core) : Nat := c.pend.foldl (fun m p => Nat.max m p.vis) c.slot

/-- The slot by which the pipelines have retired (R117, R158): every result visible and every occupancy over. -/
def Core.retireSlot (c : Core) : Nat := Nat.max c.lastDue (Nat.max c.matTail c.vecTail)

/-- The last slot that can open before the core issues and before an engine event is due; of an ended core, before its
pipelines have retired. -/
def Core.quietTo (c : Core) : Nat :=
  [c.matDue, c.vecDue].foldl (fun m d => match d with
    | some x => Nat.min m x
    | none => m) (if c.ended then c.retireSlot else c.nextIssue)

/-- Opens the slots in which results of core l are still due, as far as nothing issues and no engine event is due (R40,
R117): an instruction's results become visible without a further command of the core where it waits or has ended. -/
def State.settle (s : State) (l : Nat) : State :=
  let k := s.core l
  if s.live l then s.advance l (Nat.min k.quietTo (if k.ended then k.retireSlot else k.lastDue)) else s

/-- The slots up to d are empty of issue: the control core idles, or has ended its section (R40, R117). -/
def Core.idleTo (c : Core) (d : Nat) : Bool := c.ended || d ≤ c.nextIssue

/-- Both engines have nothing queued and nothing in hand, and no fetch or DMA instruction waits. -/
def Core.enginesEmpty (c : Core) : Bool :=
  c.matQ.isEmpty && c.vecQ.isEmpty && c.matA.isNone && c.vecA.isNone && c.fetchQ.isEmpty && c.dmaQ.isEmpty

/-- The beats of core l are ended beats (R117, R119): its section has ended and its pipelines have retired, or it has taken a
program fault, and its region has not yet gone on. -/
def State.idlesEnded (s : State) (l : Nat) : Bool :=
  let c := s.core l
  c.running && !c.stopping && !c.off && (s.coreRState l).executes &&
    (c.faulted || (c.ended && c.enginesEmpty && c.pend.isEmpty && c.retireSlot ≤ c.slot))

/-! ## Stretch (R41) -/

/-- The unit and output queue of an enqueue. -/
def Effect.outQueue : Effect → Option (Nat × Nat)
  | .enqueue q _ _ => some (2, q)
  | .enqueueLine q _ _ => some (1, q)
  | _ => none

/-- Units and output queues of the enqueues of the open slot that wait, for room or for a bank of their spill area (R41). -/
def Core.heldEnqueues (c : Core) : List (Nat × Nat) :=
  (c.pend.filter (fun p => p.vis ≤ c.slot && c.blocked p.eff)).filterMap (fun p => p.eff.outQueue)

/-- An effect finds its output queue full. -/
def Core.full (c : Core) (e : Effect) : Bool :=
  match e.enters with
  | some (q, need) => !(c.queue q).roomFor need
  | none => false

/-- Those of them that wait for room, or (`bank`) for a bank alone. -/
def Core.heldBy (c : Core) (bank : Bool) : List (Nat × Nat) :=
  (c.pend.filter (fun p => p.vis ≤ c.slot && c.blocked p.eff && c.full p.eff != bank)).filterMap (fun p => p.eff.outQueue)

/-- Units of the CU whose pool access is parked at an arbiter (R313). -/
def Core.bankWaits (c : Core) : List Nat := (c.cuParked.map (fun k => k / 256)).filter (· < spillUnit)

/-- The entries of the open slot that have room ask, or ask again, for the banks they move lines of (R313). -/
def Core.askSpills (c : Core) : Core :=
  (c.pend.filter (fun p => p.vis ≤ c.slot)).foldl (fun (d : Core) p => if d.blocked p.eff then d.spillTurn p.eff else d) c

/-- One stretch beat of the open slot, attributed once to every queue that causes it and, by kind, to every unit that holds
work in the slot, and counted once in the total (R41, R84). `empties` are the waits on empty sources by unit and source code,
`banks` the units refused by an arbiter in this beat. -/
def Core.stretch (c : Core) (empties : List (Nat × Nat)) (banks : List Nat) : Core :=
  let full := c.heldBy false
  let banks := banks ++ (c.heldBy true).map Prod.fst
  let c := c.askSpills
  let codes := (empties.map Prod.snd ++ full.map (fun (x : Nat × Nat) => x.2 + 8)).foldl addNum []
  let c := c.waitBeat (empties.map Prod.fst) (fun u => { u with wempty := u.wempty + 1 })
  let c := c.waitBeat (full.map Prod.fst) (fun u => { u with wfull := u.wfull + 1 })
  let c := c.waitBeat (banks ++ c.bankWaits) (fun u => { u with wbank := u.wbank + 1 })
  (codes.foldl Core.blameQueue c).stallBeats 1

/-! ## Faults and issue -/

/-- A program fault at slot i (R119): recorded, and FAULTED set. The faulting slot completes, and no further
slot does (DEDUCED, log 49: step 1 waits for the faulting slot and `no further slot` completes). -/
def Core.takeFault (c : Core) (cause trap : Nat) : Core :=
  { c with
    faulted := true
    faultSlot := c.slot
    faultReg := at64 32 16 trap ||| at64 16 12 c.pc.toNat ||| flag64 8 c.bank ||| at64 0 4 cause }.completeSlots 1

/-- A faulted core sends its fault message (R119, R120). -/
def State.sendFault (s : State) (l : Nat) : State :=
  match s.regionOf l with
  | none => s
  | some r =>
    let c := s.core l
    let g := s.region r
    ({ s with nemar := { s.nemar with faultMsgs := s.nemar.faultMsgs ++
        [⟨l, r, c.faultReg, c.faultSlot, g.reqWord, g.tagNow, false⟩] } } : State).tellNemar l .fault 0

/-- The control core of logical core l may issue word w now (R97, R103, R117, R119): no engine event is due first, and the
slot is not stretched by an entry that waits for room (R41). -/
def State.canIssue (s : State) (l : Nat) (w : Word) : Bool :=
  let c := s.core l
  let i := c.nextIssue
  s.live l && !c.ended && c.imem c.bank c.pc.toNat == w && !dueBy c.matDue i && !dueBy c.vecDue i &&
    (let d := (s.advance l i).core l; d.slot == i && d.heldEnqueues.isEmpty)

/-- What an instruction that raises no fault does with the control core. -/
structure Flow where
  /-- the address after it. -/
  pc : BitVec 12
  /-- the slot before which nothing issues. -/
  until_ : Nat
  /-- a wait instruction. -/
  waiting : Bool := false
  deriving DecidableEq, Repr

/-- The flow of an instruction that falls through. -/
def Core.fall (c : Core) : Flow := ⟨c.pc + 1, c.slot + 1, false⟩

/-- The flow of a taken branch or jump: an empty slot, then the target (R103). -/
def Core.jumpTo (c : Core) (t : BitVec 12) : Flow := ⟨t, c.slot + 2, false⟩

/-- Completes the issue of one instruction: flow, issue number, and the slot itself, counted for the units that held work
as it began, with CORE_SLOTS (R84). -/
def State.finishIssue (s : State) (l : Nat) (f : Flow) (held : List Nat) : State :=
  let c := (s.core l).addBusy held
  let i := c.slot
  let c := { c with pc := f.pc, idleUntil := f.until_, waiting := f.waiting, iss := c.iss + 1, slot := i + 1,
                    refbeats := c.refbeats + 1 }
  ((s.setCore l c).advance l (i + 1)).settle l

/-- The fetch of the instruction meets an uncorrectable error (R119). -/
def Core.fetchBad (c : Core) : Bool := c.imemErr.contains (b2n c.bank * 4096 + c.pc.toNat)

/-- The cause of the program fault that an instruction raises at its issue slot, if it raises one: the first of those it
meets in the order of R119. -/
def State.faultCause (s : State) (l : Nat) (trap : Option Nat) (causes : State → List (Bool × Nat)) (leaves : Core → Bool) :
    Option Nat :=
  let c := s.core l
  firstCause ((c.fetchBad, causeImemEcc) ::
    (causes s ++ [(c.pc == 4095 && !leaves c, causeImemEnd), (trap.isSome, causeTrap)]))

/-- Issues word w at core l: `causes` in the order of R119 over the state at the issue slot, `leaves` for an instruction
that leaves the bank, `flow` and `body` for its own effect; `trap` is the code of a TRAP, which faults when nothing
else does. Where the core cannot issue it now, nothing happens. -/
def State.issue (s : State) (l : Nat) (w : Word) (trap : Option Nat) (causes : State → List (Bool × Nat))
    (leaves : Core → Bool) (flow : Core → Flow) (body : State → State) : State :=
  if s.canIssue l w then
    let s := s.advance l (s.core l).nextIssue
    let c := s.core l
    match s.faultCause l trap causes leaves with
    | some k => (s.setCore l (c.takeFault k (if k = causeTrap then trap.getD 0 else 0))).sendFault l
    | none => (body s).finishIssue l (flow c) (c.heldUnits 1)
  else s

/-- Issues an instruction that only writes a scalar register `lat` slots later (R101). -/
def State.issueReg (s : State) (l : Nat) (w : Word) (bad : Bool) (sd : BitVec 5) (lat : Nat) (value : Core → Word) :
    State :=
  s.issue l w none (fun _ => [(bad, causeIllegal)]) (fun _ => false) Core.fall (fun s =>
    let c := s.core l
    s.setCore l (c.addPending ⟨c.slot + lat, c.iss, .sreg sd (value c)⟩))

/-- Issues an instruction of the control core that accesses n bytes at an offset of the slice (R102, R311, R313): one that
raises no fault and that the operand port or a bank does not grant in this beat waits, and its slot stretches. -/
def State.issueAccess (s : State) (l : Nat) (w : Word) (causes : State → List (Bool × Nat)) (off : Core → Nat) (n : Nat)
    (body : State → State) : State :=
  let t := s.advance l (s.core l).nextIssue
  let ask := fun (c : Core) => c.cuAccess 0 0 (off c) n
  if s.canIssue l w && (t.faultCause l none causes (fun _ => false)).isNone && !(ask (t.core l)).ok then
    t.setCore l (((t.core l).arbitrated (ask (t.core l))).stretch [] [0])
  else
    s.issue l w none causes (fun _ => false) Core.fall
      (fun t => body (t.setCore l ((t.core l).arbitrated (ask (t.core l)))))

/-- Issues an engine instruction: one that meets a full queue is not issued, and the slot is empty (R40, R104). -/
def State.issueEngine (s : State) (l : Nat) (w : Word) (full : Core → Bool) (causes : State → List (Bool × Nat))
    (body : State → State) : State :=
  let i := (s.core l).nextIssue
  let c := (s.advance l i).core l
  if s.canIssue l w && !c.fetchBad && full c then (s.advance l i).advance l (i + 1)
  else s.issue l w none causes (fun _ => false) Core.fall body

end Sys2Proof.Machine
end

