-- ==== Sys2Proof/Machine/Scalar.lean ====
section
/-! DEFINITION. Machine/Scalar.lean: the control-core instructions of R101, each issued at its core. -/

namespace Sys2Proof.Machine

/-- What a command answers: every command of this block answers a next state (log 7). -/
abbrev Answer := Host.Outcome State Fault Refusal

/-- A 64-bit word as an offset of a slice or block, sa + imm32 modulo 2^64 (R102). -/
def offsetOf (c : Core) (f : FmtI) : Nat := (c.getS f.sa + sext32 f.imm).toNat

/-- LD or ST leaves the slice or is misaligned (R102). -/
def ldstBad (off : Nat) : Bool := off % 8 ≠ 0 || 0x3FFFF8 < off

/-- LCSR or SCSR leaves 0x1_0000 to 0x1_4FFF or is misaligned (R102). -/
def lcsrBad (off : Nat) : Bool := off % 8 ≠ 0 || off < 0x10000 || 0x14FFF < off

/-- The word an LD reads: the slice's, under the core's own stores still in flight (R102). -/
def State.ldValue (s : State) (l off : Nat) : Word :=
  (s.core l).pend.foldl (fun v p => match p.eff with
    | .store o x => if o = off then x else v
    | _ => v) (getWord s.mem (sliceBase l + off))

/-- The 128-byte line of a byte carries a mark. -/
def State.lineMarked (s : State) (a : Nat) : Bool := (List.range 8).any (fun j => marked s.marks (a / 128 * 128 + 16 * j))

/-- Format C's fields marked zero are nonzero, or sa, kind or the imm32 bits above `immBits` where unused (R99, R464). -/
def cBad (f : FmtC) (sa kind : Bool) (immBits : Nat) : Bool :=
  f.z1 != 0 || f.z2 != 0 || (!sa && f.sa != 0) || (!kind && f.kind != 0) || 2 ^ immBits ≤ f.imm.toNat

/-- A conditional branch: `taken` over the operands read at its issue slot (R103). -/
def State.branch (s : State) (l : Nat) (op : BitVec 8) (f : FmtB) (taken : Word → Word → Bool) : State :=
  let t := fun (c : Core) => taken (c.getS f.sa) (c.getS f.sb)
  s.issue l (encB op f) none (fun _ => [(f.z != 0, causeIllegal)]) t
    (fun c => if t c then c.jumpTo f.target else c.fall) id

/-- NOP (R101, R464): nothing for one slot. -/
def execNop (c : CoreId) (f : FmtC) (s : State) : Answer :=
  .next (s.issue c.toNat (encC 0x00 f) none (fun _ => [(cBad f false false 0, causeIllegal)]) (fun _ => false) Core.fall id)

/-- ADD (R101): sd = sa + sb. -/
def execAdd (c : CoreId) (f : FmtA) (s : State) : Answer :=
  .next (s.issueReg c.toNat (encA 0x01 f) (f.z != 0) f.sd 1 (fun k => k.getS f.sa + k.getS f.sb))

/-- SUB (R101): sd = sa − sb. -/
def execSub (c : CoreId) (f : FmtA) (s : State) : Answer :=
  .next (s.issueReg c.toNat (encA 0x02 f) (f.z != 0) f.sd 1 (fun k => k.getS f.sa - k.getS f.sb))

/-- AND (R101): bitwise. -/
def execAnd (c : CoreId) (f : FmtA) (s : State) : Answer :=
  .next (s.issueReg c.toNat (encA 0x03 f) (f.z != 0) f.sd 1 (fun k => k.getS f.sa &&& k.getS f.sb))

/-- OR (R101): bitwise. -/
def execOr (c : CoreId) (f : FmtA) (s : State) : Answer :=
  .next (s.issueReg c.toNat (encA 0x04 f) (f.z != 0) f.sd 1 (fun k => k.getS f.sa ||| k.getS f.sb))

/-- XOR (R101): bitwise. -/
def execXor (c : CoreId) (f : FmtA) (s : State) : Answer :=
  .next (s.issueReg c.toNat (encA 0x05 f) (f.z != 0) f.sd 1 (fun k => k.getS f.sa ^^^ k.getS f.sb))

/-- SLL (R101): left by sb[5:0]. -/
def execSll (c : CoreId) (f : FmtA) (s : State) : Answer :=
  .next (s.issueReg c.toNat (encA 0x06 f) (f.z != 0) f.sd 1 (fun k => k.getS f.sa <<< fld (k.getS f.sb) 0 6))

/-- SRL (R101): right logically by sb[5:0]. -/
def execSrl (c : CoreId) (f : FmtA) (s : State) : Answer :=
  .next (s.issueReg c.toNat (encA 0x07 f) (f.z != 0) f.sd 1 (fun k => k.getS f.sa >>> fld (k.getS f.sb) 0 6))

/-- SRA (R101): right arithmetically by sb[5:0]. -/
def execSra (c : CoreId) (f : FmtA) (s : State) : Answer :=
  .next (s.issueReg c.toNat (encA 0x08 f) (f.z != 0) f.sd 1 (fun k => (k.getS f.sa).sshiftRight (fld (k.getS f.sb) 0 6)))

/-- SLT (R101): 1 if sa < sb signed. -/
def execSlt (c : CoreId) (f : FmtA) (s : State) : Answer :=
  .next (s.issueReg c.toNat (encA 0x09 f) (f.z != 0) f.sd 1 (fun k => if (k.getS f.sa).slt (k.getS f.sb) then 1 else 0))

/-- SLTU (R101): 1 if sa < sb unsigned. -/
def execSltu (c : CoreId) (f : FmtA) (s : State) : Answer :=
  .next (s.issueReg c.toNat (encA 0x0A f) (f.z != 0) f.sd 1 (fun k => if (k.getS f.sa).ult (k.getS f.sb) then 1 else 0))

/-- MIN (R101): signed minimum. -/
def execMin (c : CoreId) (f : FmtA) (s : State) : Answer :=
  .next (s.issueReg c.toNat (encA 0x0B f) (f.z != 0) f.sd 1 (fun k => if (k.getS f.sb).slt (k.getS f.sa) then k.getS f.sb else k.getS f.sa))

/-- MAX (R101): signed maximum. -/
def execMax (c : CoreId) (f : FmtA) (s : State) : Answer :=
  .next (s.issueReg c.toNat (encA 0x0C f) (f.z != 0) f.sd 1 (fun k => if (k.getS f.sa).slt (k.getS f.sb) then k.getS f.sb else k.getS f.sa))

/-- MUL (R101): low 64 bits of the product, visible three slots later. -/
def execMul (c : CoreId) (f : FmtA) (s : State) : Answer :=
  .next (s.issueReg c.toNat (encA 0x0D f) (f.z != 0) f.sd 3 (fun k => k.getS f.sa * k.getS f.sb))

/-- MULHU (R101): high 64 bits of the unsigned product, visible three slots later. -/
def execMulhu (c : CoreId) (f : FmtA) (s : State) : Answer :=
  .next (s.issueReg c.toNat (encA 0x0E f) (f.z != 0) f.sd 3 (fun k => BitVec.ofNat 64 ((k.getS f.sa).toNat * (k.getS f.sb).toNat / 2 ^ 64)))

/-- FLT (R101): 1 if sa[31:0] < sb[31:0] as FP32. -/
def execFlt (c : CoreId) (f : FmtA) (s : State) : Answer :=
  .next (s.issueReg c.toNat (encA 0x0F f) (f.z != 0) f.sd 1 (fun k => if scalarFlt (k.getS f.sa) (k.getS f.sb) then 1 else 0))

/-- FLE (R101): 1 if sa[31:0] ≤ sb[31:0] as FP32. -/
def execFle (c : CoreId) (f : FmtA) (s : State) : Answer :=
  .next (s.issueReg c.toNat (encA 0x18 f) (f.z != 0) f.sd 1 (fun k => if scalarFle (k.getS f.sa) (k.getS f.sb) then 1 else 0))

/-- SLOT (R101): the number of its own slot; sa and sb zero. -/
def execSlot (c : CoreId) (f : FmtA) (s : State) : Answer :=
  .next (s.issueReg c.toNat (encA 0x19 f) (f.z != 0 || f.sa != 0 || f.sb != 0) f.sd 1 (fun k => BitVec.ofNat 64 k.slot))

/-- ADDI (R101): sd = sa + imm32. -/
def execAddi (c : CoreId) (f : FmtI) (s : State) : Answer :=
  .next (s.issueReg c.toNat (encI 0x10 f) (f.z != 0) f.sd 1 (fun k => k.getS f.sa + sext32 f.imm))

/-- ANDI (R101): bitwise. -/
def execAndi (c : CoreId) (f : FmtI) (s : State) : Answer :=
  .next (s.issueReg c.toNat (encI 0x11 f) (f.z != 0) f.sd 1 (fun k => k.getS f.sa &&& sext32 f.imm))

/-- ORI (R101): bitwise. -/
def execOri (c : CoreId) (f : FmtI) (s : State) : Answer :=
  .next (s.issueReg c.toNat (encI 0x12 f) (f.z != 0) f.sd 1 (fun k => k.getS f.sa ||| sext32 f.imm))

/-- XORI (R101): bitwise. -/
def execXori (c : CoreId) (f : FmtI) (s : State) : Answer :=
  .next (s.issueReg c.toNat (encI 0x13 f) (f.z != 0) f.sd 1 (fun k => k.getS f.sa ^^^ sext32 f.imm))

/-- SLLI (R101): left by imm32[5:0]; imm32[31:6] zero. -/
def execSlli (c : CoreId) (f : FmtI) (s : State) : Answer :=
  .next (s.issueReg c.toNat (encI 0x14 f) (f.z != 0 || 64 ≤ f.imm.toNat) f.sd 1 (fun k => k.getS f.sa <<< fld f.imm 0 6))

/-- SRLI (R101): right logically by imm32[5:0]; imm32[31:6] zero. -/
def execSrli (c : CoreId) (f : FmtI) (s : State) : Answer :=
  .next (s.issueReg c.toNat (encI 0x15 f) (f.z != 0 || 64 ≤ f.imm.toNat) f.sd 1 (fun k => k.getS f.sa >>> fld f.imm 0 6))

/-- SRAI (R101): right arithmetically by imm32[5:0]; imm32[31:6] zero. -/
def execSrai (c : CoreId) (f : FmtI) (s : State) : Answer :=
  .next (s.issueReg c.toNat (encI 0x16 f) (f.z != 0 || 64 ≤ f.imm.toNat) f.sd 1 (fun k => (k.getS f.sa).sshiftRight (fld f.imm 0 6)))

/-- SLTI (R101): 1 if sa < imm32 signed. -/
def execSlti (c : CoreId) (f : FmtI) (s : State) : Answer :=
  .next (s.issueReg c.toNat (encI 0x17 f) (f.z != 0) f.sd 1 (fun k => if (k.getS f.sa).slt (sext32 f.imm) then 1 else 0))

/-- LI (R101): sd = imm48, zero-extended. -/
def execLi (c : CoreId) (f : FmtW) (s : State) : Answer :=
  .next (s.issueReg c.toNat (encW 0x20 f) (f.z != 0) f.sd 1 (fun _ => f.imm.zeroExtend 64))

/-- LIH (R101): sd[63:48] = imm48[15:0]; imm48[47:16] zero. -/
def execLih (c : CoreId) (f : FmtW) (s : State) : Answer :=
  .next (s.issueReg c.toNat (encW 0x21 f) (f.z != 0 || 2 ^ 16 ≤ f.imm.toNat) f.sd 1
    (fun k => setFld (k.getS f.sd) 48 16 f.imm.toNat))

/-- LD (R101, R102): a word of the own slice, visible four slots later, with SPOISON when its line is marked. -/
def execLd (c : CoreId) (f : FmtI) (s : State) : Answer :=
  let l := c.toNat
  .next (s.issueAccess l (encI 0x28 f)
    (fun t => [(f.z != 0, causeIllegal), (ldstBad (offsetOf (t.core l) f), causeLdst)]) (fun k => offsetOf k f) 8
    (fun t =>
      let k := t.core l
      let off := offsetOf k f
      let k' := k.addPending ⟨k.slot + 4, k.iss, .sreg f.sd (t.ldValue l off)⟩
      t.setCore l (if t.lineMarked (sliceBase l + off) then k'.addPending ⟨k.slot + 4, k.iss, .spoison⟩ else k')))

/-- ST (R101, R102): a word of the own slice, seen by the core's LD from the next slot and by every other reader from
slot i + 4. -/
def execSt (c : CoreId) (f : FmtI) (s : State) : Answer :=
  let l := c.toNat
  .next (s.issueAccess l (encI 0x29 f)
    (fun t => [(f.z != 0, causeIllegal), (ldstBad (offsetOf (t.core l) f), causeLdst)]) (fun k => offsetOf k f) 8
    (fun t =>
      let k := t.core l
      t.setCore l (k.addPending ⟨k.slot + 4, k.iss, .store (offsetOf k f) (k.getS f.sd)⟩)))

/-- LCSR (R101, R102): a register of the own CORE_ block, visible four slots later. The register is read at the issue slot,
before the PC moves on (DESIGN CHOICE, log 120). -/
def execLcsr (c : CoreId) (f : FmtI) (s : State) : Answer :=
  let l := c.toNat
  .next (s.issue l (encI 0x2C f) none
    (fun t => [(f.z != 0, causeIllegal), (lcsrBad (offsetOf (t.core l) f), causeLcsr)]) (fun _ => false) Core.fall
    (fun t =>
      let k := t.core l
      t.setCore l (k.addPending ⟨k.slot + 4, k.iss, .sreg f.sd (t.coreReg l (offsetOf k f))⟩)))

/-- SCSR (R101, R102): a register of the own CORE_ block, taking effect at slot i + 4. -/
def execScsr (c : CoreId) (f : FmtI) (s : State) : Answer :=
  let l := c.toNat
  .next (s.issue l (encI 0x2D f) none
    (fun t => [(f.z != 0, causeIllegal), (lcsrBad (offsetOf (t.core l) f), causeLcsr)]) (fun _ => false) Core.fall
    (fun t =>
      let k := t.core l
      t.setCore l (k.addPending ⟨k.slot + 4, k.iss, .csr (offsetOf k f) (k.getS f.sd)⟩)))

/-- BEQ (R101, R103): branch if sa = sb. -/
def execBeq (c : CoreId) (f : FmtB) (s : State) : Answer := .next (s.branch c.toNat 0x30 f (fun a b => a == b))

/-- BNE (R101, R103): branch if sa ≠ sb. -/
def execBne (c : CoreId) (f : FmtB) (s : State) : Answer := .next (s.branch c.toNat 0x31 f (fun a b => a != b))

/-- BLT (R101, R103): branch if sa < sb signed. -/
def execBlt (c : CoreId) (f : FmtB) (s : State) : Answer := .next (s.branch c.toNat 0x32 f (fun a b => a.slt b))

/-- BGE (R101, R103): branch if sa ≥ sb signed. -/
def execBge (c : CoreId) (f : FmtB) (s : State) : Answer := .next (s.branch c.toNat 0x33 f (fun a b => !(a.slt b)))

/-- BLTU (R101, R103): branch if sa < sb unsigned. -/
def execBltu (c : CoreId) (f : FmtB) (s : State) : Answer := .next (s.branch c.toNat 0x34 f (fun a b => a.ult b))

/-- BGEU (R101, R103): branch if sa ≥ sb unsigned. -/
def execBgeu (c : CoreId) (f : FmtB) (s : State) : Answer := .next (s.branch c.toNat 0x35 f (fun a b => !(a.ult b)))

/-- J (R101, R103): jump to target; [55:46] zero. -/
def execJ (c : CoreId) (f : FmtB) (s : State) : Answer :=
  .next (s.issue c.toNat (encB 0x36 f) none (fun _ => [(f.z != 0 || f.sa != 0 || f.sb != 0, causeIllegal)])
    (fun _ => true) (fun k => k.jumpTo f.target) id)

/-- JAL (R101, R103): sd = address of this instruction + 1, jump to target; [50:46] zero. -/
def execJal (c : CoreId) (f : FmtB) (s : State) : Answer :=
  let l := c.toNat
  .next (s.issue l (encB 0x37 f) none (fun _ => [(f.z != 0 || f.sb != 0, causeIllegal)])
    (fun _ => true) (fun k => k.jumpTo f.target) (fun t =>
      let k := t.core l
      t.setCore l (k.addPending ⟨k.slot + 1, k.iss, .sreg f.sa (BitVec.ofNat 64 (k.pc.toNat + 1))⟩)))

/-- JR (R101, R103): jump to sa[11:0]; [50:46] and target zero. -/
def execJr (c : CoreId) (f : FmtB) (s : State) : Answer :=
  .next (s.issue c.toNat (encB 0x38 f) none (fun _ => [(f.z != 0 || f.sb != 0 || f.target != 0, causeIllegal)])
    (fun _ => true) (fun k => k.jumpTo (BitVec.ofNat 12 (k.getS f.sa).toNat)) id)

/-- WAITS (R108): the next instruction issues at slot j + max(n, 1), n the count in sa. -/
def execWaits (c : CoreId) (f : FmtC) (s : State) : Answer :=
  .next (s.issue c.toNat (encC 0x40 f) none (fun _ => [(cBad f true false 0, causeIllegal)]) (fun _ => false)
    (fun k => ⟨k.pc + 1, k.slot + Nat.max (k.getS f.sa).toNat 1, true⟩) id)

/-- WAITI (R108): as WAITS with n = imm32, unsigned. -/
def execWaiti (c : CoreId) (f : FmtC) (s : State) : Answer :=
  .next (s.issue c.toNat (encC 0x41 f) none (fun _ => [(cBad f false false 32, causeIllegal)]) (fun _ => false)
    (fun k => ⟨k.pc + 1, k.slot + Nat.max f.imm.toNat 1, true⟩) id)

/-- WAITD (R109): the next instruction issues at slot max(j + 1, t), t the number in sa. -/
def execWaitd (c : CoreId) (f : FmtC) (s : State) : Answer :=
  .next (s.issue c.toNat (encC 0x42 f) none (fun _ => [(cBad f true false 0, causeIllegal)]) (fun _ => false)
    (fun k => ⟨k.pc + 1, Nat.max (k.slot + 1) (k.getS f.sa).toNat, true⟩) id)

/-- SWAPI (R114): the inactive bank becomes active and issues at imm32[11:0] at slot i + 2, or IMEM_BUSY. -/
def execSwapi (c : CoreId) (f : FmtC) (s : State) : Answer :=
  let l := c.toNat
  .next (s.issue l (encC 0x43 f) none
    (fun t => [(cBad f false false 12, causeIllegal), (t.imemPend l, causeImemBusy)]) (fun _ => true)
    (fun k => k.jumpTo (BitVec.ofNat 12 f.imm.toNat)) (fun t =>
      let k := t.core l
      t.setCore l { k with bank := !k.bank }))

/-- ENDS (R117): stops issue; the core then retires and waits for the switch. -/
def execEnds (c : CoreId) (f : FmtC) (s : State) : Answer :=
  let l := c.toNat
  .next (s.issue l (encC 0x44 f) none (fun _ => [(cBad f false false 0, causeIllegal)]) (fun _ => true) Core.fall
    (fun t =>
      let k := t.core l
      t.setCore l { k with ended := true }))

/-- An EVT message joins those unsent: a LOG or REFUSED that finds four waiting is dropped and counted; a DONE merges
with an unsent DONE (R118). -/
def Core.sendEvt (c : Core) (m : EvtMsg) : Core :=
  if m.kind = 2 then
    if c.evts.any (fun e => e.kind == 2) then c else { c with evts := c.evts ++ [m] }
  else if 4 ≤ (c.evts.filter (fun e => e.kind != 2)).length then
    { c with evtLost := BitVec.ofNat 16 (satInc 16 c.evtLost.toNat) }
  else { c with evts := c.evts ++ [m] }

/-- EVT (R118): one message of kind, code imm32[15:0] and value sa; kinds 3 to 15 raise ILLEGAL. -/
def execEvt (c : CoreId) (f : FmtC) (s : State) : Answer :=
  let l := c.toNat
  .next (s.issue l (encC 0x45 f) none (fun _ => [(cBad f true true 16 || 3 ≤ f.kind.toNat, causeIllegal)])
    (fun _ => false) Core.fall (fun t =>
      let k := t.core l
      let k' := k.sendEvt ⟨f.kind, BitVec.ofNat 16 f.imm.toNat, k.getS f.sa⟩
      if k'.evts.length = k.evts.length then t.setCore l k' else (t.setCore l k').tellNemar l .evt 0))

/-- Delivers the releases at the front of a core's arrivals, in order (R306). -/
def deliverReleases : List BarArrival → Nat × Bool × List BarArrival
  | [] => (0, false, [])
  | a :: t =>
    match a.rel with
    | some f =>
      let r := deliverReleases t
      (r.1 + 1, f || r.2.1, r.2.2)
    | none => (0, false, a :: t)

/-- A core's releases are delivered as far as they go (R306). -/
def Core.deliverBarriers (c : Core) : Core :=
  let r := deliverReleases c.barOut
  { c with barOut := r.2.2, barRel := c.barRel + BitVec.ofNat 16 r.1, barFail := c.barFail || r.2.1 }

/-- A module-scoped barrier's registers. -/
def State.modBar (s : State) (j : Nat) : ModBarrier := look s.nemar.bars j {}

/-- A core may take part in barrier b: region-scoped always, module-scoped when enabled and naming its region (R304, R306). -/
def State.mayArrive (s : State) (l b : Nat) : Bool :=
  match s.regionOf l with
  | none => false
  | some r =>
    if b < 240 then true
    else
      let m := s.modBar (b - 240)
      m.en && bit (m.set.toList.getD (r / 64) 0) (r % 64)

/-- One arrival of a core at barrier b (R304, R306): sent, or recorded as released with FAIL in order. -/
def Core.arrive (c : Core) (b : BitVec 8) (ok : Bool) : Core :=
  let out := (c.barOut.filter (fun a => a.sent || a.rel.isNone)).length
  let gen := look c.barGen b.toNat 0
  let c := { c with barArr := c.barArr + 1 }
  if ok && out < 4 then
    { c with barOut := c.barOut ++ [⟨b, gen, false, none⟩], barGen := put c.barGen b.toNat (gen + 1) }
  else ({ c with barOut := c.barOut ++ [⟨b, gen, false, some true⟩] } : Core).deliverBarriers

/-- Core l's arrival that is not yet sent goes to its die's barrier unit (R305). -/
def State.sendArrival (s : State) (l b : Nat) : State := s.tellNode (s.physOf l) (dieUnit (physDie (s.physOf l))) l .arrive b

/-- Core l arrives at barrier b: its message goes to its die's barrier unit, unless the arrival is not sent (R305, R306). -/
def State.arriveAt (s : State) (l b : Nat) : State :=
  let c := (s.core l).arrive (BitVec.ofNat 8 b) (s.mayArrive l b)
  let s' := s.setCore l c
  if look c.barGen b 0 != look (s.core l).barGen b 0 then s'.sendArrival l b
  else s'

/-- BARA (R304, R306): arrives at barrier imm32[7:0] without holding issue. -/
def execBara (c : CoreId) (f : FmtC) (s : State) : Answer :=
  let l := c.toNat
  .next (s.issue l (encC 0x46 f) none (fun _ => [(cBad f false false 8, causeIllegal)]) (fun _ => false) Core.fall
    (fun t => t.arriveAt l (fld f.imm 0 8)))

/-- TRAP (R119): the program fault TRAP with code imm32[15:0]. -/
def execTrap (c : CoreId) (f : FmtC) (s : State) : Answer :=
  .next (s.issue c.toNat (encC 0x47 f) (some (fld f.imm 0 16)) (fun _ => [(cBad f false false 16, causeIllegal)])
    (fun _ => false) Core.fall id)

/-- RESERVED_OPCODE (R100): a word whose opcode is reserved raises ILLEGAL and has no effect. -/
def execReservedOpcode (c : CoreId) (w : Word) (s : State) : Answer :=
  .next (if opcodeAssigned (fld w 56 8) then s
    else s.issue c.toNat w none (fun _ => [(true, causeIllegal)]) (fun _ => false) Core.fall id)

end Sys2Proof.Machine
end

