-- ==== Sys2Proof/Machine/HostRows.lean ====
section
/-! DEFINITION. Machine/HostRows.lean: BAR0 and what the host does through it (R346 to R360), the fetch of submissions with
the first checks of R364, the HDM window (R349, R350), the CXL ports (R343 to R345, R347), DOE and IDE (R440, R447, R448). -/

namespace Sys2Proof.Machine

/-! ## HST_ registers (R347) -/

/-- STATE's code. -/
def HState.code : HState → Nat
  | .firmware => 1
  | .mgmt => 2
  | .ready => 3
  | .halted => 4

/-- HST_ID. -/
def State.hstId (s : State) : Word :=
  at64 8 8 Config.stepping.toNat ||| at64 0 8 (match s.grade with
    | .a => 0x41
    | .s => 0x53)

/-- The host window is open: it takes accesses (R348). -/
def State.hwinOpen (s : State) : Bool :=
  s.host.hwinEn && s.host.state != .firmware && s.host.state != .halted &&
    (!s.hostUp || s.host.ports.toList.any (fun p => p.carries && p.busMaster))

/-- HST_STATUS. HWIN_ON reads 1 while the window takes accesses, and not for HWIN_EN alone (DEDUCED, log 113). -/
def State.hstStatus (s : State) : Word :=
  flag64 17 s.host.hdmValid ||| flag64 16 s.hwinOpen ||| at64 0 4 s.host.state.code

/-- HST_PORT_STAT. -/
def CxlPort.stat (p : CxlPort) : Word :=
  at64 32 12 p.pid.toNat ||| at64 8 4 p.speed.toNat ||| at64 4 4 p.width.toNat ||| flag64 0 p.carries

/-- A CXL port is present in the grade (R4). -/
def cxlExists (g : Grade) (p : Nat) : Bool :=
  match g with
  | .a => p < 2
  | .s => p == 0

/-- CXL port p. -/
def State.cxl (s : State) (p : Nat) : CxlPort := (s.host.ports[p]?).getD {}

/-- Writes CXL port p. -/
def State.setCxl (s : State) (p : Nat) (x : CxlPort) : State :=
  { s with host := { s.host with ports := s.host.ports.setIfInBounds p x } }

/-- MBX_RING_CFG. -/
def Ring.cfgWord (r : Ring) : Word :=
  flag64 63 r.en ||| flag64 62 r.port ||| at64 52 4 r.sqLog2 ||| at64 48 4 r.cqLog2 ||| at64 24 16 r.intDelay |||
    at64 16 8 r.intCount

/-- IDLE. -/
def Ring.idle (r : Ring) : Bool := !r.en && r.inflight == 0

/-- MBX_RING_STAT. -/
def Ring.statWord (r : Ring) : Word :=
  at64 40 12 r.sqHead ||| at64 28 12 r.cqTail ||| at64 15 13 r.inflight ||| flag64 1 r.idle ||| flag64 0 r.refused

/-- A ring register by its offset. -/
def Ring.reg (r : Ring) (o : Nat) : Word :=
  match o with
  | 0x00 => r.sqBase
  | 0x08 => r.cqBase
  | 0x10 => r.cfgWord
  | 0x18 => r.statWord
  | 0x20 => at64 0 16 r.err.toNat
  | 0x28 => at64 0 12 r.sqAck
  | _ => 0

/-- A register or word of BAR0 (R346); offsets it does not define read as zero, as do write-only registers. The pending-bit
array shows the interrupts that wait for a port (R345; DESIGN CHOICE, log 134). -/
def State.bar0Reg (s : State) (x : Nat) : Word :=
  let h := s.host
  if x < 0x1000 then BitVec.ofNat 64 (ofBytes (getBytes h.boot x 8))
  else if x = 0x1008 then flag64 1 h.bootBusy ||| flag64 0 h.bootDone
  else if 0x1100 ≤ x && x < 0x1500 then (s.ring (BitVec.ofNat 4 ((x - 0x1100) / 0x40))).reg ((x - 0x1100) % 0x40)
  else if 0x18000 ≤ x && x < 0x18110 then look h.msix x 0
  else match x with
  | 0x19000 => BitVec.ofNat 64 (h.heldIrqs.foldl (fun n v => n ||| 2 ^ v.toNat) 0)
  | 0x10000 => s.hstId
  | 0x10008 => s.hstStatus
  | 0x10010 => BitVec.ofNat 64 h.heartbeat
  | 0x10018 => flag64 0 h.hwinEn
  | 0x10020 => (s.cxl 0).stat
  | 0x10028 => (s.cxl 1).stat
  | 0x10040 => flag64 63 h.hdmValid ||| at64 0 6 h.hdmHalf.toNat
  | 0x10048 => at64 48 16 h.errAlign.toNat ||| at64 32 16 h.errDbell.toNat ||| at64 16 16 h.errTagdup.toNat |||
      at64 0 16 h.errHdmPois.toNat
  | _ => 0

/-! ## Submissions (R355, R358, R364, R365, R367) -/

/-- The fields of a submission's 128 bytes. -/
def readSubmission (bs : List Byte) : Submission :=
  let w := fun k => BitVec.ofNat 64 (ofBytes ((bs.drop (8 * k)).take 8))
  let w0 : Word := w 0
  let w3 : Word := w 3
  { opcode := BitVec.ofNat 16 (fld w0 0 16), inline := bit w0 28, tag := BitVec.ofNat 12 (fld w0 16 12),
    zero0 := fld w0 29 3 == 0 && fld w0 33 31 == 0, zero3 := fld w3 32 32 == 0, htimeV := bit w0 32,
    hostTime := w 1, buf := w 2, bufLen := BitVec.ofNat 32 (fld w3 0 32),
    args := Vector.ofFn (fun (i : Fin 12) => w (4 + i.val)) }

/-- HST_STATUS.STATE permits an opcode (R365). -/
def HState.permits (h : HState) (op : Nat) : Bool :=
  let fw := [0x01, 0x02, 0x03, 0x05, 0x06, 0x53, 0x51]
  match h with
  | .firmware => fw.contains op
  | .mgmt => fw.contains op || [0x04, 0x07, 0x54, 0x50, 0x52].contains op
  | .ready => true
  | .halted => op == 0x01 || op == 0x02

/-- The command names a region in A0[7:0] (R369). -/
def opNamesRegion (op : Nat) : Bool := (0x10 ≤ op && op ≤ 0x18) || op == 0x22 || op == 0x35

/-- Counts a doorbell dropped. -/
def State.dropBell (s : State) : State :=
  { s with host := { s.host with errDbell := BitVec.ofNat 16 (satInc 16 s.host.errDbell.toNat) } }

/-- The HOST_TIME of a submission taken from ring q, or from the boot mailbox, is logged (R51, R367). -/
def State.logHostTime (s : State) (b : Submission) (boot : Bool) (q : RingId) : State :=
  if b.htimeV then
    s.logEvent { code := rcHostTime, srcKind := 9, srcId := 0, tag := if boot then none else some b.tag } b.hostTime
      (BitVec.ofNat 64 s.nemar.usec) (if boot then 16 else BitVec.ofNat 64 q.toNat) 0
  else s

/-- A fetched submission joins the commands in flight, its HOST_TIME is logged (R367), and the checks that no command's
own fields decide are made: opcode, BOOT_LONG (R351), STATE and the zero fields of the header (R364). -/
def State.checkIn (s : State) (b : Submission) (ref : CmdRef) (q : RingId) : State :=
  let op := b.opcode.toNat
  let boot := ref == .boot
  let c : Command := { sub := b, ref := ref, ring := q, fetchUsec := s.nemar.usec,
                       region := if opNamesRegion op then BitVec.ofNat 8 (fld (b.arg 0) 0 8) else 0 }
  let s := ({ s with nemar := { s.nemar with cmds := s.nemar.cmds ++ [c] } } : State).logHostTime b boot q
  if !isKnownOp op then s.refuse ref stUnknownOpcode (r1Word 0)
  else if boot && isLongOp op then s.refuse ref stBootLong (r1Word 0)
  else if !s.host.state.permits op then s.refuse ref stBadState (r1Word 0)
  else if !b.zero0 || (!boot && b.inline) then s.refuse ref stBadField (r1Word 0)
  else if !b.zero3 then s.refuse ref stBadField (r1Word 3)
  else s

/-- Commands in flight by tag (R358); the boot command takes none. -/
def State.tagsHeld (s : State) : Nat :=
  (s.nemar.cmds.filter (fun c => c.ref != .boot)).length + s.nemar.finished.length

/-- The tag is in flight or held (R358, R387). -/
def State.tagBusy (s : State) (t : BitVec 12) : Bool :=
  s.nemar.cmds.any (fun c => c.ref == .tag t) || s.nemar.finished.any (fun f => f.cmd.ref == .tag t)

/-- CQ entries an opcode owes (R359). -/
def opDebt (op : Nat) : Nat := if isLongOp op then 2 else 1

/-- The submission at a ring's SQ head. -/
def State.headSubmission (s : State) (q : RingId) : Submission :=
  let r := s.ring q
  readSubmission (s.hostRead (r.sqBase.toNat + 128 * r.sqHead) 128)

/-- The CXL port that serves a ring: the one that PORT names, or the other while that one does not carry traffic (R345,
R352). -/
def State.ringPort (s : State) (q : RingId) : Option Nat :=
  let p := b2n (s.ring q).port
  [p, 1 - p].find? (fun k => (s.cxl k).carries)

/-- The module can fetch from a ring (R351, R358, R359). -/
def State.canFetch (s : State) (q : RingId) : Bool :=
  let r := s.ring q
  (s.ringPort q).isSome && (s.host.state == .mgmt || s.host.state == .ready) && r.en && r.sqHead != r.sqTail &&
    s.tagsHeld < Config.tagsInFlight && r.owed + opDebt (s.headSubmission q).opcode.toNat ≤ 2 ^ r.cqLog2 - r.cqUsed

/-- How many rings' turns come before a ring's. -/
def State.turnOf (s : State) (q : Nat) : Nat := (q + 15 - s.host.lastRing) % 16

/-- It is the ring's turn: of the rings that the module can fetch from, it comes first after the one served last (R359). -/
def State.mayFetch (s : State) (q : RingId) : Bool :=
  s.canFetch q && (List.range 16).all (fun k => s.turnOf q.toNat ≤ s.turnOf k || !s.canFetch (BitVec.ofNat 4 k))

/-- SUBMISSION_FETCH (R358, R359, R364, R367). -/
def execSubmissionFetch (q : RingId) (s : State) : Answer :=
  .next (if s.mayFetch q then
      let r := s.ring q
      let b := s.headSubmission q
      let head := if r.sqHead + 1 == 2 ^ r.sqLog2 then 0 else r.sqHead + 1
      let s := { s with host := { s.host with lastRing := q.toNat } }
      if s.tagBusy b.tag then
        let s := (s.setRing q { r with sqHead := head, owed := r.owed + 1 }).logHostTime b false q
        let s := { s with host := { s.host with errTagdup := BitVec.ofNat 16 (satInc 16 s.host.errTagdup.toNat) } }
        s.writeCq q { status := stTagBusy, dup := true } b.tag
      else
        (s.setRing q { r with sqHead := head, inflight := r.inflight + 1, owed := r.owed + opDebt b.opcode.toNat }).checkIn
          b (.tag b.tag) q
    else s)

/-! ## Doorbells and rings -/

/-- A write of MBX_BOOT_DB (R351). -/
def State.bootBell (s : State) (v : Word) : State :=
  if !bit v 0 then s
  else if s.host.bootBusy then s.dropBell
  else ({ s with host := { s.host with bootBusy := true } } : State).checkIn (readSubmission (getBytes s.host.boot 0 128))
    .boot 0

/-- A write of an SQ tail doorbell (R354, R361). -/
def State.sqBell (s : State) (q : RingId) (t : Word) : State :=
  let r := s.ring q
  if !r.en || 2 ^ r.sqLog2 ≤ t.toNat then s.dropBell else s.setRing q { r with sqTail := t.toNat, sqAck := t.toNat }

/-- CQ entries a head of h releases: up to h − 1, which is every entry when a full CQ is released whole (R354). -/
def Ring.releases (r : Ring) (h : Nat) : Nat :=
  let n := (h + 2 ^ r.cqLog2 - r.cqHead) % 2 ^ r.cqLog2
  if n = 0 && r.cqUsed = 2 ^ r.cqLog2 then r.cqUsed else n

/-- A write of a CQ head doorbell (R354). -/
def State.cqBell (s : State) (q : RingId) (h : Word) : State :=
  let r := s.ring q
  if !r.en || 2 ^ r.cqLog2 ≤ h.toNat || r.cqUsed < r.releases h.toNat then s.dropBell
  else s.setRing q { r with cqHead := h.toNat, cqUsed := r.cqUsed - r.releases h.toNat }

/-- A write of MBX_RING_CFG: its fields are stored; setting EN runs the check of R353, clearing it stops fetching (R359).
A write that leaves EN set is no enable (DEDUCED, log 10). -/
def State.ringCfgWrite (s : State) (q : RingId) (v : Word) : State :=
  let r := s.ring q
  let f := { r with port := bit v 62, sqLog2 := fld v 52 4, cqLog2 := fld v 48 4, intDelay := fld v 24 16,
                    intCount := fld v 16 8 }
  let inRange := fun n => 4 ≤ n && n ≤ 12
  if bit v 63 && !r.en then
    if !inRange f.sqLog2 || !inRange f.cqLog2 || !cxlExists s.grade (b2n f.port) ||
        !(s.host.state == .mgmt || s.host.state == .ready) || !r.idle then
      s.setRing q { f with en := false, refused := true, err := BitVec.ofNat 16 rsRingCfg }
    else
      s.setRing q { f with en := true, refused := false, err := 0, sqHead := 0, cqTail := 0, phase := true, sqTail := 0,
                           cqHead := 0, cqUsed := 0, unsig := 0, sqAck := 0 }
  else s.setRing q { f with en := bit v 63 }

/-- Writing 1 to HST_CTRL.RING_RESET (R360): every ring is disabled and idle, unwritten completions and interrupts are
dropped, and commands already fetched run on with their completions dropped; the outcome of one whose completion was held is
kept for RESYNC. -/
def State.resetRings (s : State) : State :=
  let waiting := fun (q : Nat) => (s.host.held.filter (fun h =>
    h.ring == some (BitVec.ofNat 4 q) && ((heldCompletion h.bytes).1.long || (heldCompletion h.bytes).1.dup))).length
  let rings := Vector.ofFn (fun (i : Fin 16) =>
    let r := s.ring (BitVec.ofNat 4 i.val)
    { r with en := false, inflight := 0, unsig := 0, droppedCount := r.droppedCount + r.owed,
             owed := r.owed - waiting i.val, sqTail := r.sqHead })
  let out := fun (c : Command) => ((s.host.held.map (fun h => heldCompletion h.bytes)).find? (fun x =>
    c.ref == .tag x.2 && !x.1.long && !x.1.dup)).map (fun x => (⟨c, x.1.status⟩ : Finished))
  { s with
    host := { s.host with rings := rings, heldIrqs := [], held := s.host.held.filter (fun h => h.ring.isNone) }
    nemar := { s.nemar with
      cmds := (s.nemar.cmds.filter (fun c => !c.ended)).map (fun c => if c.ref == .boot then c else { c with dropped := true })
      finished := s.nemar.finished ++ (s.nemar.cmds.filter (fun c => c.ended)).filterMap out } }

/-- HST_CTRL.HWIN_EN (R348). -/
def State.setHwin (s : State) (en : Bool) : State := { s with host := { s.host with hwinEn := en } }

/-- A 64-bit write of BAR0 (R346, R347, R351 to R354): each register by its own behaviour; the rest ignore it. -/
def State.bar0Write (s : State) (x : Nat) (v : Word) : State :=
  if x < 0x1000 then { s with host := { s.host with boot := setBytes s.host.boot x (toBytes 8 v.toNat) } }
  else if x = 0x1000 then s.bootBell v
  else if x = 0x1008 then (if bit v 0 then { s with host := { s.host with bootDone := false } } else s)
  else if 0x1100 ≤ x && x < 0x1500 then
    let q := BitVec.ofNat 4 ((x - 0x1100) / 0x40)
    let r := s.ring q
    let base := v &&& ~~~(0xFFF : Word)
    match (x - 0x1100) % 0x40 with
    | 0x00 => if r.idle then s.setRing q { r with sqBase := base } else s
    | 0x08 => if r.idle then s.setRing q { r with cqBase := base } else s
    | 0x10 => s.ringCfgWrite q v
    | _ => s
  else if 0x2000 ≤ x && x < 0x2100 then
    let q := BitVec.ofNat 4 ((x - 0x2000) / 0x10)
    if x % 0x10 = 0 then s.sqBell q v else s.cqBell q v
  else if x = 0x10018 then
    let s := s.setHwin (bit v 0)
    if bit v 1 then s.resetRings else s
  else if x = 0x10040 then { s with host := { s.host with hdmHalf := BitVec.ofNat 6 (fld v 0 6) } }
  else if 0x18000 ≤ x && x < 0x18110 then { s with host := { s.host with msix := put s.host.msix x v } }
  else s

/-- BOOT_DOORBELL (R351). -/
def execBootDoorbell (v : Word) (s : State) : Answer := .next (s.bootBell v)

/-- SQ_TAIL_DOORBELL (R354). -/
def execSqTailDoorbell (q : RingId) (t : Word) (s : State) : Answer := .next (s.sqBell q t)

/-- CQ_HEAD_DOORBELL (R354). -/
def execCqHeadDoorbell (q : RingId) (h : Word) (s : State) : Answer := .next (s.cqBell q h)

/-- RING_ENABLE (R353). -/
def execRingEnable (q : RingId) (v : Word) (s : State) : Answer := .next (s.ringCfgWrite q v)

/-- RING_STOP (R359). -/
def execRingStop (q : RingId) (v : Word) (s : State) : Answer := .next (s.ringCfgWrite q v)

/-- RING_RESET (R360). -/
def execRingReset (s : State) : Answer := .next s.resetRings

/-- HWIN_EN (R348). -/
def execHwinEn (en : Bool) (s : State) : Answer := .next (s.setHwin en)

/-- REGISTER_WRITE (R346): a host write of BAR0, or a read (`v` none), whose answer is kept; one of another size or alignment
is counted and has no effect, and such a read returns all ones. -/
def execRegisterWrite (off : BitVec 17) (bytes : BitVec 4) (v : Option Word) (s : State) : Answer :=
  let bad := bytes != 8 || off.toNat % 8 != 0
  let s := if bad then { s with host := { s.host with errAlign := BitVec.ofNat 16 (satInc 16 s.host.errAlign.toNat) } } else s
  .next (match v with
    | some v => if bad then s else s.bar0Write off.toNat v
    | none => { s with host := { s.host with bar0Answer := if bad then allOnes else s.bar0Reg off.toNat } })

/-- INT_DELAY_EXPIRE (R352): INT_DELAY µs after the oldest unsignalled completion. -/
def execIntDelayExpire (q : RingId) (s : State) : Answer :=
  let r := s.ring q
  .next (if 0 < r.unsig && r.unsigUsec + r.intDelay ≤ s.nemar.usec then
      (s.setRing q { r with unsig := 0 }).raiseIrq q.toNat
    else s)

/-! ## The HDM window (R349, R350) -/

/-- First byte the HDM window maps. -/
def hdmBase (half : BitVec 6) : Nat := 0x040000000000 + half.toNat * 0x1000000000

/-- Stack S(k) answers accesses: present, not failed, its die up (R13, R349, R388). -/
def State.stackUp (s : State) (k : Nat) : Bool :=
  stackExists s.grade k && !(look s.plant.dram k ({} : Stack)).failed && !s.plant.dieOut.contains (k / 2)

/-- HDM_DECODER_COMMIT (R349). -/
def execHdmDecoderCommit (s : State) : Answer :=
  let h := s.host.hdmHalf
  .next (if s.host.state == .ready && stackExists s.grade (h.toNat / 2) && h != 5 then
      { s with host := { s.host with hdmValid := true, hdmError := false, hdmMap := h } }
    else { s with host := { s.host with hdmValid := false, hdmError := true } })

/-- An undefined line of 64 bytes: free values (log 2). -/
def freeLine64 (k : Nat) : BitVec 512 :=
  (List.range 8).foldl (fun w i => (w <<< 64) ||| (Config.freeWord (k + i)).zeroExtend 512) 0

/-- The snoop filter of a line's edge agent records it as host-held, back-invalidating its oldest entry when full (R350). -/
def State.hostHolds (s : State) (a : Nat) : State :=
  let e := a / 4096 % 4
  let old := ((s.host.snoop[e]?).getD []).filter (fun k => k != a / 64)
  let full := decide (262144 ≤ old.length)
  { s with host := { s.host with
      snoop := s.host.snoop.setIfInBounds e ((if full then old.drop 1 else old) ++ [a / 64])
      bisnpInv := s.host.bisnpInv + b2n full } }

/-- The CXL port that host-window and HDM traffic of a line travels on: a[12] with both up, else the one that is up (R344). -/
def State.linePort (s : State) (a : Nat) : Option Nat := [a / 4096 % 2, 1 - a / 4096 % 2].find? (fun k => (s.cxl k).carries)

/-- HOST_SNOOP (R343): answered RspI. -/
def execHostSnoop (_a : BitVec 64) (s : State) : Answer :=
  .next { s with host := { s.host with rspI := s.host.rspI + 1 } }

/-! ## CXL ports (R345, R392, R448) -/

/-- An IDE stream that was secure is so no more (R392). -/
def CxlPort.leaves (old x : CxlPort) : Bool := (old.io.secure && !x.io.secure) || (old.cachemem.secure && !x.cachemem.secure)

/-- Changes a CXL port and logs PORT_STATE where HST_PORT_STAT changes or its streams leave secure (R392, R448). -/
def State.portChange (s : State) (p : Nat) (x : CxlPort) : State :=
  let old := s.cxl p
  let s := s.setCxl p x
  if x.stat = old.stat && !old.leaves x then s
  else s.logEvent { code := rcPortState, srcKind := 6, srcId := p } x.stat old.stat (flag64 0 (old.leaves x)) 0

/-- CXL_PORT_DOWN (R345). -/
def execCxlPortDown (p : BitVec 1) (s : State) : Answer :=
  .next (if cxlExists s.grade p.toNat then
      s.portChange p.toNat { s.cxl p.toNat with up := false, speed := 0, width := 0 }
    else s)

/-- The edge die of a CXL port is lost, and the port with it (R11, R454): port 0 is on EN, port 1 on ES. -/
def State.cxlLost (s : State) (p : Nat) : Bool := (s.plant.edgeLost[2 * p]?).getD false

/-- A speed and a width that a link trains to (R343, R347): 32 or 64 GT/s, 8 or 16 lanes. -/
def cxlTrains (speed width : BitVec 4) : Bool := (speed == 5 || speed == 6) && (width == 2 || width == 4)

/-- CXL_PORT_UP (R345): held completions and interrupts are released. The PCI Bus Master Enable of R348 is the host's to set,
and what it sets is a free value (DESIGN CHOICE, log 135). -/
def execCxlPortUp (p : BitVec 1) (speed width : BitVec 4) (pid : BitVec 12) (s : State) : Answer :=
  .next (if cxlExists s.grade p.toNat && !s.cxlLost p.toNat && s.plant.powerGood && cxlTrains speed width then
      ({ s with free := s.free + 1 }.portChange p.toNat { s.cxl p.toNat with
        up := true, speed := speed, width := width, pid := pid
        presets := s.calRun 3 (256 + 16 * p.toNat) 16, busMaster := bit (Config.freeByte s.free) 0 }).releaseHeld
    else s)

/-- A stream after a failure. -/
def IdeState.failed (x : IdeState) : IdeState := { x with keys := false, secure := false, lost := x.lost || x.keys }

/-- IDE_FAILURE (R448): the port's streams become insecure, and it counts as down until the host re-keys it. -/
def execIdeFailure (p : BitVec 1) (s : State) : Answer :=
  .next (if cxlExists s.grade p.toNat then
      let x := s.cxl p.toNat
      s.portChange p.toNat { x with io := x.io.failed, cachemem := x.cachemem.failed, ideFailed := true }
    else s)

/-- A stream of a port. -/
def CxlPort.stream (p : CxlPort) : IdeStream → IdeState
  | .io => p.io
  | .cachemem => p.cachemem

/-- Writes a stream of a port. -/
def CxlPort.setStream (p : CxlPort) (k : IdeStream) (x : IdeState) : CxlPort :=
  match k with
  | .io => { p with io := x }
  | .cachemem => { p with cachemem := x }

/-- Keys for a stream; a port whose streams have all been keyed again after a failure is up again (R448). -/
def CxlPort.rekeyed (p : CxlPort) (k : IdeStream) : CxlPort :=
  let q := p.setStream k { p.stream k with keys := true, lost := false }
  { q with ideFailed := q.ideFailed && (q.io.lost || q.cachemem.lost) }

/-- A message that needs an earlier step is answered when that has been made, else refused (log 60). -/
def CxlPort.after (p : CxlPort) (ready : Bool) (q : CxlPort) (a : DoeAnswer) : CxlPort × DoeAnswer :=
  if ready then (q, a) else (p, .unexpectedRequest)

/-- What a DOE request to port n does to it, and its answer (R343, R440, R447): version, capabilities and algorithms are
negotiated in this order, a key exchange needs them, FINISH an open exchange, IDE_KM a session, a secure stream keys. -/
def CxlPort.doeAnswer (p : CxlPort) (n : Nat) : DoeMessage → CxlPort × DoeAnswer
  | .cdat => (p, .cdat ((List.range Config.cdatLen).map (Config.cdatByte n)))
  | .spdmVersion => ({ p with spdm := 1, kex := false }, .version 1 2)
  | .spdmCapabilities => p.after (1 ≤ p.spdm) { p with spdm := Nat.max 2 p.spdm } .capabilities
  | .spdmAlgorithms => p.after (2 ≤ p.spdm) { p with spdm := 3 } .algorithms
  | .spdmDigests => p.after (3 ≤ p.spdm) p (.digests ((List.range 48).map Config.slotDigestByte))
  | .spdmCertificate => p.after (3 ≤ p.spdm) p (.certificate ((List.range Config.slotCertLen).map Config.slotCertByte))
  | .spdmKeyExchange => p.after (3 ≤ p.spdm) { p with kex := true, exchanges := p.exchanges + 1 }
      (.keyExchange ((List.range 96).map (Config.sessionSignByte (2 * p.exchanges + n))))
  | .spdmFinish => p.after p.kex { p with kex := false, session := true } .finish
  | .spdmUnsupported => (p, .unsupportedRequest)
  | .ideKeyProgram k => p.after p.session (p.rekeyed k) (.keysProgrammed k)
  | .ideSetSecure k c => p.after (p.session && (p.stream k).keys)
      (p.setStream k { p.stream k with secure := true, containment := c && k == .cachemem }) (.nowSecure k)

/-- DOE_REQUEST (R343, R440, R447, R448). -/
def execDoeRequest (p : BitVec 1) (m : DoeMessage) (s : State) : Answer :=
  let x := s.cxl p.toNat
  .next (if cxlExists s.grade p.toNat && x.up then
      let y := x.doeAnswer p.toNat m
      (s.portChange p.toNat { y.1 with doe := x.doe ++ [(m, y.2)] }).releaseHeld
    else s)

end Sys2Proof.Machine
end

