-- ==== Sys2Proof/Machine/Tiles.lean ====
section
/-! DEFINITION. Machine/Tiles.lean: the geometry of an address generator (R188 to R190, R193, R242): dimensions, runs of a
tile, where each run begins, and the entries a tile occupies. -/

namespace Sys2Proof.Machine

/-- COUNT of dimension d, 1 to 4. -/
def AddrGen.dimCount (a : AddrGen) (d : Nat) : Nat := fld (a.dims.toList.getD (d - 1) 0) 40 24

/-- STRIDE of dimension d. -/
def AddrGen.stride (a : AddrGen) (d : Nat) : Int := toSigned 40 (fld (a.dims.toList.getD (d - 1) 0) 0 40)

/-- The outermost dimension (R188). -/
def AddrGen.outer (a : AddrGen) : Nat :=
  if a.dimCount 4 != 0 then 4 else if a.dimCount 3 != 0 then 3 else if a.dimCount 2 != 0 then 2 else 1

/-- Iterations of dimension d in a pass: a nonzero count of the pass replaces that of the outermost dimension (R193). -/
def AddrGen.count (a : AddrGen) (cnt d : Nat) : Nat :=
  if d = a.outer && cnt != 0 then cnt else Nat.max 1 (a.dimCount d)

/-- The product of the iterations of dimensions lo to hi. -/
def AddrGen.product (a : AddrGen) (cnt lo hi : Nat) : Nat :=
  ((rangeFrom lo (hi + 1 - lo)).map (a.count cnt)).foldl (· * ·) 1

/-- Runs of a tile (R189). -/
def AddrGen.tileRuns (a : AddrGen) (cnt : Nat) : Nat := a.product cnt 1 (a.tdim - 1)

/-- Tiles of a pass. -/
def AddrGen.passTiles (a : AddrGen) (cnt : Nat) : Nat := a.product cnt a.tdim 4

/-- Tiles of one iteration of the outermost dimension. -/
def AddrGen.outerTiles (a : AddrGen) (cnt : Nat) : Nat := a.product cnt a.tdim (a.outer - 1)

/-- Bytes a run takes in the entries: RUN, or its slot (R189). -/
def AddrGen.slotBytes (a : AddrGen) : Nat := if a.slotCode = 0 then a.run else 2 ^ (a.slotCode + 3)

/-- Offset that the indices of tile t, run k of it give, the index of dimension 1 apart (R188). -/
def AddrGen.runOffset (a : AddrGen) (cnt t k : Nat) (from_ : Nat) : Int :=
  let n := k + t * a.tileRuns cnt
  ((rangeFrom from_ (5 - from_)).map (fun d =>
    (((n / a.product cnt 1 (d - 1)) % a.count cnt d : Nat) : Int) * a.stride d)).foldl (· + ·) 0

/-- Address of run k of tile t of a pass; `x` is the index that replaces i_1 in INDEX mode (R190). -/
def AddrGen.runAddr (a : AddrGen) (p : Pass) (t k : Nat) (x : Option Nat) : Nat :=
  let base : Int := (fld a.base 0 48 : Nat)
  addrOf (match x with
    | none => base + p.off + a.runOffset p.cnt t k 1
    | some i => base + p.off + (i : Int) * a.stride 1 + a.runOffset p.cnt t k 2)

/-- LIMIT. -/
def AddrGen.limit (a : AddrGen) : Nat := fld a.idx 0 32
/-- LBASE. -/
def AddrGen.lbase (a : AddrGen) : Nat := fld a.land 32 15
/-- LSIZE. -/
def AddrGen.lsize (a : AddrGen) : Nat := fld a.land 0 15

/-! ## The landing area (R186, R195) -/

/-- The line after those that hold entries: the area's lines are taken in turn (the order is a DESIGN CHOICE, log 63). -/
def AddrGen.landLine (a : AddrGen) : Nat :=
  match a.landed.getLast? with
  | none => a.lbase
  | some x => a.lbase + (x + 1 - a.lbase) % Nat.max 1 a.lsize

/-- The landed entries of generator g of core l as the slice holds them. -/
def State.readLanded (s : State) (l g : Nat) : State :=
  let c := s.core l
  let a := c.gen g
  if a.landed.isEmpty then s
  else s.setCore l (c.setGen g { a with
    fq := a.fq.take (a.fq.length - a.landed.length) ++ a.landed.map (fun x => s.spillEntry l ⟨x, false, false⟩) })

/-- An entry of generator g of core l is written to the next line of the landing area. -/
def State.land (s : State) (l g : Nat) (e : Entry) : State :=
  let c := s.core l
  let a := c.gen g
  (s.setCore l (c.setGen g { a with landed := a.landed ++ [a.landLine] })).writeMem (sliceBase l + 128 * a.landLine) e.bytes

/-- The fresh entries of generator g of core l take their places: the buffer while it has room and no entry is landed, else the
landing area; landed entries have moved up as those before them went. -/
def State.settleLanded (s : State) (l g : Nat) : State :=
  let c := s.core l
  let a := c.gen g
  if a.fresh = 0 && a.landed.isEmpty then s
  else
    let old := a.fq.length - a.fresh
    let kept := a.landed.drop (a.landed.length - (old - Config.fqEntries))
    let room := if kept.isEmpty then Config.fqEntries - old else 0
    let out := if a.lsize = 0 then [] else (a.fq.drop old).drop room
    out.foldl (fun (t : State) e => t.land l g e) (s.setCore l (c.setGen g { a with landed := kept, fresh := 0 }))

/-- What takes entries from fetch queues of core l or brings it some: their landed entries are read from the slice, and find
their places in it. -/
def State.landing (s : State) (l : Nat) (f : State → State) : State :=
  (List.range 4).foldl (fun (t : State) g => t.settleLanded l g)
    (f ((List.range 4).foldl (fun (t : State) g => t.readLanded l g) s))

/-! ## The activation packer (R237, R241) -/

/-- P_EN. -/
def Packer.pEn (p : Packer) : Bool := bit p.cfg 15
/-- P_GEN. -/
def Packer.pGen (p : Packer) : Nat := fld p.cfg 13 2
/-- P_KIND. -/
def Packer.pKind (p : Packer) : Nat := fld p.cfg 11 2
/-- P_UFMT. -/
def Packer.pFp32 (p : Packer) : Bool := bit p.cfg 10
/-- U_EN. -/
def Packer.uEn (p : Packer) : Bool := bit p.cfg 7
/-- U_GEN. -/
def Packer.uGen (p : Packer) : Nat := fld p.cfg 5 2
/-- U_KIND. -/
def Packer.uKind (p : Packer) : Nat := fld p.cfg 3 2
/-- U_UFMT. -/
def Packer.uFp32 (p : Packer) : Bool := bit p.cfg 2

/-- Unpacked entries of a frame. -/
def frameEntries (fp32 : Bool) : Nat := if fp32 then 128 else 64

/-- Bytes of a frame of a kind (R236). -/
def frameBytes (kind : Nat) : Nat := if kind = 2 then 512 else 4224

/-- Generator g feeds the unpack channel. -/
def Core.unpacks (c : Core) (g : Nat) : Bool := c.pk.uEn && c.pk.uGen == g

/-- Generator g is fed by the pack channel. -/
def Core.packs (c : Core) (g : Nat) : Bool := c.pk.pEn && c.pk.pGen == g

/-- E_tile of generator g (R189, R242). -/
def Core.tileEntries (c : Core) (g cnt : Nat) : Nat :=
  let a := c.gen g
  if c.unpacks g then a.tileRuns cnt * frameEntries c.pk.uFp32 else ceilDiv (a.tileRuns cnt * a.slotBytes) 128

end Sys2Proof.Machine
end

