-- ==== Sys2Proof/Machine/Csr.lean ====
section
/-! DEFINITION. Machine/Csr.lean: CSR space as the manual lays it out (R24, R26 to R32): the block an address lies in,
what every register reads as, the checks of R28 and R29, and the writes that are accepted (R370, R380). -/

namespace Sys2Proof.Machine

/-- Where an address of CSR space lies (R26): a block, its index, an offset. The MBX_ and HST_ blocks are BAR0 (R346). -/
inductive CsrTarget where
  | mod (o : Nat)
  | bar0 (x : Nat)
  | zl (e o : Nat)
  | rgn (r o : Nat)
  | die (d o : Nat)
  | core (l o : Nat)
  | phys (p o : Nat)
  | absent
  deriving DecidableEq, Repr

/-- The block of an address (R26). -/
def csrTarget (a : Nat) : CsrTarget :=
  let b := 0x080000000000
  if a < b then .absent
  else if a < b + 0x10000 then .mod (a - b)
  else if a < b + 0x30000 then .bar0 (a - b - 0x10000)
  else if a < b + 0x100000 then .absent
  else if a < b + 0x140000 then .zl ((a - b - 0x100000) / 0x10000) ((a - b) % 0x10000)
  else if a < b + 0x1000000 then .absent
  else if a < b + 0x1100000 then .rgn ((a - b - 0x1000000) / 0x1000) ((a - b) % 0x1000)
  else if a < b + 0x100000000 then .absent
  else if a < b + 0x101000000 then .die ((a - b - 0x100000000) / 0x100000) ((a - b) % 0x100000)
  else if a < b + 0x800000000 then .absent
  else if a < b + 0x880000000 then .core ((a - b - 0x800000000) / 0x20000) ((a - b) % 0x20000)
  else if a < b + 0x900000000 then .absent
  else if a < b + 0x900000000 + 17408 * 0x20000 then .phys ((a - b - 0x900000000) / 0x20000) ((a - b) % 0x20000)
  else .absent

/-- An access to it completes with ADDR_ABSENT (R26, R29). -/
def State.csrAbsent (s : State) : CsrTarget → Bool
  | .absent => true
  | .core l _ => !s.available l
  | _ => false

/-! ## MOD_, ZL_, RGN_ and DIE_ registers -/

/-- A quadrant of a die that exists in the grade. -/
def quadExists (g : Grade) (q : Nat) : Bool := q < 64 && dieExists g (q / 4)

/-- The quadrant exists in the grade and its rail is up; one that returns from an ebb is so from its power-on on (R403). -/
def State.liveQuad (s : State) (q : Nat) : Bool := quadExists s.grade q && (s.quad q).powered

/-- The hottest junction sensor, in 0.01 °C (R456). -/
def Quadrant.hot (q : Quadrant) : Int := q.temps.toList.foldl (fun m t => max m t.toInt) (-32768)

/-- The junction is above T_work (R55). -/
def Quadrant.overWork (q : Quadrant) : Bool := ((100 * q.twork : Nat) : Int) < q.hot

/-- MOD_QSTATE (R58). -/
def State.qstate (s : State) (q : Nat) : Word :=
  let x := s.quad q
  if !quadExists s.grade q then 0
  else if x.ebbed then flag64 51 true
  else
    flag64 50 (x.safetyTemp || x.safetyCur || s.plant.inputLimit) ||| flag64 49 x.conflict ||| flag64 48 x.overWork |||
      at64 40 8 x.tj ||| at64 32 8 x.twork ||| at64 16 8 x.rate ||| at64 0 10 x.vrail

/-- The effective ceiling with f bricks failed, in units of 100 W (R452). -/
def ceilingOf (f : Nat) : Nat := 420 - 9 * (f - 2)

/-- Regions under recovery (R391): those a re-placement holds. -/
def State.recovering (s : State) : Nat := (s.nemar.replacements.flatMap (fun x => x.regions)).length

/-- Weak cores not yet fenced (R391). -/
def State.weakCores (s : State) : Nat := s.nemar.weak.length

/-- Some arrival at barrier b is outstanding (R308). -/
def State.barBusy (s : State) (b : Nat) : Bool :=
  s.cores.any (fun e => e.2.barOut.any (fun x => x.b.toNat == b && x.rel.isNone))

/-- Frames free in a pool. -/
def State.poolOf (s : State) (t : Nat) : NumSet := if t = 0 then s.tiers.pool0 else s.tiers.pool1

/-- Pages whose POISON is 1 (R278). -/
def State.poisonPages (s : State) : Nat := (s.tiers.pt.filter (fun e => bit e.2.w0 56)).length

/-- The migration engine's counters (R278): MOD_MIG_MOVES, moves completed; MOD_MIG_AGAINST, moves against the hint;
MOD_MIG_FAIL, moves abandoned; MOD_MIG_POOL, free frames of the tier-1 and tier-0 pools; MOD_PT_POISON, pages whose POISON is 1
at present. The three counts are 64 bits wide, start from zero at power-on and wrap modulo 2^64. -/
def State.migReg (s : State) (o : Nat) : Word :=
  match o with
  | 0x880 => s.tiers.movesDone
  | 0x888 => s.tiers.against
  | 0x890 => s.tiers.fail
  | 0x898 => at64 32 32 s.tiers.pool1.length ||| at64 0 32 s.tiers.pool0.length
  | 0x8A0 => BitVec.ofNat 64 s.poisonPages
  | _ => 0

/-- The MOD_ block. -/
def State.modReg (s : State) (o : Nat) : Word :=
  let n := s.nemar
  if o % 8 ≠ 0 then 0
  else if 0x1000 ≤ o && o < 0x1200 then (s.quad ((o - 0x1000) / 8)).rateBounds
  else if 0x1200 ≤ o && o < 0x1400 then (s.quad ((o - 0x1200) / 8)).thermBounds
  else if 0x1400 ≤ o && o < 0x1600 then s.qstate ((o - 0x1400) / 8)
  else if 0x2000 ≤ o && o < 0x2200 then ((s.modBar ((o - 0x2000) / 0x20)).set.toList).getD ((o - 0x2000) % 0x20 / 8) 0
  else if 0x2200 ≤ o && o < 0x2280 then
    let j := (o - 0x2200) / 8
    let b := s.modBar j
    flag64 63 b.en ||| flag64 62 (s.barBusy (240 + j)) ||| at64 32 16 b.fails.toNat ||| at64 0 32 b.gen.toNat
  else if 0x2300 ≤ o && o < 0x2380 then (s.modBar ((o - 0x2300) / 8)).fbar
  else if 0x8000 ≤ o then look s.fabric.routes ((o - 0x8000) / 8) 0
  else match o with
  | 0x100 => BitVec.ofNat 64 n.usec
  | 0x108 => at64 0 12 s.fabric.node.toNat
  | 0x110 => at64 0 16 s.fabric.layout.toNat
  | 0x120 => at64 8 8 n.sramLimit.toNat ||| flag64 0 n.auto
  | 0x128 => at64 32 32 n.transient.toNat ||| at64 16 16 n.lasting.toNat ||| at64 8 8 s.recovering |||
      at64 0 8 (Nat.min s.weakCores 255)
  | 0x140 => n.rngSaved
  | 0x148 => n.rngDerived
  | 0x150 => n.rngSavedSeed
  | 0x158 => n.rngDerivedSeed
  | 0x160 => n.rngChk
  | 0x180 => at64 48 6 s.plant.bricksFailed ||| at64 32 16 s.plant.pin.toNat ||| at64 16 16 s.plant.iin.toNat |||
      at64 0 16 s.plant.vin.toNat
  | 0x188 => at64 0 9 (ceilingOf s.plant.bricksFailed)
  | 0x190 => flag64 33 s.plant.pwrAlarm ||| flag64 32 s.plant.dieAlarm ||| at64 24 8 s.plant.cool.pwrOut.toNat |||
      at64 16 8 s.plant.cool.pwrIn.toNat ||| at64 8 8 s.plant.cool.dieOut.toNat ||| at64 0 8 s.plant.cool.dieIn.toNat
  | 0x800 => at64 0 9 s.plant.pcap.toNat
  | 0x840 => s.tiers.bounds
  | _ => s.migReg o

/-- ZL_PORT_STAT.STATE's code (R323). -/
def ZState.code : ZState → Nat
  | .down => 0
  | .training => 1
  | .up8 => 2
  | .up4 => 3
  | .mismatch => 4

/-- A Zoinnath port's record. -/
def State.zport (s : State) (p : Nat) : ZPortState := (s.fabric.ports[p]?).getD {}

/-- Writes a Zoinnath port's record. -/
def State.setZport (s : State) (p : Nat) (x : ZPortState) : State :=
  { s with fabric := { s.fabric with ports := s.fabric.ports.setIfInBounds p x } }

/-- ZL_PORT_STAT. -/
def ZPortState.stat (p : ZPortState) : Word := at64 8 3 p.state.code ||| at64 0 8 p.lanes.toNat

/-- The reducer of edge die e (EN, EE, ES, EW), reducers numbered EN, ES, EE, EW where the grade provides one (R4, R333). -/
def reducerOf (g : Grade) (e : Nat) : Option Nat :=
  match g with
  | .a => if e = 0 then some 0 else if e = 1 then some 2 else if e = 2 then some 1 else if e = 3 then some 3 else none
  | .s => if e = 0 then some 0 else if e = 2 then some 1 else none

/-- A pour slot's word w (R334). -/
def PourSlotState.word (p : PourSlotState) : Nat → Word
  | 0 => p.w0
  | 1 => p.w1
  | 2 => p.w2
  | 3 => p.w3
  | 4 => at64 56 8 p.state.toNat ||| at64 0 32 p.rounds.toNat
  | 5 => p.plines
  | 6 => at64 32 32 p.refused.toNat ||| at64 0 32 p.fails.toNat
  | _ => 0

/-- A ZL_ block. -/
def State.zlReg (s : State) (e o : Nat) : Word :=
  if o % 8 ≠ 0 then 0
  else if o < 0x40 then (s.zport (8 * e + o / 8)).cfg
  else if o < 0x80 then (s.zport (8 * e + (o - 0x40) / 8)).stat
  else if o < 0xC0 then
    let p := s.zport (8 * e + (o - 0x80) / 8)
    at64 32 32 p.retry.toNat ||| at64 16 16 p.lasting.toNat ||| at64 0 16 p.retrain.toNat
  else if o = 0x800 then (s.fabric.eqBounds[e]?).getD 0
  else if 0x4000 ≤ o && o < 0x8000 then
    match reducerOf s.grade e with
    | some i => (s.pourSlot ((o - 0x4000) / 0x40 * reducers s.grade + i)).word (o % 0x40 / 8)
    | none => 0
  else if o = 0xF000 then at64 0 16 ((s.mesh.spray[e]?).getD 0).toNat
  else 0

/-- STATE's code (R66). -/
def RState.code : RState → Nat
  | .free => 0
  | .staged => 1
  | .running => 2
  | .tideline => 3
  | .ebbing => 4
  | .slack => 5
  | .stopping => 6
  | .scanning => 7
  | .saved => 8
  | .flooding => 9
  | .halted => 10
  | .lost => 11

/-- RGN_STATUS (R65). CORES of a STAGED region is that of RGN_RECT as it stands, which is one core before its first REGION_CONFIG
(DEDUCED, log 149). -/
def State.rgnStatus (s : State) (r : Nat) : Word :=
  let g := s.region r
  let cores := if g.state == .free then [] else rectCores g.rect
  let sw :=
    if g.state == .saved || g.state == .flooding then g.switchedThen
    else if g.state.enabled then (cores.filter (fun l => (s.core l).switched)).length else 0
  at64 32 8 g.state.code ||| flag64 31 g.phase ||| flag64 30 g.watch ||| at64 15 15 sw ||| at64 0 15 cores.length

/-- RGN_TIER (R281). -/
def Region.tierWord (g : Region) : Word :=
  at64 48 16 g.tierTimeout.toNat ||| at64 32 16 g.tierPoison.toNat ||| at64 16 16 g.tierFail.toNat |||
    at64 0 16 g.tierIdle.toNat

/-- RGN_CTRL with ENABLE as the state has it (R65, R66). -/
def Region.ctrlWord (g : Region) : Word := setFld g.ctrl 0 1 (b2n g.state.enabled)

/-- A RGN_ set. -/
def State.rgnReg (s : State) (r o : Nat) : Word :=
  let g := s.region r
  if 0x108 ≤ o && o < 0x208 && o % 8 = 0 then g.dlQ.getD ((o - 0x108) / 8) 0
  else if 0x300 ≤ o && o < 0x340 then
    let w := (o - 0x300) / 0x10
    if o % 0x10 = 0 then g.steepExt.toList.getD w 0
    else if o % 0x10 = 8 then setFld (g.steepCtrl.toList.getD w 0) 0 1 (b2n (g.steepConflict.toList.getD w false))
    else 0
  else if 0x340 ≤ o && o < 0x360 && o % 8 = 0 then at64 0 24 (g.steepFront.toList.getD ((o - 0x340) / 8) 0).toNat
  else match o with
  | 0x00 => g.rect
  | 0x08 => g.ctrlWord
  | 0x10 => g.stageScan
  | 0x18 => s.rgnStatus r
  | 0x20 => g.reqWord
  | 0x100 => g.dlCount
  | 0x360 => at64 0 10 g.wdog.toNat
  | 0x368 => g.tierWord
  | _ => 0

/-- The CORE_ block of a physical core that carries no available logical one, the router's registers apart: every register at
its reset value (R29; DEDUCED, log 11). -/
def State.spareReg (s : State) (o : Nat) : Word := ({ grade := s.grade } : State).coreReg 0 o

/-- DIE_STATUS (R31). -/
def State.dieStatus (s : State) (d : Nat) : Word :=
  let ebb := ((List.range 4).map (fun q => if (s.quad (4 * d + q)).ebbed then 2 ^ q else 0)).sum
  let out := ((List.range 32).filter (fun r => (s.row d r).inForceOut)).length
  at64 12 4 ebb ||| at64 3 6 out ||| flag64 2 (!dieExists s.grade d) ||| flag64 1 (s.plant.meshUp.contains d) |||
    flag64 0 (dieExists s.grade d)

/-- DIE_ROWMAP (R32); a row marked out shows its two lowest faulty columns. -/
def Row.mapWord (w : Row) : Word :=
  let shown := if w.inForceOut then w.faults else w.inForce
  let a := shown.head?
  let b := (shown.drop 1).head?
  let rtr := fun (c : Option Nat) => match c with
    | some k => w.routers.contains k
    | none => false
  flag64 31 w.inForceOut ||| at64 18 6 (b.getD 0x3F) ||| at64 12 6 (a.getD 0x3F) ||| flag64 11 (rtr b) |||
    flag64 10 (rtr a) ||| at64 0 2 (if w.inForceOut then 3 else w.inForce.length)

/-- A DIE_ block (R30, R456). -/
def State.dieReg (s : State) (d o : Nat) : Word :=
  if o = 0 then at64 0 4 d
  else if o = 8 then s.dieStatus d
  else if 0x100 ≤ o && o < 0x200 && o % 8 = 0 then (s.row d ((o - 0x100) / 8)).mapWord
  else if 0x1000 ≤ o && o < 0x1020 && o % 8 = 0 then
    let q := s.quad (4 * d + (o - 0x1000) / 8)
    at64 48 16 q.temps[3].toNat ||| at64 32 16 q.temps[2].toNat ||| at64 16 16 q.temps[1].toNat |||
      at64 0 16 q.temps[0].toNat
  else if 0x1020 ≤ o && o < 0x1040 && o % 8 = 0 then
    let q := s.quad (4 * d + (o - 0x1020) / 8)
    at64 32 5 (if q.powered || q.ebbed then q.phases else 0) ||| at64 16 11 q.irail.toNat ||| at64 0 10 q.vrail
  else if 0x1040 ≤ o && o < 0x1050 && o % 8 = 0 then
    let k := look s.plant.dram (2 * d + (o - 0x1040) / 8) ({} : Stack)
    flag64 17 k.hot ||| flag64 16 k.phaseLost ||| at64 0 16 k.temp.toNat
  else 0

/-- A physical CORE_ block (R29, R294): the logical core beneath it, or a spare's; the router is the physical core's own. -/
def State.physReg (s : State) (p o : Nat) : Word :=
  if 0x12000 ≤ o && o < 0x13000 then s.routerReg p (o - 0x12000)
  else match s.logOf p with
  | some l => if s.available l then s.coreReg l o else s.spareReg o
  | none => s.spareReg o

/-- What a read of an aligned CSR address returns; zero for a reserved one (R24, R26). -/
def State.csrRead (s : State) (t : CsrTarget) : Word :=
  if s.csrAbsent t then 0 else
  match t with
  | .mod o => s.modReg o
  | .bar0 x => s.bar0Reg x
  | .zl e o => s.zlReg e o
  | .rgn r o => s.rgnReg r o
  | .die d o => s.dieReg d o
  | .core l o => s.coreReg l o
  | .phys p o => s.physReg p o
  | .absent => 0

/-! ## What a program may reach (R28) -/

/-- A program's access by a core of region r: allowed, or the cause (ADDR_ABSENT, ADDR_PROT). -/
def State.progCsr (s : State) (l : Nat) (wr : Bool) (t : CsrTarget) : Option Code :=
  if s.csrAbsent t then some stAddrAbsent else
  match t with
  | .core k _ =>
    if wr then
      (match s.regionOf l with
      | some r => if inRect (s.region r).rect k then none else some stAddrProt
      | none => some stAddrProt)
    else none
  | .die _ _ => if wr then some stAddrProt else none
  | .rgn r _ => if !wr && s.regionOf l == some r then none else some stAddrProt
  | _ => some stAddrProt

/-! ## Writes -/

/-- The core after the empty slots in which an ended core retires its pipelines (R117); a core taken to meet condition 2
of R75 stands as it is. -/
def State.retired (s : State) (l : Nat) : State :=
  let c := s.core l
  if c.ended && c.enginesEmpty && !c.fromSlack then s.advance l c.retireSlot else s

/-- The fetch engine has no request outstanding, and no channel a descriptor in hand: one that is POSTED is done when its last
write has left the engine, wherever its writes are (R75, R207, R209). -/
def State.fetchIdle (s : State) (l : Nat) : Bool :=
  let c := s.core l
  (List.range 4).all (fun g =>
    let a := c.gen g
    a.writes || a.tiles.all (fun t => t.all (fun r => r.withheld || r.got.isSome))) &&
    !(s.fabric.writes.any (fun w => w.core == l && w.gen < 4)) && !s.meshWrites l 4 && (c.chan 0).fab.isNone && (c.chan 1).fab.isNone &&
    !(c.pk.pEn && frameEntries c.pk.pFp32 ≤ c.pk.packIn.length)

/-- A tideline of the core's phase is at the head of an input queue. -/
def Core.tideAt (c : Core) (n : Nat) : Bool :=
  match (c.queue n).head c.phase with
  | some e => e.tide
  | none => false

/-- R75 over a core whose pipelines have retired. -/
def State.mayCross (s : State) (l : Nat) : Bool :=
  let c := s.core l
  c.running && !c.faulted && !c.stopping && !c.off && s.coreRState l == .tideline && !c.switched && c.stagedHere &&
    (List.range 8).all (fun n => !(c.queue n).bound || c.tideAt n) &&
    (c.fromSlack || (c.ended && c.enginesEmpty && c.pend.isEmpty)) && s.fetchIdle l

/-- The address lies in the active instruction bank of a core whose region is enabled, or in either bank of one that meets
R75 (R113). -/
def State.imemActive (s : State) : CsrTarget → Bool
  | .core l o =>
    o < 0x10000 && (s.regionOf l).isSome && (o / 0x8000 == b2n (s.core l).bank || (s.retired l).mayCross l)
  | _ => false

/-- The register holds an SC field (R370, R380). -/
def csrHoldsSc : CsrTarget → Bool
  | .mod o => o == 0x108 || o == 0x800 || o == 0x840 || (0x1000 ≤ o && o < 0x1400) || (0x2000 ≤ o && o < 0x2280) ||
      (0x2300 ≤ o && o < 0x2380) || 0x8000 ≤ o
  | .zl _ o => o < 0x40 || o == 0x800 || o == 0xF000 || (0x4000 ≤ o && o < 0x8000 && o % 0x40 < 0x20)
  | .rgn _ o => o == 0 || o == 8 || o == 0x10 || (0x300 ≤ o && o < 0x340) || o == 0x360
  | .core _ o =>
      (0x11000 ≤ o && o < 0x11200 && o % 0x80 < 0x48) || o == 0x11300 || o == 0x11400 || (0x11800 ≤ o && o < 0x11900) ||
        (0x13000 ≤ o && o < 0x13000 + 8 * 23)
  | _ => false

/-- The generator check of R415: saved minus derived, signed and saturating. -/
def rngDelta (a b : Word) : Int :=
  let v := fun (w : Word) => ((fld w 0 32 * 65536 + fld w 32 16 : Nat) : Int)
  max (-(2 ^ 31 - 1)) (min (2 ^ 31 - 1) (v a - v b))

/-- Writing MOD_RNG_CHK.GO (R415): runs the check, and logs RNG_SKEW where the positions or the seeds differ. -/
def State.rngGo (s : State) : State :=
  let n := s.nemar
  let seedDiff := n.rngSavedSeed != n.rngDerivedSeed
  let skew := seedDiff || n.rngSaved != n.rngDerived
  let d := rngDelta n.rngSaved n.rngDerived
  let chk := at64 16 32 (d % (2 ^ 32 : Nat)).toNat ||| flag64 3 seedDiff ||| flag64 2 skew ||| flag64 1 true
  let s := { s with nemar := { n with rngChk := chk } }
  if skew then
    s.logEvent { code := rcRngSkew, srcKind := 9, srcId := 0 } n.rngSaved n.rngDerived n.rngSavedSeed n.rngDerivedSeed
  else s

/-- A write to a MOD_ register's RW and WO fields; RO registers ignore it (R391, R415). -/
def State.modWrite (s : State) (o : Nat) (v : Word) : State :=
  let n := s.nemar
  match o with
  | 0x120 => { s with nemar := { n with sramLimit := BitVec.ofNat 8 (fld v 8 8), auto := bit v 0 } }
  | 0x140 => { s with nemar := { n with rngSaved := v &&& 0x0000FFFFFFFFFFFF } }
  | 0x148 => { s with nemar := { n with rngDerived := v &&& 0x0000FFFFFFFFFFFF } }
  | 0x150 => { s with nemar := { n with rngSavedSeed := v } }
  | 0x158 => { s with nemar := { n with rngDerivedSeed := v } }
  | 0x160 => if bit v 0 then s.rngGo else s
  | _ => s

/-- A write of one CORE_ word: instruction memory, or a register of the block (R102, R112, R113). -/
def State.corePut (s : State) (l o : Nat) (v : Word) : State :=
  if o < 0x10000 then s.setCore l ((s.core l).setImem (o / 0x8000 == 1) (o % 0x8000 / 8) v)
  else s.coreWrite l o v

/-- An accepted write of a CSR word takes effect. -/
def State.csrPut (s : State) (t : CsrTarget) (v : Word) : State :=
  match t with
  | .mod o => s.modWrite o v
  | .bar0 x => s.bar0Write x v
  | .core l o => s.corePut l o v
  | _ => s

/-- Why a CSR_WRITE word fails (R370), if it does; writes to the physical view are accepted from Nemar alone (R29). -/
def State.csrWriteFails (s : State) (t : CsrTarget) : Option Code :=
  if s.csrAbsent t then some stAddrAbsent
  else if csrHoldsSc t then some stAddrProt
  else match t with
  | .phys _ _ => some stAddrProt
  | _ => if s.imemActive t then some stImemActive else none

/-! ## Rows that are one register write -/

/-- GO (R415). -/
def execGo (s : State) : Answer := .next s.rngGo

/-- CLEAR (R84). -/
def execClear (c : CoreId) (s : State) : Answer := .next (s.setCore c.toNat (s.core c.toNat).clearCounters)

/-- FREEZE (R84). -/
def execFreeze (c : CoreId) (on : Bool) (s : State) : Answer :=
  .next (s.setCore c.toNat { s.core c.toNat with freeze := on })

/-- ARB_COMMIT (R316). -/
def execArbCommit (c : CoreId) (s : State) : Answer := .next (s.setCore c.toNat (s.core c.toNat).arbCommit)

/-- CORE_POUR (R335): the write takes effect; one of a core in no enabled region has no one to make it. -/
def execCorePour (c : CoreId) (v : Word) (s : State) : Answer :=
  .next (if (s.regionOf c.toNat).isSome then s.pourStart c.toNat v else s)

end Sys2Proof.Machine
end

