-- ==== Sys2Proof/Machine/FabricSend.lean ====
section
/-! DEFINITION. Machine/FabricSend.lean: routes over the fabric, and how a flit leaves the module by a Zoinnath port (R319 to
R321, R325, R326, R330). -/

namespace Sys2Proof.Machine

/-! ## Fabric routes (R325, R326) -/

/-- The port is UP. -/
def ZPortState.isUp (p : ZPortState) : Bool := p.state == .up8 || p.state == .up4

/-- Ports used by a route word: 1, 2 or 4. -/
def routeCount (w : Word) : Nat := 2 ^ fld w 56 2

/-- Port k of a route word. -/
def routePort (w : Word) (k : Nat) : Nat := fld w (8 * k) 5

/-- The route word of a node. -/
def State.route (s : State) (n : Nat) : Word := look s.fabric.routes n 0

/-- The port a flit for choice k toward node n leaves by: PORT k, or the next listed port that is UP, counting upward and
wrapping (R325); with none UP, one that holds its traffic while it trains (R321, R376); none where the node is unreachable
(R326). -/
def State.portFor (s : State) (n k : Nat) : Option Nat :=
  let w := s.route n
  if !bit w 63 then none else
  let c := routeCount w
  let ps := (List.range c).map (fun i => routePort w ((k + i) % c))
  (ps.find? (fun p => (s.zport p).isUp)).or (ps.find? (fun p => (s.zport p).held || (s.zport p).fresh))

/-- A node is reachable over the fabric. -/
def State.nodeUp (s : State) (n : Nat) : Bool := (s.portFor n 0).isSome

/-- Byte key of byte `a` of fabric node n. -/
def fabricKey (n a : Nat) : Nat := 2 ^ 60 + n * 2 ^ 48 + a % 2 ^ 48

/-! ## Sending flits -/

/-- Kinds of R320. -/
def kindRead : BitVec 4 := 0x1
/-- RESP. -/
def kindResp : BitVec 4 := 0x2
/-- WRITE. -/
def kindWrite : BitVec 4 := 0x3
/-- WACK. -/
def kindWack : BitVec 4 := 0x4
/-- ERR. -/
def kindErr : BitVec 4 := 0x5
/-- POUR. -/
def kindPour : BitVec 4 := 0x6
/-- PCREDIT. -/
def kindPcredit : BitVec 4 := 0x7
/-- PNAK. -/
def kindPnak : BitVec 4 := 0x8
/-- CTRL. -/
def kindCtrl : BitVec 4 := 0x9
/-- LCREDIT. -/
def kindLcredit : BitVec 4 := 0xA
/-- LACK. -/
def kindLack : BitVec 4 := 0xB
/-- LNAK. -/
def kindLnak : BitVec 4 := 0xC

/-- A flit with every field zero. -/
def Flit.zero : Flit := ⟨0, 0, 0, 0, 0, 0, 0, 0, 0⟩

/-- The port may send flits: UP, its traffic not held (R321, R376). -/
def ZPortState.sends (p : ZPortState) : Bool := p.isUp && !p.held

/-- Takes the flit to send next: the first of the control class, else the first (R330). -/
def nextFlit : List KFlit → Option (KFlit × List KFlit)
  | [] => none
  | x :: t =>
    if x.f.cls == 1 then some (x, t)
    else match t.find? (fun k => k.f.cls == 1) with
      | some k => some (k, x :: t.erase k)
      | none => some (x, t)

/-- Sends waiting flits while the far end's credits and the replay buffer of 256 allow, each taking the next SEQ (R320,
R321, R328). `fuel` bounds the flits sent by those waiting. -/
def pumpPort : Nat → ZPortState → ZPortState
  | 0, p => p
  | n + 1, p =>
    if p.sends && 0 < p.credits && p.replay.length < 256 then
      match nextFlit p.tx with
      | none => p
      | some (k, t) =>
        pumpPort n { p with tx := t, credits := p.credits - 1, txSeq := p.txSeq + 1,
                            replay := p.replay ++ [{ k with f := { k.f with seq := p.txSeq } }] }
    else p

/-- MODE of a port: 0 OFF, 1 CADDY, 2 PEER (R323). -/
def ZPortState.mode (p : ZPortState) : Nat := fld p.cfg 32 2
/-- NODE. -/
def ZPortState.farNode (p : ZPortState) : Nat := fld p.cfg 0 12
/-- RPORT. -/
def ZPortState.farPort (p : ZPortState) : Nat := fld p.cfg 24 5

/-- Pumps a port. -/
def ZPortState.pump (p : ZPortState) : ZPortState := pumpPort p.tx.length p

/-- Queues a flit of a kind toward node n, taking PORT k of the route entry for line number `line` (R325); none where
the node is unreachable (R326), or is a caddy, which takes only READ and WRITE flits (R328; DEDUCED, log 129). -/
def State.sendFlit (s : State) (n line : Nat) (kind : BitVec 4) (f : Flit) : Option State :=
  match s.portFor n (line % routeCount (s.route n)) with
  | none => none
  | some p =>
    let x := s.zport p
    if x.mode = 1 && kind != kindRead && kind != kindWrite then none else
    let f := { f with dst := BitVec.ofNat 12 n, src := s.fabric.node }
    some (s.setZport p ({ x with tx := x.tx ++ [⟨kind, f⟩] } : ZPortState).pump)

/-- The sector marks of lines, first line lowest. -/
def poisOf (bs : List (Byte × Bool)) : BitVec 16 :=
  (List.range 16).foldl (fun (w : BitVec 16) j =>
    if anyBad ((bs.drop (16 * j)).take 16) then w ||| BitVec.ofNat 16 (2 ^ j) else w) 0

/-! ## Lines of other nodes (R264, R319, R320, R325): the memory of another node that the module has read or written stands
at its fabric key -/

/-- Node of a fabric key. -/
def keyNode (k : Nat) : Nat := (k - 2 ^ 60) / 2 ^ 48
/-- Line number of a fabric key on its node. -/
def keyLine (k : Nat) : Nat := (k - 2 ^ 60) % 2 ^ 48 / 128

/-- Nodes and lines that parts touch. -/
def fabricLines (ps : List (Nat × Nat)) : List (Nat × Nat) :=
  ps.flatMap (fun p => (rangeFrom (keyLine p.1) (keyLine (p.1 + p.2 - 1) + 1 - keyLine p.1)).map (fun m => (keyNode p.1, m)))

/-- The owners of lines sent for no unit of a core: writes of Nemar and of replicas; result lines of pours; copies of a re-shard;
checkpoint copies; restored pages (R265, R285, R326, R336, R341, R408). -/
def ownBeside : Nat := 7
/-- Result lines of a pour: core is the slot, tile the line of the round. -/
def ownPour : Nat := 8
/-- Copies of a re-shard: core is the entry. -/
def ownReshard : Nat := 9
/-- A restored page: core is the page. -/
def ownRestore : Nat := 11
/-- Checkpoint copies: core is the command's number and the shard. -/
def ownCkpt : Nat := 10
/-- Lines that their writer sends itself. -/
def ownUnsent : Nat := 12

/-- Sends a READ of each line, for an owner. -/
def State.sendReads (s : State) (l g : Nat) (ls : List (Nat × Nat)) : State :=
  ls.foldl (fun (t : State) x =>
    let f : Flit := { Flit.zero with tag := t.fabric.nextTag, addr := BitVec.ofNat 41 x.2 }
    match t.sendFlit x.1 x.2 kindRead f with
    | some u => { u with fabric := { u.fabric with
        nextTag := u.fabric.nextTag + 1
        reads := u.fabric.reads ++ [⟨f.tag, BitVec.ofNat 12 x.1, x.2, l, g, false⟩] } }
    | none => t) s

/-- Sends a WRITE of each line as it now stands, for an owner, its tile and run. -/
def State.sendWrites (s : State) (l g tile run : Nat) (ls : List (Nat × Nat)) : State :=
  ls.foldl (fun (t : State) x =>
    let bs := t.readMem (fabricKey x.1 (x.2 * 128)) 128
    let f : Flit := { Flit.zero with
      tag := t.fabric.nextTag, addr := BitVec.ofNat 41 x.2, pois := poisOf bs
      data := BitVec.ofNat 2048 (ofBytes (bs.map Prod.fst)) }
    match t.sendFlit x.1 x.2 kindWrite f with
    | some u => { u with fabric := { u.fabric with
        nextTag := u.fabric.nextTag + 1
        writes := u.fabric.writes ++ [⟨f.tag, BitVec.ofNat 12 x.1, x.2, l, g, tile, run, false, false⟩] } }
    | none => t) s

end Sys2Proof.Machine
end

