-- ==== Sys2Proof/Machine/Access.lean ====
section
/-! DEFINITION. Machine/Access.lean: what a module-local address reaches (R24, R25, R263, R348), the object range with its
translation, promotion, replica and poison (R262 to R266, R272, R279, R283, R284), and the reads and writes that fetch
engines, DMA channels and Nemar make. -/

namespace Sys2Proof.Machine

/-! ## Where an address lies -/

/-- What a module-local address reaches. -/
inductive Where where
  /-- bytes of the module's memory at a key. -/
  | mem (key : Nat)
  | csr (t : CsrTarget)
  /-- a page of the object range and the offset in it. -/
  | object (p off : Nat)
  /-- the placement table, at an offset of it; for Nemar, the migration engine and the walkers alone (R263). -/
  | table (off : Nat)
  /-- reserved: ADDR_ABSENT. -/
  | absent
  /-- present, but the target or its path fails. -/
  | failed
  deriving DecidableEq, Repr

/-- The placement table's range (R263): the entry of page p lies at 0x045F_E000_0000 + 32 × p. -/
def inTable (a : Nat) : Bool := 0x045FE0000000 ≤ a && a < 0x046000000000

/-- A frame of another module's local addresses that its R24 reserves. -/
def reservedThere (a : Nat) : Bool :=
  (0x1000000000 ≤ a && a < 0x040000000000) || inTable a || 0x400000000000 ≤ a

/-- What an address reaches for a unit other than Nemar, the migration engine and the translation walkers (R24, R25,
R263, R348, R394). -/
def State.whereIs (s : State) (a : Nat) : Where :=
  if a < 0x1000000000 then
    let l := a / 0x400000
    if s.available l then (if (s.core l).off then .failed else .mem a)
    else if dieExists s.grade (coreDie l) && s.reef l && !(s.row (coreDie l) (coreRow l)).inForceOut then .failed
    else .absent
  else if a < 0x040000000000 then .absent
  else if a < 0x080000000000 then
    let k := (a - 0x040000000000) / 0x2000000000
    if inTable a || !stackExists s.grade k then .absent else if s.stackUp k then .mem a else .failed
  else if a < hostBase then .csr (csrTarget (a / 8 * 8))
  else if a < 0x200000000000 then
    if !s.hwinOpen then .absent else if s.hostUp then .mem a else .failed
  else if a < 0x400000000000 then .object ((a - 0x200000000000) / 0x200000) (a % 0x200000)
  else .absent

/-- What byte `off` of a location reaches (R261, R264, R326). -/
def State.locationAt (s : State) (tier node frame off : Nat) : Where :=
  let a := frame * 0x200000 + off
  if tier = 2 then (if s.nodeUp node then .mem (fabricKey node a) else .failed)
  else if tier = 3 then
    (if s.host.ports.toList.any (fun p => p.carries && p.busMaster) then .mem a else .failed)
  else s.whereIs a

/-- Splits a range at 2 MiB boundaries (R262): address and length of each part; every boundary of R24, of a slice, a
stack, a page and the table is one. -/
def parts : Nat → Nat → Nat → List (Nat × Nat)
  | 0, _, _ => []
  | fuel + 1, a, n =>
    let m := 0x200000 - a % 0x200000
    if n = 0 then [] else if n ≤ m then [(a, n)] else (a, m) :: parts fuel (a + m) (n - m)

/-- The parts of a range. -/
def partsOf (a n : Nat) : List (Nat × Nat) := parts (n / 0x200000 + 2) a n

/-- Free bytes (log 2): the content of poisoned data whose value the manual does not state. -/
def State.freeBytes (s : State) (n : Nat) : List Byte × State :=
  ((rangeFrom s.free n).map Config.freeByte, { s with free := s.free + n })

/-! ## Placement entries -/

/-- A page's entry. -/
def State.ptEntry (s : State) (p : Nat) : PtEntry := look s.tiers.pt p {}

/-- TIER, NODE and FRAME of a location word. -/
def locTier (w : Word) : Nat := fld w 61 2
/-- NODE. -/
def locNode (w : Word) : Nat := fld w 27 12
/-- FRAME. -/
def locFrame (w : Word) : Nat := fld w 0 27
/-- A location word's three fields. -/
def locOf (w : Word) : Nat × Nat × Nat := (locTier w, locNode w, locFrame w)

/-- A page is promoted: its backing location exists and is not the present one (R265). -/
def PtEntry.promoted (e : PtEntry) : Bool := bit e.w1 63 && locOf e.w0 != locOf e.w1

/-- The logical cores whose MU holds a page's entry. -/
def State.holders (s : State) (p : Nat) : NumSet :=
  ((s.cores.filter (fun e => e.2.ptCache.any (fun x => x.1 == p))).map Prod.fst)

/-- An entry changes, and its writer sends the invalidation: every MU that holds the entry must still acknowledge (R266).
An MU that does not hold it acknowledges at once. -/
def State.changeEntry (s : State) (p : Nat) (e : PtEntry) : State :=
  let hs := s.holders p
  let rest := s.tiers.inval.filter (fun x => x.1 != p)
  let s := { s with tiers := { s.tiers with
      pt := put s.tiers.pt p e, inval := if hs.isEmpty then rest else rest ++ [(p, hs)] } }
  hs.foldl (fun (t : State) l => t.tellCore l .invalidate p) s

/-- Core l sends a tier report (R280), which concerns the request that is valid now. -/
def State.reportTier (s : State) (l r : Nat) (core : Option Nat) (status : Code) (page : Nat) (src : Option Nat) : State :=
  ({ s with nemar := { s.nemar with tierReports := s.nemar.tierReports ++
      [⟨r, core, status, page, src, if (s.region r).reqValid then some (s.region r).reqTag else none,
        !(s.region r).reqValid, l⟩] } } : State).tellNemar l .report r

/-- Sets POISON and marks lines of the page at its home (R265, R284). -/
def State.poisonPage (s : State) (p off n : Nat) : State :=
  let e := s.ptEntry p
  let home := if bit e.w1 63 then e.w1 else e.w0
  let s := s.changeEntry p { e with w0 := setFld e.w0 56 1 1 }
  match s.locationAt (locTier home) (locNode home) (locFrame home) off with
  | .mem k => { s with marks := writeMarks s.marks k (List.replicate n true) }
  | _ => s

/-! ## Translation (R266, R272, R277) -/

/-- An MU has read n bytes of a page: they count toward its HEAT at the next evaluation (R264, R274). -/
def State.heatRead (s : State) (p n : Nat) : State :=
  { s with tiers := { s.tiers with readBytes := put s.tiers.readBytes p (look s.tiers.readBytes p 0 + n) } }

/-- Word 0 of a page as core l's MU sees it: from its cache, or read from the table and cached, the oldest of 64 entries
making room. -/
def State.translate (s : State) (l p : Nat) : Word × State :=
  let c := s.core l
  match c.ptCache.find? (fun x => x.1 == p) with
  | some x => (x.2, s)
  | none =>
    let w := (s.ptEntry p).w0
    let old := if 64 ≤ c.ptCache.length then c.ptCache.drop 1 else c.ptCache
    (w, s.setCore l { c with ptCache := old ++ [(p, w)], ptMiss := c.ptMiss + 1 })

/-- FIRST and COUNT of a steep. -/
def steepFirst (w : Word) : Nat := fld w 0 24
/-- COUNT. -/
def steepCount (w : Word) : Nat := fld w 24 24

/-- The window of a steep (R272): its lowest page and the page above its highest, clipped to the extent. -/
def steepWindow (ext ctrl : Word) (front : Nat) : Nat × Nat :=
  let f := steepFirst ext
  let e := f + steepCount ext
  let depth := fld ctrl 32 13
  let behind := fld ctrl 16 13
  if bit ctrl 62 then (Nat.max f (front + 1 - depth), Nat.min e (front + behind + 1))
  else (Nat.max f (front - behind), Nat.min e (front + depth))

/-- What a translated read of a page does to steep w of a region: FRONT, and whether the read was outside the window, and
whether the page was in the window yet below TIER (R272, R277). -/
def Region.steepRead (g : Region) (w p tier : Nat) : Region × Bool :=
  let ext := g.steepExt.toList.getD w 0
  let ctrl := g.steepCtrl.toList.getD w 0
  if !bit ctrl 63 || p < steepFirst ext || steepFirst ext + steepCount ext ≤ p then (g, false)
  else
    let old := (g.steepFront.toList.getD w 0).toNat
    let front := if bit ctrl 62 then Nat.min old p else Nat.max old p
    let win := steepWindow ext ctrl front
    let inside := win.1 ≤ p && p < win.2
    let short := inside && fld ctrl 60 2 < tier
    ({ g with steepFront := g.steepFront.setIfInBounds w (BitVec.ofNat 24 front),
              steepShort := if short then g.steepShort.setIfInBounds w true else g.steepShort }, !inside)

/-- A read of page p by core l of an enabled region advances the region's steeps and counts one outside its window. -/
def State.steepTouch (s : State) (l p tier : Nat) : State :=
  match s.regionOf l with
  | none => s
  | some r =>
    let x := (List.range 4).foldl (fun (a : Region × Bool) w =>
      let y := a.1.steepRead w p tier
      (y.1, a.2 || y.2)) (s.region r, false)
    let s := s.setRegion r x.1
    if x.2 then
      let c := s.core l
      s.setCore l { c with steepMiss := c.steepMiss + 1 }
    else s

/-- Core l's MU translates the pages of a range that it reads now: word 0 of each as the MU sees it. Misses are cached and
counted (R266); FRONT, the window counts and HEAT follow (R272, R274, R277). -/
def State.walkRead (s : State) (l a n : Nat) : List (Nat × Word) × State :=
  (partsOf a n).foldl (fun (x : List (Nat × Word) × State) q => match x.2.whereIs q.1 with
    | .object p _ =>
      let t := x.2.translate l p
      (x.1 ++ [(p, t.1)], if bit t.1 63 then (t.2.steepTouch l p (locTier t.1)).heatRead p q.2 else t.2.steepTouch l p 0)
    | _ => x) ([], s)

/-- Core l's MU translates the pages of a range that it writes: misses are cached and counted (R266). -/
def State.walkWrite (s : State) (l a n : Nat) : State :=
  (partsOf a n).foldl (fun (t : State) q => match t.whereIs q.1 with
    | .object p _ => (t.translate l p).2
    | _ => t) s

/-- Word 0 of a page as a read had translated it, or as core l's MU sees it now. -/
def State.pageWord (s : State) (l : Nat) (ws : List (Nat × Word)) (p : Nat) : Word :=
  match ws.find? (fun x => x.1 == p) with
  | some x => x.2
  | none => (s.translate l p).1

/-! ## Reads -/

/-- What one part of a read brings. -/
structure Got where
  bytes : List (Byte × Bool)
  /-- the target is absent, or fails. -/
  absent : Bool := false
  failed : Bool := false
  /-- an uncorrectable error stayed after the retry, or the page is poisoned. -/
  error : Bool := false
  deriving DecidableEq, Repr

/-- A wholly poisoned run of n bytes. -/
def State.poisonRun (s : State) (n : Nat) : List (Byte × Bool) × State :=
  let r := s.freeBytes n
  (r.1.map (fun b => (b, true)), r.2)

/-- Kind of an uncorrectable storage error by address, with the source that owns the storage (R392). -/
def errorOwner (object : Bool) (key : Nat) : Nat × BitVec 8 × Nat :=
  if key < 0x1000000000 then (0x04, 0, key / 0x400000)
  else if object then (errStackObject, 7, (key - 0x040000000000) / 0x2000000000)
  else (errStackDirect, 7, (key - 0x040000000000) / 0x2000000000)

/-- A location of core l's storage of a kind of R392 has given a lasting error: it is counted once against the physical core, which
becomes weak at SRAM_LIMIT locations (R390). -/
def State.countSram (s : State) (l kind loc : Nat) : State :=
  let p := s.physOf l
  let es := addNum (look s.nemar.sram p []) (kind * 2 ^ 32 + loc)
  { s with nemar := { s.nemar with
      sram := put s.nemar.sram p es
      weak := if Nat.max 1 s.nemar.sramLimit.toNat ≤ es.length then addNum s.nemar.weak p else s.nemar.weak } }

/-- Logs a storage error met by core l (R389, R392); the tiers past the module own no unit of it and log none here. -/
def State.storageError (s : State) (lasting object : Bool) (l : Option Nat) (key : Nat) : State :=
  if key < 0x080000000000 then
    let o := errorOwner object key
    let beats := match l with
      | some k => BitVec.ofNat 64 (s.core k).refbeats
      | none => 0
    let s := s.logError lasting o.2.1 o.2.2 o.1 key beats l
    if lasting && key < 0x1000000000 then s.countSram (key / 0x400000) 0x04 (key % 0x400000) else s
  else s

/-- A read of directly addressed memory (R199, R388, R389). -/
def State.readDirect (s : State) (l : Option Nat) (key n : Nat) (o : ReadOutcome) : Got × State :=
  match o with
  | .good => ({ bytes := s.readMem key n }, s.snoopData key n)
  | .errorRetried => ({ bytes := s.readMem key n }, (s.snoopData key n).storageError false false l key)
  | .errorLasting =>
    let s := s.storageError true false l key
    let s := { s with marks := writeMarks s.marks key (List.replicate n true) }
    ({ bytes := (s.readMem key n).map (fun b => (b.1, true)), error := true }, s)
  | .targetFailed =>
    let r := s.poisonRun n
    ({ bytes := r.1, failed := true }, r.2)

/-- The region of core l is told of a tier error (R280); a core of no region has none to report to. -/
def State.reportCore (s : State) (l : Nat) (st : Code) (p : Nat) (src : Option Nat) : State :=
  match s.regionOf l with
  | some g => s.reportTier l g (some l) st p src
  | none => s

/-- A replica of page p serves a read that its present location does not (R279, R283). -/
def State.replicaAt (s : State) (p off : Nat) : Option Nat :=
  let e := s.ptEntry p
  match (if bit e.w2 63 && !e.promoted then s.locationAt (locTier e.w2) (locNode e.w2) (locFrame e.w2) off
         else Where.failed) with
  | .mem k => some k
  | _ => none

/-- A read of lower-tier page p by core l has missed its deadline: the second in succession that no replica serves is a
TIER_FAIL (R279). -/
def State.lateMiss (s : State) (l p : Nat) (src : Option Nat) : State :=
  let m := (s.core l).lateRow + 1
  let s := s.setCore l { s.core l with lateRow := m }
  if 2 ≤ m && (s.replicaAt p 0).isNone then s.reportCore l stTierFail p src else s

/-- A lower-tier read of core l has come in time. -/
def State.inTime (s : State) (l : Nat) : State := s.setCore l { s.core l with lateRow := 0 }

/-- The first page of lower tier among pages translated. -/
def lowerPage (ws : List (Nat × Word)) : Option Nat :=
  (ws.find? (fun x => bit x.2 63 && 2 ≤ locTier x.2)).map Prod.fst

/-- A read of part of a page by core l, whose MU translated it to w0, for source code `src` (R199, R265, R279, R283, R284). -/
def State.readObject (s : State) (l p off n : Nat) (w0 : Word) (src : Option Nat) (o : ReadOutcome) : Got × State :=
  let e := s.ptEntry p
  let report := fun (s : State) (st : Code) => s.reportCore l st p src
  if !bit w0 63 then
    let x := s.poisonRun n
    ({ bytes := x.1, absent := true }, x.2)
  else
    if bit w0 56 then
      let x := (report s stTierPoison).poisonRun n
      ({ bytes := x.1, error := true }, x.2)
    else
      let lower := 2 ≤ locTier w0
      let fails := fun (s : State) =>
        match s.replicaAt p off with
        | some k =>
          let c := s.core l
          (({ bytes := s.readMem k n } : Got), s.setCore l { c with ptRetry := c.ptRetry + 1 })
        | none =>
          let s := if lower then report s stTierFail else s
          let x := s.poisonRun n
          (({ bytes := x.1, failed := true } : Got), x.2)
      match s.locationAt (locTier w0) (locNode w0) (locFrame w0) off with
      | .mem key =>
        match o with
        | .good => ({ bytes := s.readMem key n }, s.snoopData key n)
        | .errorRetried =>
          let alt := if e.promoted && !bit e.w0 54 then some e.w1
            else if !e.promoted && bit e.w2 63 then some e.w2 else none
          let good := match alt with
            | some w => (match s.locationAt (locTier w) (locNode w) (locFrame w) off with
              | .mem k => s.readMem k n
              | _ => s.readMem key n)
            | none => s.readMem key n
          let s := s.storageError false true (some l) key
          let c := s.core l
          let s := s.setCore l { c with ptRetry := c.ptRetry + 1 }
          ({ bytes := good }, s.writeMem key good)
        | .errorLasting =>
          let s := s.storageError true true (some l) key
          let s := report (s.poisonPage p off n) stTierPoison
          let x := s.poisonRun n
          ({ bytes := x.1, error := true }, x.2)
        | .targetFailed => fails s
      | _ => fails s

/-- The address lies in the host window (R24). -/
def inHostWindow (a : Nat) : Bool := hostBase ≤ a && a < 0x200000000000

/-- One part of a read by core l, its pages translated to `ws`. A CSR target is not read here (R199); a reserved address
returns zero data (R24); a read of the host window with no port up is a TIER_FAIL of its request (R345), in whose report
the page is 0 (DESIGN CHOICE, log 126). -/
def State.readPart (s : State) (l a n : Nat) (ws : List (Nat × Word)) (src : Option Nat) (o : ReadOutcome) : Got × State :=
  match s.whereIs a with
  | .mem k => s.readDirect (some l) k n o
  | .object p off => s.readObject l p off n (s.pageWord l ws p) src o
  | .failed =>
    let x := (if inHostWindow a then s.reportCore l stTierFail 0 src else s).poisonRun n
    ({ bytes := x.1, failed := true }, x.2)
  | .absent => ({ bytes := List.replicate n (0, true), absent := true }, s)
  | _ =>
    let x := s.poisonRun n
    ({ bytes := x.1, absent := true }, x.2)

/-- A read of n bytes by core l, part by part. -/
def State.readRange (s : State) (l a n : Nat) (ws : List (Nat × Word)) (src : Option Nat) (o : ReadOutcome) : Got × State :=
  (partsOf a n).foldl (fun (x : Got × State) q =>
    let y := x.2.readPart l q.1 q.2 ws src o
    ({ bytes := x.1.bytes ++ y.1.bytes, absent := x.1.absent || y.1.absent, failed := x.1.failed || y.1.failed,
       error := x.1.error || y.1.error }, y.2)) ({ bytes := [] }, s)

/-! ## Writes -/

/-- How a write ends. -/
inductive Put where
  | done
  | absent
  | failed
  /-- held at the MU while its page moves (R275). -/
  | held
  deriving DecidableEq, Repr

/-- Writes bytes at a key; those of another node's memory go to it in WRITE flits (R325). -/
def State.writeFar (s : State) (k : Nat) (bs : List (Byte × Bool)) : State :=
  let s := s.writeMem k bs
  if 2 ^ 60 ≤ k && k < 2 ^ 80 then s.sendWrites 0 ownBeside 0 0 (fabricLines [(k, bs.length)]) else s

/-- Bytes of a page are written to its replica, where it has one: with every write that reaches the backing location (R265). -/
def State.putReplica (s : State) (p off : Nat) (bs : List (Byte × Bool)) : State :=
  let e := s.ptEntry p
  if bit e.w2 63 then
    (match s.locationAt (locTier e.w2) (locNode e.w2) (locFrame e.w2) off with
    | .mem k => s.writeFar k bs
    | _ => s)
  else s

/-- A page's bytes are written where its location word says: a promoted page becomes DIRTY, a replica is written too (R265). The
lines of a page on another node are sent to it where `far` says so: the MUs send their own. -/
def State.storePage (s : State) (p off : Nat) (w0 : Word) (bs : List (Byte × Bool)) (far : Bool := false) : Put × State :=
  let e := s.ptEntry p
  match s.locationAt (locTier w0) (locNode w0) (locFrame w0) off with
  | .mem k =>
    let s := if e.promoted then
        (if bit e.w0 54 then s else s.changeEntry p { e with w0 := setFld e.w0 54 1 1 })
      else s.putReplica p off bs
    (.done, if far then s.writeFar k bs else s.writeMem k bs)
  | _ => (.failed, s)

/-- A write to one part of a page by core l (R265, R275, R279, R284). -/
def State.writeObject (s : State) (l p off : Nat) (bs : List (Byte × Bool)) : Put × State :=
  let t := s.translate l p
  let w0 := t.1
  let s := t.2
  if !bit w0 63 then (.absent, s)
  else if bit w0 56 then
    (.done, match s.regionOf l with
      | some r => s.reportTier l r (some l) stTierPoison p none
      | none => s)
  else if bit w0 55 then (.held, s)
  else s.storePage p off w0 bs

/-- A write of one part by core l; a CSR target is not written here. -/
def State.writePart (s : State) (l a : Nat) (bs : List (Byte × Bool)) : Put × State :=
  match s.whereIs a with
  | .mem k => (.done, s.writeMem k bs)
  | .object p off => s.writeObject l p off bs
  | .failed => (.failed, s)
  | _ => (.absent, s)

/-- The worse of two ends of a write. -/
def Put.and (a b : Put) : Put :=
  match a with
  | .done => b
  | _ => a

/-- A write of bytes by core l, part by part. -/
def State.writeRange (s : State) (l a : Nat) (bs : List (Byte × Bool)) : Put × State :=
  (partsOf a bs.length).foldl (fun (x : Put × State) q =>
    let y := x.2.writePart l q.1 ((bs.drop (q.1 - a)).take q.2)
    (x.1.and y.1, y.2)) (.done, s)

/-- A part of a write would be held: its page moves (R275). -/
def State.writeHeld (s : State) (l a n : Nat) : Bool :=
  (partsOf a n).any (fun q => match s.whereIs q.1 with
    | .object p _ => bit (s.translate l p).1 63 && !bit (s.translate l p).1 56 && bit (s.translate l p).1 55
    | _ => false)

/-! ## The placement table as memory (R263, R264) -/

/-- Bytes of a table entry: words 0 to 2, and HEAT in [63:48] of word 3. -/
def PtEntry.tableBytes (e : PtEntry) : List Byte :=
  [e.w0, e.w1, e.w2, at64 48 16 e.heat.toNat].flatMap (fun w => toBytes 8 w.toNat)

/-- The entry that 32 bytes make; the zero bits of R264 hold no value. -/
def PtEntry.ofBytes (bs : List Byte) : PtEntry :=
  let w := fun (k : Nat) => BitVec.ofNat 64 (Machine.ofBytes ((bs.drop (8 * k)).take 8))
  { w0 := w 0 &&& 0xFFC0007FFFFFFFFF, w1 := w 1 &&& 0xE000007FFFFFFFFF, w2 := w 2 &&& 0xE000007FFFFFFFFF
    heat := BitVec.ofNat 16 (fld (w 3) 48 16) }

/-- n bytes of the table at an offset. -/
def State.tableRead (s : State) (off n : Nat) : List (Byte × Bool) :=
  let ps := rangeFrom (off / 32) ((off + n - 1) / 32 + 1 - off / 32)
  clean (((ps.flatMap (fun p => (s.ptEntry p).tableBytes)).drop (off % 32)).take n)

/-- Bytes written to the table at an offset: every entry they touch changes (R266). -/
def State.tablePut (s : State) (off : Nat) (bs : List Byte) : State :=
  (rangeFrom (off / 32) ((off + bs.length - 1) / 32 + 1 - off / 32)).foldl (fun (t : State) p =>
    let old := (t.ptEntry p).tableBytes
    let new := (List.range 32).map (fun j =>
      if off ≤ 32 * p + j && 32 * p + j < off + bs.length then bs.getD (32 * p + j - off) 0 else old.getD j 0)
    t.changeEntry p (PtEntry.ofBytes new)) s

/-! ## What Nemar and the movers reach -/

/-- What an address reaches through the table itself, which no MU caches: for the units beside the MUs. -/
def State.objectAt (s : State) (a : Nat) : Where :=
  match s.whereIs a with
  | .object p off =>
    let e := s.ptEntry p
    if bit e.w0 63 then s.locationAt (locTier e.w0) (locNode e.w0) (locFrame e.w0) off else .absent
  | w => w

/-- What an address reaches for Nemar and the migration engine, the table with it (R263). -/
def State.nemarAt (s : State) (a : Nat) : Where :=
  if inTable a then (if s.stackUp 2 then .table (a - 0x045FE0000000) else .failed) else s.objectAt a

/-- Nemar can read every byte of a range. -/
def State.nemarReads (s : State) (a n : Nat) : Bool :=
  (partsOf a n).all (fun q => match s.nemarAt q.1 with
    | .mem _ => true
    | .table _ => true
    | _ => false)

/-- The page of a range's first byte is poisoned. -/
def State.poisonedAt (s : State) (a : Nat) : Bool :=
  match s.whereIs a with
  | .object p _ => bit (s.ptEntry p).w0 56
  | _ => false

/-- Free bytes, all marked, that a read of a poisoned page delivers (R284); numbered apart from the counter's (log 2). -/
def State.marredBytes (s : State) (n : Nat) : List (Byte × Bool) :=
  (List.range n).map (fun i => (Config.freeByte (2 ^ 64 * (s.free + 1) + i), true))

/-- Bytes that one part of a read at `w` brings; a poisoned page's are wholly marked (R284). -/
def State.partRead (s : State) (w : Where) (a n : Nat) : List (Byte × Bool) :=
  match w with
  | .mem k => if s.poisonedAt a then s.marredBytes n else s.readMem k n
  | .table off => s.tableRead off n
  | _ => List.replicate n (0, true)

/-- Bytes Nemar reads. -/
def State.nemarRead (s : State) (a n : Nat) : List (Byte × Bool) :=
  (partsOf a n).flatMap (fun q => s.partRead (s.nemarAt q.1) q.1 q.2)

/-- A write of one part by a unit beside the MUs; one to a poisoned page is discarded (R284), one to a page that moves is
held (R275). -/
def State.objectPut (s : State) (a : Nat) (bs : List (Byte × Bool)) : Put × State :=
  match s.whereIs a with
  | .mem k => (.done, s.writeMem k bs)
  | .object p off =>
    let w := (s.ptEntry p).w0
    if !bit w 63 then (.absent, s) else if bit w 56 then (.done, s) else if bit w 55 then (.held, s)
    else s.storePage p off w bs true
  | .failed => (.failed, s)
  | _ => (.absent, s)

/-- A write of one part by Nemar. -/
def State.nemarPut (s : State) (a : Nat) (bs : List (Byte × Bool)) : Put × State :=
  match s.nemarAt a with
  | .table off => (.done, s.tablePut off (bs.map Prod.fst))
  | _ => s.objectPut a bs

/-- What a global address reaches (R327). -/
def State.globalAt (s : State) (a : Nat) : Where :=
  let n := a / 2 ^ 48
  if n = s.fabric.node.toNat then s.nemarAt (a % 2 ^ 48)
  else if s.nodeUp n then .mem (fabricKey n (a % 2 ^ 48)) else .failed

/-- Bytes of a range of global addresses, those of a target that fails marked; and whether one fails. -/
def State.globalRead (s : State) (a n : Nat) : List (Byte × Bool) × Bool :=
  (partsOf a n).foldl (fun x q =>
    let w := s.globalAt q.1
    let local_ := if q.1 / 2 ^ 48 = s.fabric.node.toNat then q.1 % 2 ^ 48 else 0
    (x.1 ++ s.partRead w local_ q.2, x.2 || (match w with
      | .mem _ => false
      | .table _ => false
      | _ => true))) ([], false)

/-- Pages of this module's object range that a range of global addresses lies in. -/
def State.globalPages (s : State) (a n : Nat) : List Nat :=
  (partsOf a n).filterMap (fun q =>
    if q.1 / 2 ^ 48 = s.fabric.node.toNat then
      (match s.whereIs (q.1 % 2 ^ 48) with
      | .object p _ => some p
      | _ => none)
    else none)

/-- A page of the range has POISON, or moves. -/
def State.globalHas (s : State) (b a n : Nat) : Bool := (s.globalPages a n).any (fun p => bit (s.ptEntry p).w0 b)

end Sys2Proof.Machine
end

