-- ==== Sys2Proof/Machine/FabricBase.lean ====
section
/-! DEFINITION. Machine/FabricBase.lean: lines of other nodes, an MU's transfers over the mesh (R290 to R292), and the barriers
of regions, of the module and of the fabric tree (R304 to R309, R331, R332). -/

namespace Sys2Proof.Machine

/-! ## Lines of other nodes -/

/-- The least CAPACITY that the ports of a caddy's node have reported (R329). -/
def State.caddyCapacity (s : State) (n : Nat) : Option Nat :=
  ((s.fabric.ports.toList.filter (fun p => p.mode == 1 && p.farNode == n && p.ident1 != 0)).map
    (fun p => p.ident1.toNat)).foldl (fun a c => some (match a with
      | some m => Nat.min m c
      | none => c)) none

/-- The (key, bytes) of the parts of a range that core l finds in tier 2, its pages translated to `ws`. -/
def State.fabricParts (s : State) (l : Nat) (ws : List (Nat × Word)) (a n : Nat) : List (Nat × Nat) :=
  (partsOf a n).filterMap (fun q => match s.whereIs q.1 with
    | .object p off =>
      let w := s.pageWord l ws p
      if bit w 63 && !bit w 56 && locTier w == 2 && s.nodeUp (locNode w) then
        some (fabricKey (locNode w) (locFrame w * 0x200000 + off), q.2)
      else none
    | _ => none)

/-- An owner's reads, those that failed with them. -/
def State.readsOf (s : State) (l g : Nat) : List FabRead := s.fabric.reads.filter (fun x => x.core == l && x.gen == g)

/-- An owner's writes, those that failed with them. -/
def State.writesOf (s : State) (l g : Nat) : List FabWrite := s.fabric.writes.filter (fun x => x.core == l && x.gen == g)

/-- A read or a write of an owner is not answered. -/
def State.onFabric (s : State) (l g : Nat) : Bool :=
  (s.readsOf l g).any (fun x => !x.failed) || (s.writesOf l g).any (fun x => !x.failed)

/-- The descriptor that a channel carries out as number `run` still has lines to send: its last write has not left the
engine (R207). -/
def DmaChannel.sending (d : DmaChannel) (run : Nat) : Bool :=
  run == d.ndone.toNat && (match d.fab with
    | some f => !f.lines.isEmpty
    | none => false)

/-- Drops fabric reads. -/
def State.dropReads (s : State) (xs : List FabRead) : State :=
  { s with fabric := { s.fabric with reads := s.fabric.reads.filter (fun x => !xs.contains x) } }

/-- Drops fabric writes. -/
def State.dropWrites (s : State) (xs : List FabWrite) : State :=
  { s with fabric := { s.fabric with writes := s.fabric.writes.filter (fun x => !xs.contains x) } }

/-- For whom lines are written to another node: a number of the owner's, the owner, and its tile. -/
structure FarOwner where
  core : Nat
  gen : Nat
  tile : Nat
  deriving DecidableEq, Repr

/-- Writes bytes to a range of global addresses, part by part: another node's lines are sent to it for an owner, or
by the caller (R325). -/
def State.globalWrite (s : State) (a : Nat) (bs : List (Byte × Bool)) (nemar : Bool := true)
    (own : FarOwner := ⟨0, ownBeside, 0⟩) : Put × State :=
  (partsOf a bs.length).foldl (fun (x : Put × State) q =>
    let part := (bs.drop (q.1 - a)).take q.2
    let y := if q.1 / 2 ^ 48 = x.2.fabric.node.toNat then
        (if nemar then x.2.nemarPut (q.1 % 2 ^ 48) part else x.2.objectPut (q.1 % 2 ^ 48) part)
      else match x.2.globalAt q.1 with
        | .mem k =>
          let s := x.2.writeMem k part
          (.done, if own.gen = ownUnsent then s else s.sendWrites own.core own.gen own.tile 0 (fabricLines [(k, q.2)]))
        | _ => (.failed, x.2)
    (x.1.and y.1, y.2)) (.done, s)

/-- Lines that one event sends for an owner: a quarter of the tags (DESIGN CHOICE, log 81). -/
def fabricBatch : Nat := 1024

/-! ## An MU's transfers over the data mesh (R290 to R292). A line of the core's own slice or block crosses none. Each flit
holds one buffer that its destination has reserved, and a read return the place its request reserved (log 127). -/

/-- Where an MU's flit for a line leaves the mesh. -/
inductive MeshEnd where
  | here
  | router (p : Nat)
  | edge (e : Nat)
  deriving DecidableEq, Repr

/-- The port router of a stack's line: line address bits [8:7] select physical row 6, 14, 22 or 30 (R13, R291). -/
def stackRouter (key : Nat) : Nat :=
  let k := (key - 0x040000000000) / 0x2000000000
  k / 2 * 1088 + (6 + 8 * (key / 128 % 4)) * 34 + (if k % 2 = 0 then 0 else 33)

/-- The router or edge die that owns a register's block. -/
def State.csrEnd (s : State) (l a : Nat) : MeshEnd :=
  match csrTarget (a / 8 * 8) with
  | .core k _ => if k = l then .here else .router (s.physOf k)
  | .phys p _ => .router p
  | .die d _ => .router (dieUnit d)
  | .zl e _ => .edge e
  | _ => .edge 0

/-- Where core l's flit for a key leaves the mesh: a slice by the core's own map, a stack's port router, the agent of a host
line by address bits [13:12] (R344), the edge die of the port toward another node, the owner of a register. -/
def State.meshEnd (s : State) (l key : Nat) : MeshEnd :=
  if key < 0x1000000000 then (if key / 0x400000 = l then .here else .router (s.physOf (key / 0x400000)))
  else if key < 0x080000000000 then .router (stackRouter key)
  else if key < hostBase then s.csrEnd l key
  else if key < 2 ^ 60 then .edge (key / 4096 % 4)
  else .edge ((s.portFor (keyNode key) (keyLine key % routeCount (s.route (keyNode key)))).getD 0 / 8)

/-- The key is a register's address. -/
def csrKey (key : Nat) : Bool := 0x080000000000 ≤ key && key < hostBase

/-- The keys and bytes of the parts of a range that core l reaches, its pages translated to `ws`; a register's address is its
key. -/
def State.keyParts (s : State) (l : Nat) (ws : List (Nat × Word)) (a n : Nat) : List (Nat × Nat) :=
  (partsOf a n).filterMap (fun q => match s.whereIs q.1 with
    | .mem k => some (k, q.2)
    | .csr _ => some (q.1, q.2)
    | .object p off =>
      let w := s.pageWord l ws p
      if bit w 63 && !bit w 56 then (match s.locationAt (locTier w) (locNode w) (locFrame w) off with
        | .mem k => some (k, q.2)
        | _ => none)
      else none
    | _ => none)

/-- Parts cut at lines of 128 bytes: one flit each. -/
def cutLines (ps : List (Nat × Nat)) : List (Nat × Nat) :=
  ps.flatMap (fun p => (rangeFrom (p.1 / 128) ((p.1 + p.2 - 1) / 128 + 1 - p.1 / 128)).map (fun m =>
    let lo := Nat.max p.1 (128 * m)
    (lo, Nat.min (p.1 + p.2) (128 * m + 128) - lo)))

/-- Core l's MU sends one flit; with no attachment point available it is sent nowhere, and its number is no flit's. -/
def State.sendOne (s : State) (l key : Nat) (kind : FlitKind) : List Nat × State :=
  let p := s.physOf l
  match s.meshEnd l key with
  | .here => ([], s)
  | .router q =>
    let x := s.inject (flitBetween p q kind)
    ([x.1], x.2)
  | .edge e =>
    match s.nearestPoint e (physPX p) (physPY p) with
    | some j =>
      let x := s.inject (flitToward e j (physPX p) (physPY p) kind)
      ([x.1], x.2)
    | none => ([s.mesh.nextFlit], { s with mesh := { s.mesh with nextFlit := s.mesh.nextFlit + 1 } })

/-- The read requests of parts leave core l's MU for an owner: the numbers of their flits. -/
def State.askMesh (s : State) (l owner : Nat) (ps : List (Nat × Nat)) : List Nat × State :=
  (cutLines ps).foldl (fun (x : List Nat × State) q =>
    let y := x.2.sendOne l q.1 (.read l owner q.1)
    (x.1 ++ y.1, y.2)) ([], s)

/-- The writes of parts leave core l's MU for an owner, its tile and run. -/
def State.writeMesh (s : State) (l owner tile run : Nat) (ps : List (Nat × Nat)) : List Nat × State :=
  (cutLines ps).foldl (fun (x : List Nat × State) q =>
    let y := x.2.sendOne l q.1 (.write l owner q.1 q.2 tile run false)
    (x.1 ++ y.1, y.2)) ([], s)

/-- Every flit of these has left the mesh at its destination. -/
def State.arrived (s : State) (ns : List Nat) : Bool :=
  ns.all (fun n => match find? s.mesh.flits n with
    | some f => f.delivered
    | none => false)

/-- Takes flits from the mesh. -/
def State.dropFlits (s : State) (ns : List Nat) : State :=
  { s with mesh := { s.mesh with flits := s.mesh.flits.filter (fun x => !ns.contains x.1) } }

/-- A write of a tile is not yet accepted: over the mesh, or by another node. -/
def State.tileOpen (s : State) (l g t : Nat) : Bool :=
  s.fabric.writes.any (fun w => w.core == l && w.gen == g && w.tile == t) ||
    s.mesh.flits.any (fun x => match x.2.kind with
      | .write c o _ _ u _ _ => c == l && o == g && u == t
      | _ => false)

/-- The tiles of a generator whose writes are all accepted count (R212). -/
def State.settleTiles (s : State) (l g : Nat) : State :=
  let c := s.core l
  let a := c.gen g
  let past := a.openTiles.filter (fun t => !s.tileOpen l g t)
  s.setCore l (c.setGen g { a with openTiles := a.openTiles.filter (s.tileOpen l g)
                                   tilesDone := a.tilesDone + BitVec.ofNat 64 past.length })

/-- A run of a generator's tile has been refused or lost: it counts once (R199, R297). -/
def State.countRun (s : State) (l g tile run : Nat) : State :=
  let c := s.core l
  let a := c.gen g
  let s := s.setCore l (c.setGen g { a with errs := a.errs + 1 })
  { s with
    fabric := { s.fabric with writes := s.fabric.writes.map (fun (x : FabWrite) =>
      if x.core == l && x.gen == g && x.tile == tile && x.run == run then { x with counted := true } else x) }
    mesh := { s.mesh with flits := s.mesh.flits.map (fun x => (x.1, { x.2 with kind := match x.2.kind with
      | .write c o k n t r b => .write c o k n t r (b || (c == l && o == g && t == tile && r == run))
      | k => k })) } }

/-! ## Messages of the control class (R330). The manual gives a CTRL flit 16 bytes and no layout: the type is [7:0], the
barrier [15:8], the generation or epoch [47:16] (DESIGN CHOICE, log 20). -/

/-- A message of the control class. -/
inductive CtrlMsg where
  | arrival (b gen : Nat)
  | release (b gen : Nat)
  | fail (b : Nat)
  | drained (epoch : Nat)
  | copy (epoch : Nat)
  | copied (epoch : Nat)
  | commit (epoch : Nat)
  | abandon (epoch : Nat)
  | failed (epoch : Nat)
  deriving DecidableEq, Repr

/-- A message's payload. -/
def CtrlMsg.payload : CtrlMsg → Nat
  | .arrival b g => 1 + b * 256 + g % 2 ^ 32 * 65536
  | .release b g => 2 + b * 256 + g % 2 ^ 32 * 65536
  | .fail b => 3 + b * 256
  | .drained e => 4 + e * 65536
  | .copy e => 5 + e * 65536
  | .copied e => 6 + e * 65536
  | .commit e => 7 + e * 65536
  | .abandon e => 8 + e * 65536
  | .failed e => 9 + e * 65536

/-- The message a payload spells; none for another type. -/
def CtrlMsg.read (w : BitVec 2048) : Option CtrlMsg :=
  let b := fld w 8 8
  let g := fld w 16 32
  match fld w 0 8 with
  | 1 => some (.arrival b g)
  | 2 => some (.release b g)
  | 3 => some (.fail b)
  | 4 => some (.drained g)
  | 5 => some (.copy g)
  | 6 => some (.copied g)
  | 7 => some (.commit g)
  | 8 => some (.abandon g)
  | 9 => some (.failed g)
  | _ => none

/-- Sends a message to a node; a lost one changes nothing. -/
def State.sendCtrl (s : State) (n : Nat) (m : CtrlMsg) : State :=
  (s.sendFlit n 0 kindCtrl { Flit.zero with cls := 1, data := BitVec.ofNat 2048 m.payload }).getD s

/-! ## Barriers -/

/-- Key of a barrier: a region's own, or the module's. -/
def barKey (r b : Nat) : Nat := if b < 240 then r * 256 + b else 65536 + b

/-- Writes a module-scoped barrier's registers. -/
def State.setModBar (s : State) (j : Nat) (m : ModBarrier) : State :=
  { s with nemar := { s.nemar with bars := put s.nemar.bars j m } }

/-- The regions a module-scoped barrier names. -/
def ModBarrier.names (m : ModBarrier) (r : Nat) : Bool := bit (m.set.toList.getD (r / 64) 0) (r % 64)

/-- Every core that takes part in a barrier of region r (R304). -/
def State.barCores (s : State) (r b : Nat) : NumSet :=
  if b < 240 then rectCores (s.region r).rect
  else
    let m := s.modBar (b - 240)
    (s.regions.filter (fun e => e.2.state.enabled && m.names e.1)).flatMap (fun e => rectCores e.2.rect)

/-- FABRIC, ROOT, PARENT, CHILDREN of MOD_FBAR (R331). -/
def ModBarrier.onFabric (m : ModBarrier) : Bool := bit m.fbar 63
/-- ROOT. -/
def ModBarrier.isRoot (m : ModBarrier) : Bool := bit m.fbar 62
/-- PARENT. -/
def ModBarrier.parent (m : ModBarrier) : Nat := fld m.fbar 44 12
/-- CHILDREN. -/
def ModBarrier.children (m : ModBarrier) : Nat := fld m.fbar 0 12

/-- The count of a generation at its root. -/
def State.barCount (s : State) (key gen : Nat) : BarCount :=
  (s.nemar.barCounts.find? (fun x => x.inst == key && x.gen == gen)).getD { inst := key, gen := gen, cores := [] }

/-- Writes a generation's count; one with no cores left is dropped. -/
def State.setBarCount (s : State) (x : BarCount) : State :=
  let rest := s.nemar.barCounts.filter (fun y => !(y.inst == x.inst && y.gen == x.gen))
  { s with nemar := { s.nemar with barCounts := if x.cores.isEmpty then rest else rest ++ [x] } }

/-- The die of a logical core. -/
def State.dieOf (s : State) (l : Nat) : Nat := physDie (s.physOf l)

/-- The participants of barrier instance `key`. -/
def State.keyCores (s : State) (key : Nat) : List Nat := s.barCores (key / 256 % 256) (key % 256)

/-- The die whose unit is the root of an instance: that of the region's lowest logical core; none for the unit on EN. -/
def State.rootDie (s : State) (key : Nat) : Option Nat :=
  if 65536 ≤ key then none
  else match s.keyCores key with
    | [] => none
    | l :: t => some (s.dieOf (t.foldl Nat.min l))

/-- The release of a generation is at die d's unit, which sends it to the die's cores. A unit's 4,096 counters, four
generations of each of the die's 1,024 cores, are never short (R305, R306). -/
def State.dieReleases (s : State) (key gen d : Nat) : State :=
  let x := s.barCount key gen
  let s := s.setBarCount { x with down := addNum x.down d }
  (x.cores.filter (fun l => s.dieOf l == d)).foldl (fun (t : State) l =>
    t.tellNode (dieUnit d) (t.physOf l) l .release (key % 256)) s

/-- The root releases a generation, and sends the release down the tree. -/
def State.releaseCount (s : State) (key gen : Nat) : State :=
  let x := s.barCount key gen
  let s := s.setBarCount { x with released := true }
  (x.dies).foldl (fun (t : State) d =>
    match x.cores.find? (fun l => s.dieOf l == d), s.rootDie key with
    | none, _ => t
    | some l, some e => if d = e then t.dieReleases key gen d else t.tellNode (dieUnit e) (dieUnit d) l (.down gen) key
    | some l, none =>
      (t.inject (flitFrom 0 ((t.nearestPoint 0 (physPX (dieUnit d)) (physPY (dieUnit d))).getD 0)
        (physPX (dieUnit d)) (physPY (dieUnit d)) (.ctl (.down gen) l key))).2) s

/-- A module-scoped generation is released here and to the children heard from (R331). -/
def State.releaseModule (s : State) (b gen : Nat) : State :=
  let m := s.modBar (b - 240)
  let s := s.releaseCount (barKey 0 b) gen
  let s := s.setModBar (b - 240) { m with gen := m.gen + 1, childArr := drop m.childArr gen }
  (look m.childArr gen []).foldl (fun (t : State) n => t.sendCtrl n (.release b gen)) s

/-- The root has heard from the die of every participant. -/
def State.countWhole (s : State) (key gen : Nat) : Bool :=
  let x := s.barCount key gen
  (s.keyCores key).all (fun l => x.dies.contains (s.dieOf l))

/-- Every local participant of a module-scoped generation, and each child, has arrived. -/
def State.modComplete (s : State) (b gen : Nat) : Bool :=
  let m := s.modBar (b - 240)
  s.countWhole (barKey 0 b) gen && (!m.onFabric || m.children ≤ (look m.childArr gen []).length)

/-- A module-scoped generation that is complete goes to the parent, or is released at the root (R305, R331). -/
def State.completeModule (s : State) (b gen : Nat) : State :=
  let m := s.modBar (b - 240)
  if !m.en || (s.barCount (barKey 0 b) gen).released || !s.modComplete b gen then s
  else if !m.onFabric || m.isRoot then s.releaseModule b gen
  else if m.sentUp ≤ gen then
    (s.setModBar (b - 240) { m with sentUp := gen + 1 }).sendCtrl m.parent (.arrival b gen)
  else s

/-- The root has the complete count of die d (R305). -/
def State.rootHears (s : State) (key gen d : Nat) : State :=
  let x := s.barCount key gen
  let s := s.setBarCount { x with dies := addNum x.dies d }
  if 65536 ≤ key then s.completeModule (key - 65536) gen
  else if s.countWhole key gen then s.releaseCount key gen
  else s

/-- Core l's arrival is counted at its die's unit, which sends one arrival to the root when the die's count is complete. -/
def State.dieCounts (s : State) (l key gen : Nat) : State :=
  let x := s.barCount key gen
  let x := { x with cores := addNum x.cores l }
  let s := s.setBarCount x
  let d := s.dieOf l
  if !((s.keyCores key).filter (fun k => s.dieOf k == d)).all x.cores.contains then s
  else match s.rootDie key with
  | some e => if d = e then s.rootHears key gen d else s.tellNode (dieUnit d) (dieUnit e) l (.up gen) key
  | none =>
    let p := dieUnit d
    (s.inject (flitToward 0 ((s.nearestPoint 0 (physPX p) (physPY p)).getD 0) (physPX p) (physPY p)
      (.ctl (.up gen) l key))).2

/-- A die's complete count of a generation is on its way to the root. -/
def State.countClimbs (s : State) (key gen : Nat) : Bool :=
  s.mesh.flits.any (fun x => match x.2.kind with
    | .ctl (.up g) _ k => k == key && g == gen
    | _ => false)

/-- Messages of a barrier that has failed go: arrivals at it and complete counts of it. -/
def State.dropArrivals (s : State) (b : Nat) : State :=
  { s with mesh := { s.mesh with flits := s.mesh.flits.filter (fun x => match x.2.kind with
      | .ctl .arrive _ k => k != b
      | .ctl (.up _) _ k => k != barKey 0 b
      | _ => true) } }

/-- A core no longer takes part in the generations counted: its region is reset (R309). -/
def State.leaveCounts (s : State) (l : Nat) : State :=
  { s with nemar := { s.nemar with barCounts := (s.nemar.barCounts.map (fun x =>
      { x with cores := dropNum x.cores l })).filter (fun x => !x.cores.isEmpty) } }

/-- The outstanding arrivals that `hit` picks are released with FAIL and delivered in order (R309). -/
def Core.failArrivals (c : Core) (hit : BarArrival → Bool) : Core :=
  if c.barOut.any hit then
    ({ c with barOut := c.barOut.map (fun a => if hit a then { a with rel := some true } else a) } : Core).deliverBarriers
  else c

/-- A module-scoped barrier fails (R309, R332): outstanding generations are released with FAIL, EN is cleared, and on the
fabric the failure goes to the parent and the children, but not back to the node it came from. -/
def State.failBarrier (s : State) (b : Nat) (from_ : Option Nat) : State :=
  let m := s.modBar (b - 240)
  if !m.en then s else
  let key := barKey 0 b
  let hit := fun (a : BarArrival) => a.b.toNat == b && a.rel.isNone && !(s.barCount key a.gen).released
  let opens : NumSet := s.cores.foldl (fun g (e : Nat × Core) =>
    (e.2.barOut.filter hit).foldl (fun g a => addNum g a.gen) g) []
  let opens := m.childArr.foldl (fun g e => addNum g e.1) opens
  let s := { s with
    cores := s.cores.map (fun (e : Nat × Core) => (e.1, e.2.failArrivals hit))
    nemar := { s.nemar with barCounts := s.nemar.barCounts.filter (fun x => x.inst != key || x.released) } }
  let s := s.dropArrivals b
  let s := s.setModBar (b - 240) { m with en := false, fails := BitVec.ofNat 16 (satAdd 16 m.fails.toNat opens.length),
                                          childArr := [], kids := [], sentUp := 0 }
  if m.onFabric then
    let tos := if m.isRoot then m.kids else addNum m.kids m.parent
    (tos.filter (fun n => from_ != some n)).foldl (fun (t : State) n => t.sendCtrl n (.fail b)) s
  else s

/-- The module-scoped barriers that name a region fail: it is reset, HALTED or LOST, or begins a scan-out (R309). -/
def State.failRegionBarriers (s : State) (r : Nat) : State :=
  (List.range 16).foldl (fun (t : State) j =>
    let m := t.modBar j
    if m.en && m.names r then t.failBarrier (240 + j) none else t) s

/-- The region-scoped counts of a region go: its arrivals were discarded, or will be sent again (R309). -/
def State.dropRegionCounts (s : State) (r : Nat) : State :=
  { s with nemar := { s.nemar with barCounts := s.nemar.barCounts.filter (fun x => x.inst / 256 != r || 65536 ≤ x.inst) } }

end Sys2Proof.Machine
end

