-- ==== Sys2Proof/Machine/Recover.lean ====
section
/-! DEFINITION. Machine/Recover.lean: stopping and scanning out a region, flooding it, fencing a core, the loss of a core of
an enabled region, re-placement and the reset of a region (R67, R89 to R94, R388, R394 to R400, R466). -/

namespace Sys2Proof.Machine

/-! ## Scan areas (R91) -/

/-- First byte of stack S(k) (R24). -/
def stackBase (k : Nat) : Nat := 0x040000000000 + k * 0x2000000000

/-- First byte of a region's scan area in the stack of a core. -/
def scanBase (g : Region) (l : Nat) : Nat :=
  stackBase (2 * coreDie l + coreRow l / 16) + fld g.stageScan 0 17 * 0x100000

/-- k of R91. -/
def scanIndex (l : Nat) : Nat := coreRow l % 16 * 32 + coreCol l

/-- Where a core's state image is written. -/
def imageAddr (g : Region) (l : Nat) : Nat := scanBase g l + scanIndex l * 0x100000

/-- Where a core's pool slice is written. -/
def sliceImageAddr (g : Region) (l : Nat) : Nat := scanBase g l + 0x20000000 + scanIndex l * 0x400000

/-! ## Spans of memory -/

/-- Replaces the cells of a span. -/
def setSpan (m : Memory) (lo n : Nat) (cells : Memory) : Memory :=
  m.filter (fun e => e.1 < lo) ++ cells ++ m.filter (fun e => lo + n ≤ e.1)

/-- Replaces the numbers of a span of a set. -/
def setSpanNum (t : NumSet) (lo n : Nat) (ks : NumSet) : NumSet :=
  t.filter (· < lo) ++ ks ++ t.filter (lo + n ≤ ·)

/-- Copies a span of n bytes with its marks; spans and n are multiples of 16. -/
def State.copySpan (s : State) (src dst n : Nat) : State :=
  let cells := (s.mem.filter (fun e => src ≤ e.1 && e.1 < src + n)).map (fun e => (e.1 - src + dst, e.2))
  let ks := (s.marks.filter (fun k => src / 16 ≤ k && k < (src + n) / 16)).map (fun k => k - src / 16 + dst / 16)
  { s with mem := setSpan s.mem dst n cells, marks := setSpanNum s.marks (dst / 16) (n / 16) ks,
           host := (s.snoopData src n).host.unsnoop dst n }

/-- A span of undefined bytes: free values (log 2). -/
def freeCells (f a n : Nat) : Memory :=
  (List.range n).filterMap (fun i =>
    if Config.freeByte (f + i) = unlisted then none else some (a + i, Config.freeByte (f + i)))

/-- A span takes undefined contents: its bytes, and its marks unless `marks` gives them. -/
def State.freeSpan (s : State) (a n : Nat) (mark : Bool) : State :=
  let ks := (List.range (n / 16)).filterMap (fun i =>
    if mark || bit (Config.freeByte (s.free + n + i)) 0 then some (a / 16 + i) else none)
  { s with mem := setSpan s.mem a n (freeCells s.free a n), marks := setSpanNum s.marks (a / 16) (n / 16) ks,
           free := s.free + n + n / 16, host := s.host.unsnoop a n }

/-- Free values of a width (log 2). -/
def freeNat (k w : Nat) : Nat := (Config.freeWord k).toNat % 2 ^ w
/-- A free bit. -/
def freeBit (k : Nat) : Bool := bit (Config.freeWord k) 0
/-- A free line. -/
def freeLine (k : Nat) : Line :=
  (List.range 16).foldl (fun (w : Line) i => (w <<< 64) ||| (Config.freeWord (k + i)).zeroExtend 1024) 0
/-- A free entry, of 18 free values. -/
def freeEntry (k : Nat) : Entry :=
  { data := freeLine k, marks := BitVec.ofNat 8 (freeNat (k + 16) 8), phase := freeBit (k + 17), tide := bit (Config.freeWord (k + 17)) 1 }
/-- The entries of a buffer with undefined contents: some number of them, of 289 free values. -/
def freeEntries (k : Nat) : List Entry :=
  (List.range (freeNat (k + 288) 8 % (Config.sqEntries + 1))).map (fun i => freeEntry (k + 18 * i))
/-- The undefined spill area of a queue: some number of lines of the slice, each with its side bits. -/
def freeSpill (k : Nat) : List SpillLine :=
  (List.range (freeNat k 15)).map (fun i =>
    ⟨freeNat (k + 1 + i) 15, bit (Config.freeWord (k + 1 + i)) 16, bit (Config.freeWord (k + 1 + i)) 17⟩)
/-- The undefined passes of a generator: at most four. -/
def freePasses (k : Nat) : List Pass :=
  (List.range (freeNat k 8 % (Config.agPending + 1))).map (fun i =>
    { off := Int.ofNat (freeNat (k + 2 * i + 1) 48), cnt := freeNat (k + 2 * i + 2) 32 })
/-- An undefined matrix instruction. -/
def freeMatOp (k : Nat) : MatOp :=
  let n := fun (i w : Nat) => freeNat (k + i) w
  let ld : PlaneLoad := { src := n 1 4, fmt := BitVec.ofNat 4 (n 2 4), kLen := n 3 6, mLen := n 4 8 }
  let oq := if freeBit (k + 5) then some (BitVec.ofNat 3 (n 6 3)) else none
  match n 0 2 with
  | 0 => .load (freeBit (k + 7)) ld
  | 1 => .walk { k := n 8 32, m := n 9 32, n := n 10 32, nkMax := n 11 32, nmMax := n 12 32, nnMax := n 13 32,
                 levels := n 14 2, chunk := n 15 32, mw := n 16 8, wsrc := n 17 4, wssrc := n 18 4, isrc := n 19 4,
                 wfmt := BitVec.ofNat 4 (n 20 4), ifmt := BitVec.ofNat 4 (n 2 4), base := n 21 9, oq := oq }
  | _ => .stream { n := n 10 32, b := n 22 9, wsrc := n 17 4, wssrc := n 18 4, wfmt := BitVec.ofNat 4 (n 20 4),
                   tree := freeBit (k + 23), base := n 21 9, depth := n 24 8, last := freeBit (k + 25), p := freeBit (k + 7),
                   oq := oq } (if freeBit (k + 26) then some ld else none)
/-- An undefined vector operand. -/
def freePlace (k : Nat) : Place :=
  match freeNat k 3 with
  | 0 => .none
  | 1 => .vreg (freeNat (k + 1) 4)
  | 2 => .cache (freeNat (k + 1) 19)
  | 3 => .acc (freeNat (k + 1) 9)
  | 4 => .queue (freeNat (k + 1) 4)
  | _ => .pool (freeNat (k + 1) 22)
/-- An undefined vector instruction. -/
def freeVecOp (k : Nat) : VecOp :=
  let n := fun (i w : Nat) => freeNat (k + i) w
  { op := n 0 8, n := n 1 13, cols := n 2 13, d := freePlace (k + 3), a := freePlace (k + 5), b := freePlace (k + 7)
    c := freePlace (k + 9), fmt := n 11 4, aux := n 12 4, rnd := freeBit (k + 13), sS := Config.freeWord (k + 14)
    sDst := BitVec.ofNat 5 (n 15 5), tap := freeBit (k + 16), w := n 17 8 }
/-- An engine queue with undefined contents: some number of instructions, at most its depth, of 32 free values each. -/
def freeEngineQueue {α : Type} (depth k : Nat) (op : Nat → α) : List (Queued α) :=
  (List.range (freeNat k 16 % (depth + 1))).map (fun i =>
    let j := k + 1 + 32 * i
    ⟨freeNat j 64, freeNat (j + 1) 64, freeNat (j + 2) 32, op (j + 3)⟩)
/-- An undefined arbiter, of 32 free values: what is parked in it, what its grant serves, and its counters. -/
def freeArbiter (k : Nat) : Arbiter :=
  { parked := (List.range (freeNat k 8 % (Config.arbPending + 1))).map (fun i => (freeNat (k + 2 * i + 1) 3, freeNat (k + 2 * i + 2) 4))
    granted := if freeBit (k + 20) then some (freeNat (k + 21) 3) else none
    dead := BitVec.ofNat 16 (freeNat (k + 22) 16), refuse := BitVec.ofNat 16 (freeNat (k + 23) 16)
    hwm := freeNat (k + 24) 8 % (Config.arbPending + 1) }
/-- A free plane, of 800 free values. -/
def freePlane (k : Nat) : Plane :=
  { fmt := BitVec.ofNat 4 (freeNat k 4), kLen := freeNat (k + 1) 6, mLen := freeNat (k + 2) 8, scales := freeLine (k + 3)
    rows := (List.range 32).map (fun j => (j, (freeLine (k + 32 + 16 * j)).setWidth 512))
    rowMarks := (List.range 128).filter (fun j => freeBit (k + 600 + j))
    scaleMarks := BitVec.ofNat 8 (freeNat (k + 19) 8) }
/-- A stream queue with undefined contents and registers, of 300 free values and those of its spill area. -/
def freeQueue (k sp : Nat) : StreamQueue :=
  { cfg := Config.freeWord k &&& 0x80073FFF, spillCfg := Config.freeWord (k + 1) &&& 0x00007FFF00007FFF
    buf := freeEntries (k + 8), spill := freeSpill sp, cred0 := freeNat (k + 4) 16, cred1 := freeNat (k + 5) 16
    out0 := freeNat (k + 6) 16, out1 := freeNat (k + 7) 16, stall := Config.freeWord (k + 2), hwm := freeNat (k + 3) 15 }
/-- A generator with an undefined fetch queue, passes and registers, of 400 free values. -/
def freeGen (k : Nat) : AddrGen :=
  let w := fun (i : Nat) => Config.freeWord (k + i)
  { ctrl := w 0 &&& 0xFFFFFE00, base := w 1 &&& 0x0000FFFFFFFFFFFF, dim0 := w 2 &&& 0x1FFFF, dims := #v[w 3, w 4, w 5, w 6]
    idx := w 7 &&& 0xFFFFFFFF, land := w 8 &&& 0x00007FFF00007FFF, fq := freeEntries (k + 30), told := freeNat (k + 9) 32
    passes := freePasses (k + 330), stopping := freeBit (k + 340)
    cur := if freeBit (k + 341) then
        some ({ off := Int.ofNat (freeNat (k + 342) 48), cnt := freeNat (k + 343) 32 }, freeNat (k + 344) 32)
      else none
    deq := freeNat (k + 10) 16, gated := freeBit (k + 11), tilesDone := w 12, errs := w 13, late := w 14, fqStall := w 15 }

/-- The registers and queues of a core whose physical column has moved are undefined (R19): free values from number f on. Its
ARB_ words are kept to be written again (R315). -/
def Core.undefined (c : Core) (f : Nat) : Core :=
  let w := fun (i : Nat) => Config.freeWord (f + 74000 + i)
  let n := fun (i wid : Nat) => freeNat (f + 74000 + i) wid
  let b := fun (i : Nat) => freeBit (f + 74000 + i)
  { c with
    sregs := (rangeFrom 1 31).map (fun r => (r, Config.freeWord (f + r)))
    acc := (List.range 512).map (fun j => (j, freeLine (f + 32 + 16 * j)))
    accMarks := (List.range 512).filter (fun j => freeBit (f + 80000 + j))
    vregs := (List.range 65536).map (fun e => (e, (Config.freeWord (f + 8224 + e)).setWidth 32))
    vregMarks := (List.range 2048).filter (fun j => freeBit (f + 81000 + j))
    cache := freeCells f 0 Config.cacheBytes
    cacheMarks := (List.range 16384).filter (fun j => freeBit (f + 84000 + j))
    imem0 := (List.range 4096).map (fun a => (a, Config.freeWord (f + 101000 + a)))
    imem1 := (List.range 4096).map (fun a => (a, Config.freeWord (f + 106000 + a)))
    pc := BitVec.ofNat 12 (n 0 12), bank := b 1, slot := n 2 64, refbeats := n 3 64, ended := b 4, faulted := b 5
    spoison := b 6, evtLost := BitVec.ofNat 16 (n 7 16), faultReg := w 8, faultSlot := n 9 64, waiting := b 10
    phase := b 11, plane0 := freePlane (f + 112000), plane1 := freePlane (f + 113000), classErr := b 12, seqPos := w 13
    vecStatus := BitVec.ofNat 8 (n 14 8), htapCfg := w 15 &&& 0xF3, rngSeed := w 16, rngCtx := w 17 &&& 0x0000FFFFFFFFFFFF
    htapBins := (List.range 64).map (fun j => (j, n (100 + j) 32)), htapPois := n 18 32, htapInstr := n 19 32
    sq := Vector.ofFn (fun (i : Fin 16) => freeQueue (f + 115000 + 300 * i.val) (f + 200000 + 0x8001 * i.val))
    ag := Vector.ofFn (fun (i : Fin 4) => freeGen (f + 120000 + 400 * i.val))
    matQ := freeEngineQueue Config.eqMatrix (f + 122000) freeMatOp
    vecQ := freeEngineQueue Config.eqVector (f + 124000) freeVecOp
    fetchQ := (List.range (freeNat (f + 127000) 16 % (Config.eqFetch + 1))).map (fun i =>
      (freeNat (f + 127001 + 4 * i) 2, if freeBit (f + 127002 + 4 * i) then none
        else some { off := Int.ofNat (freeNat (f + 127003 + 4 * i) 48), cnt := freeNat (f + 127004 + 4 * i) 32 }))
    dmaQ := (List.range (freeNat (f + 127400) 16 % (Config.eqDma + 1))).map (fun i =>
      (freeNat (f + 127401 + 3 * i) 1, 64 * freeNat (f + 127402 + 3 * i) 16, freeNat (f + 127403 + 3 * i) 64))
    walkEnd := n 200 64, arbCommits := BitVec.ofNat 16 (n 201 16), arbRefused := b 202, arbReason := BitVec.ofNat 16 (n 203 16)
    arbs := (List.range 23).map (fun i => (i, freeArbiter (f + 127600 + 32 * i)))
    rdl := BitVec.ofNat 10 (n 20 10)
    dma := Vector.ofFn (fun (i : Fin 2) => { ({} : DmaChannel) with
      chains := (List.range (n (210 + i.val) 8 % (Config.dmaChains + 1))).map (fun j =>
        (64 * n (220 + 16 * i.val + 2 * j) 16, n (221 + 16 * i.val + 2 * j) 64))
      desc := BitVec.ofNat 16 (n (21 + i.val) 16), busy := b (23 + i.val), ownStop := b (25 + i.val)
      abandoned := b (27 + i.val), pfail := b (29 + i.val), nbad := BitVec.ofNat 32 (n (31 + i.val) 32)
      ndone := BitVec.ofNat 32 (n (33 + i.val) 32) })
    pk := { cfg := w 35 &&& 0xFCFC, packIn := freeEntries (f + 128500), pframes := w 36, uframes := w 37, nanblk := BitVec.ofNat 32 (n 38 32)
            short := BitVec.ofNat 16 (n 39 16) }
    barArr := BitVec.ofNat 16 (n 40 16), barRel := BitVec.ofNat 16 (n 41 16), barFail := b 42
    pourDone := BitVec.ofNat 16 (n 43 16), pourSent := BitVec.ofNat 16 (n 44 16), pourFail := b 45
    units := Vector.ofFn (fun (i : Fin 8) => ⟨w (50 + 4 * i.val), w (51 + 4 * i.val), w (52 + 4 * i.val), w (53 + 4 * i.val)⟩)
    stallTotal := n 46 64, freeze := b 47, ptMiss := w 48, ptRetry := w 49, steepMiss := w 90 }

/-- The slice and the registers of a core hold undefined contents (R19). -/
def State.undefineCore (s : State) (l : Nat) : State :=
  let s := s.freeSpan (sliceBase l) 0x400000 false
  let f := s.free
  { s.setCore l ((s.core l).undefined f) with free := f + 0x100000 }

/-! ## Checks that an enable and a flood share (R61, R62, R66) -/

/-- A reason with its detail and core. -/
structure Refused where
  reason : Nat
  detail : Nat := 0
  core : Option Nat := none
  deriving DecidableEq, Repr

/-- RESULT1 of a CHECK_REFUSED. -/
def Refused.word (x : Refused) : Word := r1Reason x.reason x.detail x.core

/-- A re-placement holds the region SAVED on its way to a flood (R66). -/
def State.heldSaved (s : State) (r : Nat) : Bool :=
  (s.region r).state == .saved && s.nemar.replacements.any (fun x => x.regions.contains r)

/-- Another region whose cores block region r over a rectangle. -/
def State.overlapping (s : State) (r : Nat) (rect : Word) : Option Nat :=
  ((s.regions.filter (fun e => e.1 != r && (e.2.state.enabled || s.heldSaved e.1) &&
    rectX0 e.2.rect ≤ rectX1 rect && rectX0 rect ≤ rectX1 e.2.rect &&
    rectY0 e.2.rect ≤ rectY1 rect && rectY0 rect ≤ rectY1 e.2.rect)).head?).map Prod.fst

/-- Regions enabled. -/
def State.enabledCount (s : State) : Nat := (s.regions.filter (fun e => e.2.state.enabled)).length

/-- REGION_LIMIT, REGION_OVERLAP and REGION_ABSENT (R61, R62). The detail of REGION_LIMIT and REGION_ABSENT is the region
itself (DEDUCED, log 30). -/
def State.placeCheck (s : State) (r : Nat) (rect : Word) : Option Refused :=
  if Config.regionLimit ≤ s.enabledCount then some { reason := rsRegionLimit, detail := r }
  else if rectX1 rect < rectX0 rect || rectY1 rect < rectY0 rect then some { reason := rsRectOrder, detail := r }
  else match s.overlapping r rect with
  | some k => some { reason := rsRegionOverlap, detail := k }
  | none =>
    match (rectCores rect).find? (fun l => !s.available l) with
    | some l => some { reason := rsRegionAbsent, detail := r, core := some l }
    | none => none

/-! ## Stopping and scanning out (R89) -/

/-- STOP to every core of a region. -/
def State.stopCores (s : State) (r : Nat) : State :=
  (rectCores (s.region r).rect).foldl (fun (t : State) l => t.setCore l { t.core l with stopping := true }) s

/-- The state a flood returns a region to (R94, R371, R465). -/
def Region.returnState (g : Region) : RState :=
  match g.state with
  | .tideline => .tideline
  | .ebbing => .ebbing
  | .slack => .slack
  | .lost => g.resume
  | .stopping => g.resume
  | .scanning => g.resume
  | .saved => g.resume
  | .flooding => g.resume
  | _ => if g.load.isSome then .tideline else .running

/-- What a region's scan message through a port of its stack is about. -/
def scanKey (r port : Nat) : Nat := 4 * r + port

/-- The scan traffic of a region's cores, to or from the four port routers of their image's stack; a message stands for the
lines of an image that go through one of them (R90; DESIGN CHOICE, log 67). -/
def State.sendScan (s : State) (r : Nat) (out : Bool) : State :=
  let g := s.region r
  (rectCores g.rect).foldl (fun (t : State) l => (List.range 4).foldl (fun (t : State) i =>
    let a := t.physOf l
    let b := stackRouter (imageAddr g l + 128 * i)
    if out then t.tellNode a b l .scan (scanKey r i) else t.tellNode b a l .scan (scanKey r i)) t) s

/-- Scan traffic of a region is on the control net; that of a core lost meanwhile is not awaited (R466). -/
def State.scanning (s : State) (r : Nat) : Bool :=
  (rectCores (s.region r).rect).any (fun l => !(s.region r).void.contains l &&
    (List.range 4).any (fun i => s.underWay .scan l (scanKey r i)))

/-- The scan traffic of a region is over. -/
def State.scanned (s : State) (r : Nat) : State :=
  { s with mesh := { s.mesh with flits := s.mesh.flits.filter (fun x => match x.2.kind with
      | .ctl .scan _ k => k / 4 != r
      | _ => true) } }

/-- The scan of a STOPPING region begins once every core of it has stopped. -/
def State.scanIfStopped (s : State) (r : Nat) : State :=
  if (s.region r).state == .stopping && (rectCores (s.region r).rect).all (fun m => (s.core m).stopped) then
    (s.setRState r .scanning).sendScan r true
  else s

/-- A scan-out begins: STOPPING, the module-scoped barriers that name the region fail, STOP goes to every core. -/
def State.startScan (s : State) (r : Nat) (cause : ScanCause) (savePool : Bool) : State :=
  let g := s.region r
  let s := s.setRegion r { g with scanCause := cause, savePool := savePool, resume := g.returnState }
  (((s.failRegionBarriers r).stopCores r).setRState r .stopping).scanIfStopped r

/-- Bytes of a state image that R92 gives contents: a header and the sections that follow it. -/
def imageBytes : Nat := 0xDB000

/-- Cells of the entries of a table, n bytes each, from a byte of the image on. -/
def tableCells (base n : Nat) (t : Table Nat) : Memory :=
  t.flatMap (fun e => (toBytes n e.2).zipIdx.map (fun b => (base + n * e.1 + b.2, b.1)))

/-- The cells of a core's state image after its header, by offset (R92). Within the 8 KiB of the planes, plane 0 lies from 0x9000
and plane 1 from 0xA000 on, 64 bytes a row; a plane's format, lengths, scales and marks stand in the header (DESIGN CHOICE, log
147). -/
def Core.imageCells (c : Core) : Memory :=
  let plane := fun (p : Plane) => p.rows.map (fun (e : Nat × BitVec 512) => (e.1, e.2.toNat))
  ((List.range 16).flatMap (fun q =>
    tableCells (0x1000 + 2048 * q) 128 ((c.queue q).buf.zipIdx.map (fun e => (e.2, e.1.data.toNat))))) ++
  tableCells 0x9000 64 (plane c.plane0) ++ tableCells 0xA000 64 (plane c.plane1) ++
  tableCells 0xB000 128 (c.acc.map (fun (e : Nat × Line) => (e.1, e.2.toNat))) ++
  tableCells 0x1B000 4 (c.vregs.map (fun (e : Nat × BitVec 32) => (e.1, e.2.toNat))) ++
  c.cache.map (fun e => (0x5B000 + e.1, e.2))

/-- A memory that holds the cells given, in canonical form. -/
def canonical (cells : Memory) : Memory := cells.foldl (fun m e => setByte m e.1 e.2) []

/-- A core without what its image keeps in memory. -/
def Core.imageHeader (c : Core) : Core :=
  { c with sq := c.sq.map (fun q => { q with buf := q.buf.map (fun e => { e with data := 0 }) }),
           plane0 := { c.plane0 with rows := [] }, plane1 := { c.plane1 with rows := [] },
           acc := [], vregs := [], cache := [], stopping := false, stopped := false, arbs := c.dropAccesses.arbs
           cuParked := [] }

/-- The entries of n bytes each that sorted cells hold. -/
def gatherCells (n : Nat) (cells : Memory) : Table Nat :=
  cells.foldr (fun e t =>
    let v := e.2.toNat * 256 ^ (e.1 % n)
    match t with
    | (k, w) :: u => if k = e.1 / n then (k, w + v) :: u else (e.1 / n, v) :: t
    | [] => [(e.1 / n, v)]) []

/-- A core with what its image keeps in memory put back, from the image's cells by offset. -/
def Core.fromImage (c : Core) (cells : Memory) : Core :=
  let part := fun (lo hi n : Nat) =>
    gatherCells n ((cells.filter (fun e => lo ≤ e.1 && e.1 < hi)).map (fun e => (e.1 - lo, e.2)))
  let line := fun (e : Nat × Nat) => (e.1, BitVec.ofNat 1024 e.2)
  let row := fun (e : Nat × Nat) => (e.1, BitVec.ofNat 512 e.2)
  let bufs := part 0x1000 0x9000 128
  { c with
    sq := c.sq.mapFinIdx (fun q x _ => { x with buf := x.buf.zipIdx.map (fun e =>
      { e.1 with data := BitVec.ofNat 1024 (look bufs (16 * q + e.2) 0) }) })
    plane0 := { c.plane0 with rows := (part 0x9000 0xA000 64).map row }
    plane1 := { c.plane1 with rows := (part 0xA000 0xB000 64).map row }
    acc := (part 0xB000 0x1B000 128).map line
    vregs := (part 0x1B000 0x5B000 4).map (fun e => (e.1, BitVec.ofNat 32 e.2))
    cache := (cells.filter (fun e => 0x5B000 ≤ e.1 && e.1 < imageBytes)).map (fun e => (e.1 - 0x5B000, e.2)) }

/-- Writes one core's state image (R91, R92). The two instruction banks, for which R92's table has no place, travel with the
header (DESIGN CHOICE, log 147). -/
def State.saveImage (s : State) (g : Region) (l : Nat) : State :=
  let c := s.core l
  let a := imageAddr g l
  let im : ScanImage := { core := l, rect := g.rect, sectionId := BitVec.ofNat 16 (fld g.ctrl 16 16),
                          void := g.void.contains l, gate := g.gate, bytes := s.free, st := c.imageHeader }
  let cells := (canonical c.imageCells).filter (fun e => 0x1000 ≤ e.1 && e.1 < imageBytes)
  let m := setSpan (setSpan s.mem a 0x1000 (freeCells s.free a 0x1000)) (a + 0x1000) (imageBytes - 0x1000)
    (cells.map (fun e => (a + e.1, e.2)))
  { s with mem := m, marks := setSpanNum s.marks (a / 16) (imageBytes / 16) [], free := s.free + 0x1000,
           images := put s.images a im, host := s.host.unsnoop a imageBytes }

/-- Writes the images of a region's cores, and their slices when they are saved (R89 to R92); an image of a lost core is
marked VOID. -/
def State.saveImages (s : State) (r : Nat) : State :=
  let g := s.region r
  (rectCores g.rect).foldl (fun (t : State) l =>
    let t := t.saveImage g l
    if g.savePool && !g.void.contains l then t.copySpan (sliceBase l) (sliceImageAddr g l) 0x400000 else t) s

/-! ## Flood (R93) -/

/-- The cells of a span of memory, by offset. -/
def spanCells (m : Memory) (a n : Nat) : Memory :=
  (m.filter (fun e => a ≤ e.1 && e.1 < a + n)).map (fun e => (e.1 - a, e.2))

/-- The bytes of an image's header are as they were written. -/
def State.headerIntact (s : State) (a : Nat) (im : ScanImage) : Bool :=
  spanCells s.mem a 0x1000 == freeCells im.bytes 0 0x1000

/-- A header does not match, or no image is there. -/
def State.imageMismatch (s : State) (r : Nat) : Bool :=
  let g := s.region r
  (rectCores g.rect).any (fun l => match find? s.images (imageAddr g l) with
    | some im => !s.headerIntact (imageAddr g l) im || im.void || im.core != l || im.rect != g.rect ||
        im.sectionId != BitVec.ofNat 16 (fld g.ctrl 16 16)
    | none => true)

/-- Why a flood of region r is refused, if it is. -/
def State.floodCheck (s : State) (r : Nat) : Option Refused :=
  match s.placeCheck r (s.region r).rect with
  | some x => some x
  | none => if s.imageMismatch r then some { reason := rsFloodMismatch, detail := r } else none

/-- A flood begins. -/
def State.startFlood (s : State) (r : Nat) : State := (s.setRState r .flooding).sendScan r false

/-- A flood stops: the region is SAVED again, its image being intact (R398, R402, R466). -/
def State.stopFlood (s : State) (r : Nat) : State := (s.scanned r).setRState r .saved

/-- A core as its image restores it: it runs on, and sends its outstanding arrivals again (R309). -/
def Core.restored (c : Core) : Core :=
  { c with running := true, stopping := false, stopped := false, off := false, ptCache := [],
           barOut := c.barOut.map (fun a => if a.rel.isNone then { a with sent := false } else a) }

/-- The lasting errors that a logical core's silicon has given, from the count of its physical core (R390). -/
def State.silicon (s : State) (l : Nat) (c : Core) : Core :=
  let es := look s.nemar.sram (s.physOf l) []
  let of := fun (kind : Nat) => (es.filter (fun e => e / 2 ^ 32 == kind)).map (fun e => e % 2 ^ 32)
  { c with cacheErr := of 0x05, vregErr := of 0x06, accErr := of 0x07, imemErr := of 0x08 }

/-- Restores the images of a region's cores, and the slices that were saved; a faulted core sends its fault message again
(R120). -/
def State.restoreImages (s : State) (r : Nat) : State :=
  let g := s.region r
  (rectCores g.rect).foldl (fun (t : State) l =>
    match find? t.images (imageAddr g l) with
    | some im =>
      let c := im.st.fromImage (spanCells t.mem (imageAddr g l) imageBytes)
      let t := (t.setCore l (t.silicon l c.restored)).setRegion r { t.region r with gate := im.gate }
      let t := if c.faulted then t.sendFault l else t
      let t := c.evts.foldl (fun (t : State) _ => t.tellNemar l .evt 0) t
      let t := c.restored.barOut.foldl (fun (t : State) a =>
        if a.sent || a.rel.isSome then t else t.sendArrival l a.b.toNat) t
      if g.savePool then t.copySpan (sliceImageAddr g l) (sliceBase l) 0x400000 else t
    | none => t) s

/-! ## The fault map and fencing (R16, R19, R394, R425) -/

/-- Words of a row's entry in the fault map (R425). -/
def Row.entryWords (w : Row) (absent : Bool) : Word × Word :=
  let mask := fun (t : NumSet) => BitVec.ofNat 64 (t.foldl (fun a c => a + 2 ^ c) 0)
  (flag64 63 w.rowOut ||| flag64 62 absent ||| mask w.faults, mask w.routers)

/-- ROW_OUT of row k in the fault map, which keeps what a failed bring-up of its die has marked (R18, R423, R425). -/
def State.mapRowOut (s : State) (k : Nat) : Bool :=
  (look s.plant.rows k ({} : Row)).rowOut || s.plant.dieOutMap.contains (k / 32)

/-- Entry k of the fault map: a row's, or from 512 on the word of a quadrant (R425). -/
def State.faultEntry (s : State) (k : Nat) : List Word :=
  if k < 512 then
    let w := look s.plant.rows k ({} : Row)
    let e := ({ w with rowOut := s.mapRowOut k } : Row).entryWords (!dieExists s.grade (k / 32))
    [e.1, e.2]
  else [flag64 0 (s.quad (k - 512)).slow ||| flag64 1 (s.plant.dieOutMap.contains ((k - 512) / 4)), 0]

/-- Writes entry k of the fault map as a FAULT record (R427); a quadrant's word is entry 512 + q (DESIGN CHOICE, log 152: R427
names the row entries alone). -/
def State.recordFault (s : State) (k : Nat) : State :=
  let n := s.store.jseq
  let s := s.journalAppend jkFault k (BitVec.ofNat 64 k :: 0 :: s.faultEntry k)
  if n < s.store.jseq then { s with store := { s.store with faultJseq := n } } else s

/-- Changes row k; a change of its entry in the fault map is recorded. -/
def State.writeRow (s : State) (k : Nat) (w : Row) : State :=
  let t := { s with plant := { s.plant with rows := put s.plant.rows k w } }
  if t.faultEntry k = s.faultEntry k then t else t.recordFault k

/-- The FAULT record of entry k is not committed yet: DIE_ROWMAP waits for it (R428). -/
def Store.faultOwed (st : Store) (k : Nat) : Bool :=
  st.unrecorded.contains k || st.waiting.any (fun x => x.1 == jkFault && x.2.1 == k)

/-- Row number d × 32 + r of a physical core. -/
def rowOf (p : Nat) : Nat := physDie p * 32 + physRow p

/-- Logical cores whose physical column a fence at p moves (R397). -/
def State.movedBy (s : State) (p : Nat) : NumSet :=
  (rangeFrom (rowOf p * 32) 32).filter (fun l => physColOf p ≤ physColOf (s.physOf l))

/-- Fences a physical core (R394): its contents are lost, the fault goes into the fault map; its row map is as it was. -/
def State.fence (s : State) (p : Nat) (routerFailed : Bool) : State :=
  let s := match s.logOf p with
    | some l =>
      let c := s.core l
      s.setCore l { ({} : Core) with arbShadow := c.arbShadow, arbActive := c.arbActive }
    | none => s
  let s := { s with nemar := { s.nemar with fencedNow := addNum s.nemar.fencedNow p, weak := dropNum s.nemar.weak p } }
  let w := look s.plant.rows (rowOf p) ({} : Row)
  let s := s.setRouter p { s.router p with pass := true }
  s.writeRow (rowOf p) { w with faults := addNum w.faults (physColOf p),
                                routers := if routerFailed then addNum w.routers (physColOf p) else w.routers }

/-- The new row map with a fence's fault in force (R16, R19), and the undefined contents of the logical cores that move. -/
def State.commitFence (s : State) (p : Nat) : State :=
  let moved := s.movedBy p
  let k := rowOf p
  let w := look s.plant.rows k ({} : Row)
  let s := s.writeRow k { w with inForce := addNum w.inForce (physColOf p) }
  moved.foldl (fun (t : State) l =>
    let u := t.undefineCore l
    u.setCore l (u.silicon l (u.core l))) s

/-- Physical cores fenced beneath a region and not yet mapped around. -/
def State.reefsOf (s : State) (r : Nat) : List Nat :=
  ((rectCores (s.region r).rect).filter s.reef).map s.physOf

/-- Enabled regions that hold a logical core that fences move (R397). -/
def State.movedRegions (s : State) (ps : List Nat) : NumSet :=
  let ls := ps.flatMap s.movedBy
  ((s.regions.filter (fun e => e.2.state.enabled && ls.any (inRect e.2.rect))).map Prod.fst)

/-! ## Re-placement (R398) -/

/-- Removes a region from the re-placements, taking the REPLACE commands that name it. -/
def State.leaveReplacement (s : State) (r : Nat) : State × List CmdRef :=
  let cmds := s.nemar.replacements.flatMap (fun x => (x.cmds.filter (fun c => c.1 == r)).map Prod.snd)
  ({ s with nemar := { s.nemar with replacements := s.nemar.replacements.map (fun x =>
      { x with regions := dropNum x.regions r, cmds := x.cmds.filter (fun c => c.1 != r) }) } }, cmds)

/-- A region of the re-placements is restored: it takes no further part, and its REPLACE commands wait for the rest. -/
def State.doneReplaced (s : State) (r : Nat) : State :=
  { s with nemar := { s.nemar with replacements := s.nemar.replacements.map (fun x =>
      { x with regions := dropNum x.regions r }) } }

/-- The router-output words of a core are written and committed. -/
def Core.routerArb (c : Core) (ws : List (Nat × Word)) : Core :=
  { c with arbShadow := ws.foldl (fun t e => put t e.1 e.2) c.arbShadow,
           arbActive := ws.foldl (fun t e => put t e.1 e.2) c.arbActive }

/-- The router-output words of a core return to their reset values (R317). -/
def Core.resetRouterArb (c : Core) : Core :=
  let out := fun (t : Table Word) => t.filter (fun e => e.1 < 16 || 20 < e.1)
  { c with arbShadow := out c.arbShadow, arbActive := out c.arbActive }

/-- The routers of the rectangle that a region's words were written over, where it has left them for another rectangle and no
other enabled region holds them, are beneath no region and take the reset values (R317). -/
def State.leaveArb (s : State) (r : Nat) (rect : Word) : State :=
  match (s.region r).arbWords with
  | none => s
  | some (old, _) =>
    ((rectCores old).filter (fun l => !inRect rect l && (s.regionOf l).isNone)).foldl
      (fun (t : State) l => t.setCore l (t.core l).resetRouterArb) s

/-- The words kept for a region go into the routers beneath its cores (R317). -/
def State.rewriteArb (s : State) (r : Nat) : State :=
  let g := s.region r
  match g.arbWords with
  | none => s
  | some (_, ws) =>
    let s := s.leaveArb r g.rect
    let s := (rectCores g.rect).foldl (fun (t : State) l =>
      t.setCore l ((t.core l).routerArb ((rangeFrom 16 5).zip ws))) s
    s.setRegion r { g with arbWords := some (g.rect, ws) }

/-- Step 5 for a region with a VOID image: the other slices return, a lost core's new slice is marked throughout, and the
region is left STAGED. -/
def State.stageVoid (s : State) (r : Nat) : State :=
  let g := s.region r
  let s := (rectCores g.rect).foldl (fun (t : State) l =>
    if g.void.contains l then t.freeSpan (sliceBase l) 0x400000 true
    else if g.savePool then t.copySpan (sliceImageAddr g l) (sliceBase l) 0x400000 else t) s
  (s.setRegion r { g with void := [], lostCore := none, stopFault := none }).setRState r .staged

/-- Step 4 for a region without one: its flood begins, or is refused: the region stays SAVED, a REPLACE that names it
completes CHECK_REFUSED, and with AUTO = 1 the refusal is logged. -/
def State.floodReplaced (s : State) (r : Nat) : State :=
  match s.floodCheck r with
  | none => s.startFlood r
  | some x =>
    let y := s.leaveReplacement r
    let s := y.2.foldl (fun (t : State) k => t.refuse k stCheckRefused x.word) y.1
    if s.nemar.auto then s.logEvent { code := stCheckRefused, srcKind := 8, srcId := r, region := r } x.word 0 0 0 else s

/-- The store commits a FAULT record at once. -/
def Store.recordsNow (st : Store) : Bool := !st.verifyFails && !st.full [4] && st.unrecorded.isEmpty && st.waiting.isEmpty

/-- A re-placement can commit its row maps: every region that takes part is SAVED, no enabled region holds a core that moves,
and the store holds its faults (R428). -/
def State.mayCommit (s : State) (x : Replacement) : Bool :=
  !x.committed && s.store.recordsNow && x.regions.all (fun r => (s.region r).state == .saved) && (s.movedRegions x.fences).isEmpty

/-- The physical core that a fence's new row map brings into use: that of its row's last logical column (R16, R398). -/
def State.spareOf (s : State) (p : Nat) : Nat :=
  let w := look s.plant.rows (rowOf p) ({} : Row)
  rowOf p / 32 * 1088 + rowOf p % 32 * 34 + physCol (addNum w.inForce (physColOf p)) 31

/-- The spare that step 2 has powered up for a fence, those of the row that have failed passed over. -/
def State.spareInTest (s : State) (p : Nat) : Nat :=
  let w := look s.plant.rows (rowOf p) ({} : Row)
  let bad := (s.nemar.badSpares.filter (fun q => rowOf q == rowOf p)).map physColOf
  rowOf p / 32 * 1088 + rowOf p % 32 * 34 + physCol (bad.foldl addNum (addNum w.inForce (physColOf p))) 31

/-- Step 2: the spare is self-tested; one that has failed twice is fenced, and the next one is tried (R400). `fuel` bounds the
spares. -/
def State.testSpares (p : Nat) : Nat → State → State
  | 0, s => s
  | n + 1, s =>
    let q := s.spareOf p
    if s.nemar.badSpares.contains q && q != p then
      let s := { s with nemar := { s.nemar with badSpares := dropNum s.nemar.badSpares q } }
      testSpares p n (((s.logError true 1 q errSelfTest (physColOf q) 0 none).fence q false).commitFence q)
    else s

/-- A region cannot be re-placed (R400): a reef is the third lasting fault of its row, or no plan reaches a core. The
core, and the cause. -/
def State.replaceFails (s : State) (r : Nat) : Option (Nat × Nat) :=
  let cs := rectCores (s.region r).rect
  match cs.find? (fun l => s.reef l && 2 < (s.row (coreDie l) (coreRow l)).faults.length) with
  | some l => some (l, 6)
  | none => (cs.find? s.nemar.unreached.contains).map (fun l => (l, 4))

/-- Logs a CORE_LOST record (R392). -/
def State.logCoreLost (s : State) (l : Option Nat) (p cause r : Nat) (set : NumSet) : State :=
  let mask := set.foldl (fun a k => if k < 64 then a + 2 ^ k else a) 0
  s.logEvent { code := stCoreLost, srcKind := (if l.isSome then 0 else 8), srcId := l.getD r, region := r }
    (match l with
      | some k => BitVec.ofNat 64 k
      | none => allOnes)
    (BitVec.ofNat 64 p) (BitVec.ofNat 64 cause) (BitVec.ofNat 64 mask)

/-- The affected set of a region's reefs: the region, and the enabled regions whose cores they move (R397). -/
def State.affected (s : State) (r : Nat) : NumSet := addNum (s.movedRegions (s.reefsOf r)) r

/-- A region of a re-placement that no spare can serve is left LOST, its scan image intact (R400). -/
def State.failReplaced (s : State) (r : Nat) : State :=
  match s.replaceFails r with
  | none => s
  | some (l, cause) =>
    let y := s.leaveReplacement r
    y.2.foldl (fun (t : State) k => t.finish k stReplaceFail 0 (r1Core (some l) cause 0 0))
      ((y.1.setRState r .lost).logCoreLost (some l) (y.1.physOf l) cause r (y.1.affected r))

/-- The fences that a re-placement will map around: those whose row has a spare left (R18, R400). -/
def State.mendable (s : State) (fences : List Nat) : List Nat :=
  fences.filter (fun p => (look s.plant.rows (rowOf p) ({} : Row)).faults.length ≤ 2)

/-- Steps 2 to 5 for one re-placement whose regions are all SAVED. -/
def State.commitReplacement (s : State) (x : Replacement) : State :=
  let s := x.fences.foldl (fun (t : State) p => t.testSpares p 2) s
  let lost := x.regions.filter (fun r => (s.replaceFails r).isSome)
  let s := lost.foldl (fun (t : State) r => t.failReplaced r) s
  let fences := s.mendable x.fences
  let moved := ((fences.flatMap s.movedBy).foldl addNum []).length
  let s := fences.foldl (fun (t : State) p => t.commitFence p) s
  let s := { s with nemar := { s.nemar with replacements := s.nemar.replacements.map (fun y =>
      if y.fences == x.fences && !y.committed then { y with committed := true, moved := moved } else y) } }
  (x.regions.filter (fun r => !lost.contains r)).foldl (fun (t : State) r =>
    let t := t.rewriteArb r
    if (t.region r).void.isEmpty then t.floodReplaced r else (t.stageVoid r).doneReplaced r) s

/-- Step 6: a re-placement with every region restored completes its REPLACE commands with the cores moved. -/
def State.endReplacements (s : State) : State :=
  let past := fun (x : Replacement) => x.committed && x.regions.isEmpty
  let ended := s.nemar.replacements.filter past
  let s := { s with nemar := { s.nemar with replacements := s.nemar.replacements.filter (fun x => !past x) } }
  ended.foldl (fun (t : State) x =>
    x.cmds.foldl (fun (t : State) c => t.succeed c.2 (BitVec.ofNat 64 x.moved) 0) t) s

/-- Carries every re-placement as far as the states of its regions allow. -/
def State.advanceReplacements (s : State) : State :=
  (s.nemar.replacements.foldl (fun (t : State) x => if t.mayCommit x then t.commitReplacement x else t) s).endReplacements

/-- A region's slices go into its scan-out, whatever RGN_CTRL holds. -/
def State.forceSave (s : State) (r : Nat) : State := s.setRegion r { s.region r with savePool := true }

/-- A region of the affected set is scanned out at once with its slices; a flood of it stops, its image being intact. -/
def State.joinReplacement (s : State) (r : Nat) : State :=
  match (s.region r).state with
  | .saved => s
  | .stopping => s.forceSave r
  | .scanning => s.forceSave r
  | .flooding => s.stopFlood r
  | _ => s.startScan r .replacement true

/-- Region r takes part with the affected set of its fences; re-placements that share a region become one (R398). A region
that another scan-out is already emptying is saved by it, its slices with it, and takes no further part. -/
def State.startReplacement (s : State) (fences : List Nat) (r : Nat) (cmd : Option CmdRef) : State :=
  let busy := fun (k : Nat) => k != r && ((s.region k).state == .stopping || (s.region k).state == .scanning) &&
    (s.region k).scanCause != .replacement
  let hit := s.movedRegions (s.mendable fences)
  let rs := hit.foldl (fun t k => if busy k then t else addNum t k) [r]
  let meets := fun (x : Replacement) => x.regions.any rs.contains
  let old := s.nemar.replacements.filter meets
  let x : Replacement :=
    { fences := fences.foldl addNum (old.foldl (fun t y => if y.committed then t else y.fences.foldl addNum t) []),
      regions := old.foldl (fun t y => y.regions.foldl addNum t) rs,
      cmds := (old.flatMap (fun y => y.cmds)) ++ (cmd.map (fun k => (r, k))).toList }
  let s := { s with nemar := { s.nemar with
      replacements := s.nemar.replacements.filter (fun y => !meets y) ++ [x] } }
  let s := (hit.filter busy).foldl (fun (t : State) k => t.forceSave k) s
  (x.regions.foldl (fun (t : State) k => t.joinReplacement k) s).advanceReplacements

/-- Re-placement of region r begins, unbidden or for a REPLACE: its scan-out comes first, also where it will fail (R400). -/
def State.replaceRegion (s : State) (r : Nat) (cmd : Option CmdRef) : State := s.startReplacement (s.reefsOf r) r cmd

/-! ## Reset (R67, R309, R375, R398) -/

/-- The images of a region whose scan a reset has cut off: undefined, and no images that a flood takes (R375; log 136). -/
def State.spoilImages (s : State) (r : Nat) : State :=
  let g := s.region r
  (rectCores g.rect).foldl (fun (t : State) l =>
    let t := t.freeSpan (imageAddr g l) imageBytes false
    let t := if g.savePool then t.freeSpan (sliceImageAddr g l) 0x400000 false else t
    { t with images := drop t.images (imageAddr g l) }) s

/-- REGION_RESET's effect: the cores stop, queues empty, the request and the region's commands end ABORTED, and the region
is left STAGED. It leaves any re-placement, which goes on without it. The cores of a region that is not enabled are not
its own. -/
def State.resetRegion (s : State) (r : Nat) : State :=
  let g := s.region r
  let s := if g.state == .scanning then s.spoilImages r else s
  let s := if g.state.enabled then
      ((rectCores g.rect).foldl (fun (t : State) l =>
        ((t.setCore l (t.core l).emptied).dropMessages l).leaveCounts l) (s.failRegionBarriers r)).scanned r
    else s
  let s := { s with nemar := { s.nemar with faultMsgs := s.nemar.faultMsgs.map (fun (m : FaultMessage) =>
        if m.region = r then { m with past := true } else m) } }
  let s := ((s.dropRegionCounts r).endRequest r stAborted 0 0).endRegionCommands r stAborted 0
  let y := s.leaveReplacement r
  let s := y.2.foldl (fun (t : State) k => t.finish k stAborted 0 0) y.1
  ((s.setRegion r { s.region r with void := [], lostCore := none, stopFault := none }).setRState r
    .staged).advanceReplacements

/-! ## A core or an entry lost (R395, R396, R466) -/

/-- Pour contributions of a region's cores that are not yet SENT are dropped (R395). -/
def State.dropContribs (s : State) (r : Nat) : State :=
  let g := s.region r
  { s with fabric := { s.fabric with contribs := s.fabric.contribs.filter (fun c => !inRect g.rect c.core || c.counted) } }

/-- A flood has stopped for a lost core: with AUTO = 1 a re-placement takes the region up again, with AUTO = 0 the region waits for
REPLACE, and a re-placement that was flooding it goes on without it (R466). The REPLACE commands that named it. -/
def State.leaveFlood (s : State) (r : Nat) : State × List CmdRef :=
  if s.nemar.auto then (s, [])
  else
    let y := s.leaveReplacement r
    (y.1.endReplacements, y.2)

/-- Core l of enabled region r is lost, or an entry of it (none), with the cause; the fence is made by the caller. -/
def State.loseRegion (s : State) (r : Nat) (l : Option Nat) (cause : Nat) : State :=
  let g := s.region r
  let w := r1Core l cause 0 0
  let void := match l with
    | some k => addNum g.void k
    | none => g.void
  match g.state with
  | .stopping => s.setRegion r { g with void := void, lostCore := some (l, cause) }
  | .scanning => s.setRegion r { g with void := void, lostCore := some (l, cause) }
  | .flooding =>
    let y := ((s.setRegion r { g with flood := none }).stopFlood r).leaveFlood r
    (g.flood.toList ++ y.2).foldl (fun (t : State) k => t.finish k stCoreLost 0 w) y.1
  | .lost => s.setRegion r { g with void := void }
  | _ =>
    if l.isSome && g.enabling.isSome then (s.endRegionCommands r stCoreLost w).resetRegion r else
    let resume := g.returnState
    let s := (s.endRequest r stCoreLost 0 w).endRegionCommands r stCoreLost w
    let s := s.setRegion r { s.region r with void := void, resume := resume }
    (((s.setRState r .lost).failRegionBarriers r).stopCores r).dropContribs r

/-- Nemar's next step after a loss: with AUTO = 1 the region is re-placed, once no scan-out of it is under way; a loss in the
scan-out of a re-placement joins that re-placement (R466). -/
def State.afterLoss (s : State) (r : Nat) : State :=
  match (s.region r).state with
  | .stopping => if (s.region r).scanCause == .replacement then s.replaceRegion r none else s
  | .scanning => if (s.region r).scanCause == .replacement then s.replaceRegion r none else s
  | .staged => s
  | _ => if s.nemar.auto then s.replaceRegion r none else s

/-- A physical core is lost with a cause of R395: it is fenced; beneath an enabled region the region goes the way of R395
or R466. -/
def State.loseCore (s : State) (p cause : Nat) : State :=
  match s.logOf p with
  | none => s.fence p (cause == 4)
  | some l =>
    let set := s.movedRegions [p]
    match s.regionOf l with
    | none => (s.fence p (cause == 4)).logCoreLost (some l) p cause 0xFF set
    | some r =>
      let s := (s.loseRegion r (some l) cause).fence p (cause == 4)
      (((s.setCore l { s.core l with stopping := true, stopped := true }).logCoreLost (some l) p cause r
        (addNum set r)).scanIfStopped r).afterLoss r

/-- A region has lost a stream entry or a control message (R396): one that is LOST already, or that will end so, loses nothing
more, and its loss is one record. -/
def State.loseEntryOf (s : State) (r : Nat) : State :=
  let g := s.region r
  if g.state.enabled && g.state != .lost && g.lostCore.isNone then
    ((s.loseRegion r none 5).logCoreLost none 0 5 r [r]).afterLoss r
  else s

end Sys2Proof.Machine
end

