-- ==== Sys2Proof/Machine/CmdBase.lean ====
section
/-! DEFINITION. Machine/CmdBase.lean: what every Nemar command passes before it acts: the fields of its arguments, its
buffer, its turn on its object (R364, R366, R369), and the capability word (R379). -/

namespace Sys2Proof.Machine

/-! ## Argument fields (check 3 of R364) -/

/-- The mask of a named field. -/
def maskOf (lo wid : Nat) : Nat := (2 ^ wid - 1) <<< lo

/-- Bits of the argument words A0, A1, … that an opcode names; words not listed name none (R369). -/
def argMasks (op : Nat) : List Nat :=
  let rgn := maskOf 0 8
  let loc := maskOf 61 3 + maskOf 0 39
  match op with
  | 0x03 => [maskOf 0 48, maskOf 0 10]
  | 0x04 => [maskOf 0 48, maskOf 0 10]
  | 0x05 => [maskOf 0 64]
  | 0x07 => [maskOf 0 9]
  | 0x10 => [rgn, 0x7F7F7F7F, 0xFFFF000E, maskOf 33 15 + maskOf 0 17, maskOf 0 10]
  | 0x11 => [rgn, maskOf 0 48]
  | 0x12 => [rgn, maskOf 0 48]
  | 0x13 => [maskOf 0 23 + maskOf 32 10, maskOf 0 22, maskOf 0 64, maskOf 0 64, maskOf 0 64, maskOf 0 64, maskOf 0 64,
             maskOf 0 64, maskOf 0 64, maskOf 0 64]
  | 0x14 => [maskOf 0 9]
  | 0x15 => [rgn]
  | 0x16 => [rgn]
  | 0x17 => [rgn]
  | 0x18 => [rgn]
  | 0x20 => [maskOf 0 24, maskOf 0 25, maskOf 54 10 + maskOf 0 39, loc, loc, 1]
  | 0x21 => [maskOf 0 1 + maskOf 8 1, maskOf 0 27, maskOf 0 27]
  | 0x22 =>
    let ext := maskOf 0 48
    let ctl := maskOf 60 4 + maskOf 32 13 + maskOf 16 13
    [rgn, ext, ctl, ext, ctl, ext, ctl, ext, ctl]
  | 0x23 => [maskOf 0 24, maskOf 0 48]
  | 0x31 => [maskOf 0 2, maskOf 0 16]
  | 0x32 => [maskOf 0 8, maskOf 0 64, maskOf 0 64, maskOf 0 64, maskOf 0 64, maskOf 63 1,
             maskOf 62 2 + maskOf 44 12 + maskOf 0 12]
  | 0x33 => [maskOf 0 10, maskOf 62 2 + maskOf 32 16 + maskOf 0 13, maskOf 0 44, maskOf 0 60, maskOf 16 14 + maskOf 0 10]
  | 0x34 => [maskOf 0 16, maskOf 0 10]
  | 0x35 => [rgn, 0xF33333333, 0xF33333333, 0xF33333333, 0xF33333333, 0xF33333333]
  | 0x40 => [1]
  | 0x50 => [maskOf 0 4]
  | 0x51 => [maskOf 0 4]
  | _ => []

/-- A named field of argument word k lies out of its range (R369, R374, R376, R377). -/
def argRange (s : State) (b : Submission) (k : Nat) : Bool :=
  let a := b.arg k
  match b.opcode.toNat, k with
  | 0x03, 0 => a.toNat % 8 != 0
  | 0x04, 0 => a.toNat % 8 != 0
  | 0x03, 1 => a.toNat = 0 || 512 < a.toNat
  | 0x04, 1 => a.toNat = 0 || 512 < a.toNat
  | 0x07, 0 => a.toNat = 0 || 256 < a.toNat
  | 0x11, 1 => a.toNat % 128 != 0
  | 0x12, 1 => a.toNat % 128 != 0
  | 0x13, 0 =>
    (rectCores (s.region (fld a 0 8)).rect).length < fld a 8 15
  | 0x13, 1 => a.toNat % 128 != 0
  | 0x20, 1 => a.toNat = 0 || 0x1000000 < fld (b.arg 0) 0 24 + a.toNat
  | 0x20, 2 => 5 ≤ fld a 57 3
  | 0x23, 1 => a.toNat % 0x200000 != 0
  | 0x32, 0 => a.toNat < 240
  | 0x34, 0 => a.toNat != (s.fabric.layout + 1).toNat
  | 0x34, 1 => a.toNat = 0 || 1000 < a.toNat
  | 0x50, 0 => 4 ≤ a.toNat
  | 0x51, 0 => 4 ≤ a.toNat
  | _, _ => false

/-- The first argument word that holds a bit it must not, or a field out of range. -/
def State.argBad (s : State) (b : Submission) : Option Nat :=
  (List.range 12).find? (fun k =>
    (b.arg k).toNat &&& ((argMasks b.opcode.toNat).getD k 0) != (b.arg k).toNat || argRange s b k)

/-! ## Buffers (check 4 of R364) -/

/-- The least buffer length of a command that needs a buffer (R369, R377, R378, R425, R430, R432, R434, R444). -/
def bufMin (b : Submission) : Option Nat :=
  match b.opcode.toNat with
  | 0x01 => some 1024
  | 0x02 => some 53248
  | 0x03 => some (8 * fld (b.arg 1) 0 10)
  | 0x04 => some (8 * fld (b.arg 1) 0 10)
  | 0x05 => some 0
  | 0x06 => some 8768
  | 0x07 => some (16 * fld (b.arg 0) 0 9)
  | 0x30 => some 33032
  | 0x34 => some 32
  | 0x40 => some 64
  | 0x50 => some 1
  | 0x52 => some 11776
  | 0x53 => some 31296
  | 0x54 => some 16
  | _ => none

/-- A buffer that holds entries holds whole ones, no more than the command takes (R377, R378, R430, R434). -/
def bufLenBad (b : Submission) : Bool :=
  let n := b.bufLen.toNat
  match b.opcode.toNat with
  | 0x34 => n % 32 != 0 || 65536 < n
  | 0x40 => n % 64 != 0 || 262144 < n
  | 0x50 => 0x4000000 < n
  | 0x54 => n % 16 != 0 || 31232 < n
  | _ => false

/-- The submission word of a buffer that is missing, misaligned or too short; an inline one is at most 3,936 bytes. -/
def bufBad (b : Submission) : Option Nat :=
  match bufMin b with
  | none => none
  | some m =>
    if !b.inline && (b.buf.toNat = 0 || b.buf.toNat % 64 != 0) then some 2
    else if b.bufLen.toNat < m || bufLenBad b || (b.inline && 3936 < b.bufLen.toNat) then some 3
    else none

/-! ## Objects (R366) -/

/-- The object a command names: its kind, and a range of numbers; none for a command that names none. -/
def cmdObject (b : Submission) : Option (Nat × Nat × Nat) :=
  let op := b.opcode.toNat
  let a := b.arg 0
  if opNamesRegion op then some (1, fld a 0 8, 1)
  else match op with
  | 0x20 => some (2, fld a 0 24, fld (b.arg 1) 0 25)
  | 0x23 => some (2, fld a 0 24, 1)
  | 0x33 => some (3, fld a 0 10, 1)
  | 0x32 => some (4, fld a 0 8, 1)
  | 0x07 => some (5, 0, 1)
  | 0x30 => some (5, 1, 1)
  | 0x31 => some (5, 2 + fld a 0 2, 1)
  | 0x21 => some (6, fld a 0 1, 1)
  | 0x34 => some (7, 0, 1)
  | 0x52 => some (8, 0, 1)
  | _ => none

/-- Two commands name the same object. -/
def sameObject (a b : Submission) : Bool :=
  match cmdObject a, cmdObject b with
  | some (k, lo, n), some (k', lo', n') => k == k' && lo < lo' + n' && lo' < lo + n
  | _, _ => false

/-- A page of a run is moving. -/
def State.runMoves (s : State) (first n : Nat) : Bool :=
  (rangeFrom first n).any (fun p => bit (s.ptEntry p).w0 55)

/-- A PLACE or PAGE_RESTORE that waits for the move of a page it names (R267). -/
def State.waitsMove (s : State) (d : Command) : Bool :=
  match cmdObject d.sub with
  | some (k, lo, n) => k == 2 && !d.begun && !d.ended && s.runMoves lo n
  | none => false

/-- No command fetched earlier that names the same object still has to act (R366); one that waits for a page's move has. -/
def State.atTurn (s : State) (c : Command) : Bool :=
  !((s.nemar.cmds.takeWhile (fun d => d.ref != c.ref)).any (fun d =>
    !d.begun && !d.ended && sameObject d.sub c.sub && !s.waitsMove d))

/-- A Nemar command acts: the command in flight that the reference names, of the row's opcode, at its turn, its fields and
buffer checked (R364); `body` makes the checks that follow and does the rest. Otherwise nothing happens. A halted module
serves IDENTIFY and RESYNC only (R404). -/
def State.runCommand (s : State) (k : CmdRef) (op : Nat) (body : Command → State → State) : State :=
  match s.command k with
  | none => s
  | some c =>
    if c.sub.opcode.toNat != op || c.begun || c.ended || !s.atTurn c || (s.host.state == .halted && 2 < op) then s
    else match s.argBad c.sub with
    | some i => s.refuse k stBadField (r1Word (4 + i))
    | none =>
      match bufBad c.sub with
      | some i => s.refuse k stBadBuffer (r1Word i)
      | none => if (bufMin c.sub).isSome && !s.bufUp c.sub then s.refuse k stHostBuffer (r1Word 2) else body c s

/-- The region a command names. -/
def Command.rgn (c : Command) : Nat := fld (c.sub.arg 0) 0 8

/-- REGION_STATE, with the region's present STATE in RESULT1[39:32] (R368). -/
def State.refuseState (s : State) (c : Command) : State :=
  s.refuse c.ref stRegionState (at64 16 16 c.rgn ||| at64 32 8 (s.region c.rgn).state.code)

/-- REGION_BUSY. -/
def State.refuseBusy (s : State) (c : Command) : State := s.refuse c.ref stRegionBusy (at64 16 16 c.rgn)

/-- CHECK_REFUSED. -/
def State.refuseCheck (s : State) (c : Command) (x : Refused) : State := s.refuse c.ref stCheckRefused x.word

/-! ## Capability word (R379) -/

/-- The capability word of a grade. -/
def capWord : Grade → Word
  | .a => 0x01FFFFFFFFFFFFFF
  | .s => 0x00A53CFFFF3C6FF6

end Sys2Proof.Machine
end

