-- ==== Sys2Proof/Machine/Queues.lean ====
section
/-! DEFINITION. Machine/Queues.lean: what moves stream-queue entries between cores: send, arrival, credit, return from spill
(R68 to R71, R77, R78). -/

namespace Sys2Proof.Machine

/-- The queues of a core send and take credits: it has been started, is not stopping or off, and its region executes. -/
def State.queuesMove (s : State) (l : Nat) : Bool :=
  let c := s.core l
  c.running && !c.stopping && !c.off && (s.coreRState l).executes

/-- The binding the head entry of an output queue goes by: the old section's until its tideline has left (R78). -/
def StreamQueue.binding (q : StreamQueue) : Word := q.oldCfg.getD q.cfg

/-- Credits held for a phase. -/
def StreamQueue.cred (q : StreamQueue) (ph : Bool) : Nat := if ph then q.cred1 else q.cred0

/-- Changes the credits held for a phase. -/
def StreamQueue.setCred (q : StreamQueue) (ph : Bool) (n : Nat) : StreamQueue :=
  if ph then { q with cred1 := n } else { q with cred0 := n }

/-- Credits granted for a phase and not yet freed. -/
def StreamQueue.out (q : StreamQueue) (ph : Bool) : Nat := if ph then q.out1 else q.out0

/-- Changes them. -/
def StreamQueue.setOut (q : StreamQueue) (ph : Bool) (n : Nat) : StreamQueue :=
  if ph then { q with out1 := n } else { q with out0 := n }

/-- A tideline of the queue has not yet left. -/
def StreamQueue.holdsTide (q : StreamQueue) : Bool := q.buf.any (fun e => e.tide) || q.spill.any (fun e => e.tide)

/-- An output queue after its head entry has left; a tideline takes the old binding with it (R78). -/
def StreamQueue.sent (q : StreamQueue) (e : Entry) (t : List Entry) : StreamQueue :=
  let q := { q.setCred e.phase (q.cred e.phase - 1) with buf := t, moved := true }
  if e.tide then
    let q := q.setCred e.phase 0
    { q with oldCfg := none, oldSpill := if q.spill.isEmpty then none else q.oldSpill }
  else q

/-- SQ_ENTRY_SEND (R69, R78): the head of output queue 8 + q leaves for its input queue, with a credit of its phase; results
that waited for the room it leaves become visible. -/
def execSqEntrySend (c : CoreId) (q : BitVec 3) (s : State) : Answer :=
  let l := c.toNat
  let k := s.core l
  let x := k.queue (8 + q.toNat)
  .next (match x.buf with
    | [] => s
    | e :: t =>
      let w := x.binding
      if s.queuesMove l && bit w 31 && 0 < x.cred e.phase then
        let s := s.setCore l (k.setQueue (8 + q.toNat) (x.sent e t))
        let r := s.launch l (peerCore w)
        let s := r.2
        let d := s.core (peerCore w)
        let y := d.queue (peerQ w)
        (s.setCore (peerCore w) (d.setQueue (peerQ w) { y with arriving := y.arriving ++ [(e, r.1)] })).settle l
      else s)

/-- Buffer entries of an input queue set aside for next-phase entries granted and not yet held. -/
def StreamQueue.setAside (q : StreamQueue) (ph : Bool) : Nat :=
  q.out (!ph) - (q.buf.filter (fun e => e.phase != ph)).length

/-- An entry that arrives goes to the buffer: one of the next phase, one that finds room behind no spilled entry, and one that
finds no spill area (R70, R71). -/
def StreamQueue.takesIn (q : StreamQueue) (ph : Bool) (e : Entry) : Bool :=
  e.phase != ph || (q.spill.isEmpty && (q.buf.length + q.setAside ph < Config.sqEntries || spillSize q.spillCfg = 0))

/-- An entry reaches input queue n of core l (R70, R71): an entry of the next phase goes to the buffer; one of the core's
phase to the buffer or, behind others, to the spill tail. -/
def State.arrive (s : State) (l n : Nat) (e : Entry) : State :=
  let c := s.core l
  let q := c.queue n
  let s :=
    if q.takesIn c.phase e then s.setCore l (c.setQueue n { q with buf := q.buf ++ [e] })
    else if q.spill.length < spillSize q.spillCfg then s.toSpill l n e
    else (s.unspill l n).toSpill l n e
  s.setCore l ((s.core l).setQueue n ((s.core l).queue n).noted)

/-- The lines of the slice that the arrival of an entry reads and writes (R70). -/
def StreamQueue.arriveLines (q : StreamQueue) (ph : Bool) (e : Entry) : List Nat :=
  if q.takesIn ph e then []
  else if q.spill.length < spillSize q.spillCfg then [q.tailLine]
  else (q.spill.take 1).map SpillLine.line ++ [({ q with spill := q.spill.drop 1 } : StreamQueue).tailLine]

/-- The stream spill of core l moves lines of the slice: once their banks grant it (R70, R311); else it waits at them. -/
def State.spilling (s : State) (l : Nat) (lines : List Nat) (move : State → State) : State :=
  let x := (s.core l).spillAccess lines
  let t := s.setCore l ((s.core l).arbitrated x)
  if x.ok then move t else t

/-- SQ_ENTRY_ARRIVE (R70): the oldest entry on its way to input queue q is there once its flit has left the mesh. -/
def execSqEntryArrive (c : CoreId) (q : BitVec 3) (s : State) : Answer :=
  let l := c.toNat
  let k := s.core l
  let x := k.queue q.toNat
  .next (match x.arriving with
    | [] => s
    | (e, n) :: t =>
      match find? s.mesh.flits n with
      | some f =>
        if f.delivered && k.running then
          s.spilling l (x.arriveLines k.phase e) (fun s =>
            ((s.dropFlit n).setCore l ((s.core l).setQueue q.toNat { x with arriving := t })).arrive l q.toNat e)
        else s
      | none => s)

/-- Input queue q of core l may grant a credit for a phase (R69). -/
def Core.mayGrant (c : Core) (q : Nat) (ph : Bool) : Bool :=
  let x := c.queue q
  let free := x.out0 + x.out1 < Config.sqEntries + spillSize x.spillCfg
  if ph == c.phase then free
  else free && x.out ph < Config.nextMax && x.buf.length + x.setAside c.phase < Config.sqEntries

/-- A word binds an output queue to input queue q of core l. -/
def bindsTo (w : Word) (l q : Nat) : Bool := bit w 31 && peerCore w == l && peerQ w == q

/-- The core and output queue that a credit of input queue q of core l for a phase goes to (R68, R69, R78). For its own
phase, the peer its binding names: unless that peer's tideline has left. For the next
phase, the switched core of the region whose new binding names it; a switched core gives no credit for the old phase. -/
def State.creditor (s : State) (l q : Nat) (ph : Bool) : Option (Nat × Nat) :=
  let c := s.core l
  match s.regionOf l with
  | none => none
  | some r =>
    let g := s.region r
    if ph == c.phase then
      let w := (c.queue q).cfg
      let d := s.core (peerCore w)
      let x := d.queue (8 + peerQ w)
      let ahead := d.phase != ph && ph == g.phase
      let names := match x.oldCfg with
        | some o => bindsTo o l q
        | none => false
      let gone := x.tided && !x.holdsTide
      if bit w 31 && !gone && (!ahead || names) then some (peerCore w, 8 + peerQ w) else none
    else if ph == g.phase then none
    else
      ((rectCores g.rect).flatMap (fun k =>
        let d := s.core k
        if d.phase == ph then
          (rangeFrom 8 8).filterMap (fun n => if bindsTo (d.queue n).cfg l q then some (k, n) else none)
        else [])).head?

/-- SQ_CREDIT_GRANT (R69): input queue q returns a credit for a free entry. -/
def execSqCreditGrant (c : CoreId) (q : BitVec 3) (phase : Bool) (s : State) : Answer :=
  let l := c.toNat
  let k := s.core l
  .next (match s.creditor l q.toNat phase with
    | some (p, n) =>
      if s.queuesMove l && k.mayGrant q.toNat phase then
        let x := k.queue q.toNat
        let s := s.setCore l (k.setQueue q.toNat (x.setOut phase (x.out phase + 1)))
        let d := s.core p
        let y := d.queue n
        s.setCore p (d.setQueue n (y.setCred phase (y.cred phase + 1)))
      else s
    | none => s)

/-- SPILL_RETURN (R70, R78): the oldest spilled entry returns to the buffer; with the last entry of an old spill area the
new one takes effect. -/
def execSpillReturn (c : CoreId) (q : BitVec 4) (s : State) : Answer :=
  let l := c.toNat
  let n := q.toNat
  let k := s.core l
  let x := k.queue n
  let aside := if n < 8 then x.setAside k.phase else 0
  .next (if s.queuesMove l && x.buf.length + aside < Config.sqEntries then
      s.spilling l ((x.spill.take 1).map SpillLine.line) (fun s => s.unspill l n)
    else s)

end Sys2Proof.Machine
end

