-- ==== Sys2Proof/Machine/MeshRows.lean ====
section
/-! DEFINITION. Machine/MeshRows.lean: flits on the mesh and re-planning (R293 to R297), arbiters (R310 to R317), barriers
(R304 to R309, R331), spray (R301). -/

namespace Sys2Proof.Machine

/-! ## Flits (R35, R288, R289, R293) -/

/-- A message of the control net (R302). -/
def MeshFlit.isCtl (f : MeshFlit) : Bool :=
  match f.kind with
  | .ctl .. => true
  | _ => false

/-- A message of the scan class (R303). -/
def MeshFlit.isScan (f : MeshFlit) : Bool :=
  match f.kind with
  | .ctl .scan _ _ => true
  | _ => false

/-- The input of router (x', y') that a step from (x, y) comes in by. -/
def inputFrom (x y x' y' : Nat) : Nat := if y < y' then 0 else if x' < x then 1 else if y' < y then 2 else 3

/-- A flit arrives at its next router: 5 beats in the router it leaves, 2 more at a die boundary; a message takes 2 beats in
a node. It is the arrival numbered `arr` there. -/
def MeshFlit.moved (f : MeshFlit) (x y : Nat) (lane : Bool) (arr : Nat := 0) : MeshFlit :=
  { f with px := x, py := y, lane := lane, arr := arr, inp := inputFrom f.px f.py x y
           beats := f.beats + (if f.isCtl then 2 else 5) + (if crossesDie f.px f.py x y then 2 else 0) }

/-- A flit's number is awaited: by a run of a generator, or by a descriptor in hand. -/
def Core.awaits (c : Core) (n : Nat) : Bool :=
  c.ag.toList.any (fun a => a.tiles.any (fun rs => rs.any (fun r => r.got.isNone && r.net.contains n))) ||
    c.dma.toList.any (fun d => match d.fab with
      | some f => f.net.contains n
      | none => false)

/-- Bytes of a descriptor in hand are lost: its source's miss their deadline, its destination's were not written (R297). -/
def State.loseDma (s : State) (l ch key n : Nat) : State :=
  let c := s.core l
  let d := c.chan ch
  match d.fab with
  | some f => s.setCore l (c.setChan ch { d with fab := some { f with lost := f.lost ++ [(key, n)] } })
  | none => s

/-- Bytes that a lost write had carried are as if never written: free values (log 127). -/
def State.undoWrite (s : State) (key n : Nat) : State :=
  if csrKey key then s else
  let b := s.freeBytes n
  b.2.writeMem key (clean b.1)

/-- A write of a unit is lost (R297): its generator counts the run; a POSTED descriptor's is reported by the channel's next
CONFIRMED one (R207); a CONFIRMED descriptor, and a POSTED one that is still moving data, fails. -/
def State.loseWrite (s : State) (l o key n tile run : Nat) (counted : Bool) : State :=
  let s := s.undoWrite key n
  if o < 4 then (if counted then s else s.countRun l o tile run).settleTiles l o
  else if tile = 1 && !((s.core l).chan (o - 4)).sending run then
    let c := s.core l
    let d := c.chan (o - 4)
    s.setCore l (c.setChan (o - 4) { d with pfail := true, prior := true })
  else s.loseDma l (o - 4) key n

/-- A flit is lost, and its loss is reported where its transfer ends (R297): a read or its return misses its deadline. The region
that has lost an entry or a message by it, which is handled as in R396. -/
def State.dropLost (s : State) (n : Nat) : State × Option Nat :=
  match find? s.mesh.flits n with
  | none => (s, none)
  | some f =>
    match f.kind with
    | .entry =>
      (match s.carrierOf n with
      | none => (s.dropFlit n, none)
      | some (l, q) => ((s.dropFlit n).loseEntry l q n, s.regionOf l))
    | .read l o k => (if o < 4 then s.dropFlit n else (s.dropFlit n).loseDma l (o - 4) k 128, none)
    | .back l o k => (if o < 4 then s.dropFlit n else (s.dropFlit n).loseDma l (o - 4) k 128, none)
    | .write l o k m t r b => ((s.dropFlit n).loseWrite l o k m t r b, none)
    | .edgeReq .. => (s.dropFlit n, none)
    | .edgeBack .. => (s.dropFlit n, none)
    | .ctl _ l _ => (s.dropFlit n, s.regionOf l)

/-- A flit is lost by itself. -/
def State.loseFlit (s : State) (n : Nat) : State :=
  let x := s.dropLost n
  match x.2 with
  | some r => x.1.loseEntryOf r
  | none => x.1

/-- Flits are lost in one event: the regions that it has cost an entry or a message. -/
def State.loseFlits (s : State) (ns : List Nat) : State × NumSet :=
  ns.foldl (fun (x : State × NumSet) n =>
    let y := x.1.dropLost n
    (y.1, match y.2 with
      | some r => addNum x.2 r
      | none => x.2)) (s, [])

/-- A flit enters router (x, y): an old-epoch one takes OLD_EMPTY back (R294). -/
def State.enter (s : State) (n : Nat) (f : MeshFlit) (x y : Nat) (lane : Bool) : State :=
  let p := physAt x y
  let r := s.router p
  let s := if r.oldEmpty && f.epoch != r.epoch then s.setRouter p { r with oldEmpty := false } else s
  let s := s.setFlit n (f.moved x y lane s.mesh.nextArr)
  { s with mesh := { s.mesh with nextArr := s.mesh.nextArr + 1 } }

/-- A flit's step across a die boundary with what it meets there (R35, R388). -/
def State.crossing (s : State) (n : Nat) (f : MeshFlit) (port x y : Nat) (lane : Bool) (o : HopOutcome) : State :=
  match o with
  | .clean => s.enter n f x y lane
  | .codeErrorResent =>
    let s := s.logError false 1 (physAt x y) errCode (b2n f.lane) 0 none
    s.enter n { f with resent := true } x y lane
  | .codeErrorLasting =>
    let s := s.logError true 1 (physAt x y) errCode (b2n f.lane) 0 none
    let s := { s with mesh := { s.mesh with failedLinks := addNum s.mesh.failedLinks (physAt f.px f.py * 4 + port) } }
    s.loseFlit n

/-- The return of a read, from where its request left the mesh: a router, or the point that the line's ingress takes (R301). -/
def State.returnFlit (s : State) (f : MeshFlit) (l o k : Nat) : Option MeshFlit :=
  let p := s.physOf l
  if f.edge then
    let e := match s.meshEnd l k with
      | .edge e => e
      | _ => 0
    match ((s.mesh.maps[e]?).getD {}).point (k % 2 ^ 48 / 128) with
    | some j => some (flitFrom e j (physPX p) (physPY p) (.back l o k))
    | none => none
  else some (flitBetween (physAt f.px f.py) p (.back l o k))

/-- A request of an edge die awaits flit n. -/
def State.inTransit (s : State) (n : Nat) : Bool := s.mesh.transits.any (fun x => x.net.contains n)

/-- A flit of an edge die's request has reached its router: a read's return leaves it for the nearest point of the edge die. -/
def State.edgeHears (s : State) (n : Nat) (f : MeshFlit) (e k : Nat) (write : Bool) : State :=
  if !s.inTransit n then s.dropFlit n
  else if write then s.setFlit n { f with delivered := true }
  else match s.nearestPoint e f.px f.py with
  | some j =>
    let g := flitToward e j f.px f.py (.edgeBack e k)
    let s := s.setFlit n { g with epoch := (s.router (physAt g.px g.py)).epoch, arr := s.mesh.nextArr }
    { s with mesh := { s.mesh with nextArr := s.mesh.nextArr + 1 } }
  | none => s.dropFlit n

/-- A flit leaves the mesh at its destination (R290): a read request brings its return, which takes its number; a write is
accepted; an entry, a return that is awaited and a message wait to be taken. -/
def State.deliver (s : State) (n : Nat) (f : MeshFlit) : State :=
  let f := { f with beats := f.beats + (if f.isCtl then 2 else 5) }
  match f.kind with
  | .read l o k =>
    (match s.returnFlit f l o k with
    | some g =>
      let s := s.setFlit n { g with epoch := (s.router (physAt g.px g.py)).epoch, arr := s.mesh.nextArr }
      { s with mesh := { s.mesh with nextArr := s.mesh.nextArr + 1 } }
    | none => s.dropFlit n)
  | .write l o _ _ _ _ _ => if o < 4 then (s.dropFlit n).settleTiles l o else s.dropFlit n
  | .back l _ _ => if (s.core l).awaits n then s.setFlit n { f with delivered := true } else s.dropFlit n
  | .edgeReq e k write => s.edgeHears n f e k write
  | .edgeBack _ _ => if s.inTransit n then s.setFlit n { f with delivered := true } else s.dropFlit n
  | .ctl (.up gen) l key => (s.dropFlit n).rootHears key gen (s.dieOf l)
  | .ctl (.down gen) l key => (s.dropFlit n).dieReleases key gen (s.dieOf l)
  | _ => s.setFlit n { f with delivered := true }

/-- The link a flit waits for: its router and port. -/
def State.linkOf (s : State) (f : MeshFlit) : Nat :=
  let p := physAt f.px f.py
  p * 8 + ((s.router p).choose f).1

/-- Its step by that link can be made: it ends here, or neither the link nor the next router is out (R293, R297). -/
def State.mayStep (s : State) (f : MeshFlit) : Bool :=
  let p := physAt f.px f.py
  let port := ((s.router p).choose f).1
  if port = 4 then !f.edge
  else if port = 5 then f.edge && isAttachment p
  else match stepBy f.px f.py port with
    | none => false
    | some (x, y) => !(s.router (physAt x y)).isolated && !s.mesh.failedLinks.contains (p * 4 + port)

/-- The class of the MU's injection port that a flit of its own core takes (R310). A read's return takes that of the unit which
reads, one to an edge die that of the fetch reads (DESIGN CHOICE, log 143: R310 names no class for returns). -/
def FlitKind.injectClass : FlitKind → Nat
  | .entry => 0
  | .read _ o _ => if o < 4 then 1 else o - 2
  | .back _ o _ => if o < 4 then 1 else o - 2
  | .write _ o _ _ _ _ _ => if o < 4 then 4 else o - 2
  | .edgeReq .. => 1
  | .edgeBack .. => 1
  | .ctl .. => 5

/-- The active ARB_PRIO word of an arbiter of the core at router p; that of a core under no logical number is at reset. -/
def State.arbWord (s : State) (p a : Nat) : Word :=
  match s.logOf p with
  | some l => (s.core l).arbPrio a
  | none => arbPrioReset a

/-- What stands posted for a request: what the arbiter keeps of it, or the arrival of its first flit. -/
def State.askOf (s : State) (link i : Nat) (fs : List (Nat × MeshFlit)) : LinkAsk :=
  let a := look s.mesh.asks (link * 8 + i) ({} : LinkAsk)
  match fs with
  | [] => a
  | x :: t => { a with posted := Nat.max a.posted (t.foldl (fun m y => Nat.min m y.2.arr) x.2.arr) }

/-- Requests by the time they were posted, the oldest first. -/
def insertAsk (x : Nat × LinkAsk) : List (Nat × LinkAsk) → List (Nat × LinkAsk)
  | [] => [x]
  | y :: t => if x.2.posted ≤ y.2.posted then x :: y :: t else y :: insertAsk x t

/-- The requests at a link: each input, or class, with a flit that waits; a flit's own is `key` of it. -/
def State.asking (s : State) (link : Nat) (key : MeshFlit → Nat) (fs : List (Nat × MeshFlit)) : List (Nat × LinkAsk) :=
  ((List.range 8).filterMap (fun i =>
    let gs := fs.filter (fun x => key x.2 == i)
    if gs.isEmpty then none else some (i, s.askOf link i gs))).foldr insertAsk []

/-- The input, or class, that the arbiter with a priority word grants: highest priority first, the oldest among equals, one
passed over often enough as priority 3 (R311). -/
def grantOf (w : Word) (rs : List (Nat × LinkAsk)) : Option Nat :=
  (rs[arbPick w (rs.map (fun r => (r.1, r.2.passed)))]?).map Prod.fst

/-- Data-mesh flits that stand at router p and can step on. -/
def State.standing (s : State) (p : Nat) : List (Nat × MeshFlit) :=
  s.mesh.flits.filter (fun x => !x.2.delivered && !x.2.fifo && !x.2.isCtl && physAt x.2.px x.2.py == p && s.mayStep x.2)

/-- Of the flits at a router's local input, the class that arbiter 21 of its core admits. -/
def State.injecting (s : State) (p : Nat) : Option Nat :=
  grantOf (s.arbWord p 21) (s.asking (p * 8 + 7) (fun f => f.kind.injectClass) ((s.standing p).filter (fun x => x.2.inp == 4)))

/-- The flits that ask for a link: those of the other inputs, and of the local one those its injection port admits. -/
def State.rivals (s : State) (f : MeshFlit) : List (Nat × MeshFlit) :=
  let p := physAt f.px f.py
  let k := s.injecting p
  (s.standing p).filter (fun x => s.linkOf x.2 == s.linkOf f && (x.2.inp != 4 || some x.2.kind.injectClass == k))

/-- The arbiter of a router's output (R310): of the four sides 16 to 19, local 20; an edge port stands on the side where no
router is. -/
def outputArbiter (f : MeshFlit) (port : Nat) : Nat :=
  if port < 4 then 16 + port
  else if port = 4 then 20
  else if f.py = 0 then 16 else if f.px = 135 then 17 else if f.py = 127 then 18 else 19

/-- The flit that takes a link next (R288, R298, R310): of the input that the output's arbiter grants, lanes in turn where both
wait, and of a lane the one that arrived first. -/
def State.linkPick (s : State) (f : MeshFlit) : Option Nat :=
  let p := physAt f.px f.py
  let link := s.linkOf f
  let fs := s.rivals f
  match grantOf (s.arbWord p (outputArbiter f (link % 8))) (s.asking link MeshFlit.inp fs) with
  | none => none
  | some i =>
    let mine := fs.filter (fun x => x.2.inp == i)
    let on := fun (lane : Bool) => mine.filter (fun x => ((s.router p).choose x.2).2 == lane)
    let last := (look s.mesh.asks (link * 8 + i) ({} : LinkAsk)).lane1
    let ln := if (on (!last)).isEmpty then on last else on (!last)
    (ln.foldl (fun (b : Option (Nat × MeshFlit)) x => match b with
      | some y => if x.2.arr < y.2.arr then some x else b
      | none => some x) none).map Prod.fst

/-- A flit has to let another go first: on the data mesh, the one its link's arbiter picks (R298, R310); on the control net,
a control message before a scan message, and within a class the one that arrived first (R303). -/
def State.yields (s : State) (n : Nat) (f : MeshFlit) : Bool :=
  if f.isCtl then
    s.mesh.flits.any (fun x => x.1 != n && !x.2.delivered && !x.2.fifo && x.2.isCtl &&
      physAt x.2.px x.2.py == physAt f.px f.py && s.linkOf x.2 == s.linkOf f &&
      ((f.isScan && !x.2.isScan) || (f.isScan == x.2.isScan && x.2.arr < f.arr)))
  else s.linkPick f != some n

/-- What a grant leaves at an arbiter: the one granted posts its next request now, the others have been passed over once. -/
def State.granted (s : State) (link i : Nat) (lane : Bool) (rs : List (Nat × LinkAsk)) : State :=
  let now := s.mesh.nextArr
  { s with mesh := { s.mesh with
    nextArr := now + 1
    asks := rs.foldl (fun t r => put t (link * 8 + r.1)
      (if r.1 = i then { posted := now, passed := 0, lane1 := lane } else { r.2 with passed := r.2.passed + 1 })) s.mesh.asks } }

/-- The link has carried a flit. -/
def State.turned (s : State) (f : MeshFlit) : State :=
  if f.isCtl then s
  else
    let p := physAt f.px f.py
    let link := s.linkOf f
    let out := s.asking link MeshFlit.inp (s.rivals f)
    let inj := s.asking (p * 8 + 7) (fun g => g.kind.injectClass) ((s.standing p).filter (fun x => x.2.inp == 4))
    let s := s.granted link f.inp ((s.router p).choose f).2 out
    if f.inp = 4 then s.granted (p * 8 + 7) f.kind.injectClass false inj else s

/-- Router p forwards flit n, whose turn it is, by a port and a lane (R293). -/
def State.forward (s : State) (n : Nat) (f : MeshFlit) (port : Nat) (lane : Bool) (o : HopOutcome) : State :=
  let p := physAt f.px f.py
  if port = 4 && !f.edge || port = 5 && f.edge && isAttachment p then
    ((s.turned f).deliver n { f with lane := lane }).remap
  else match stepBy f.px f.py port with
  | none => s
  | some (x, y) =>
    if (s.router (physAt x y)).isolated || s.mesh.failedLinks.contains (p * 4 + port) then s
    else if crossesDie f.px f.py x y then (s.turned f).crossing n f port x y lane o
    else (s.turned f).enter n f x y lane

/-- A flit of an edge die's FIFO enters the mesh at its attachment point, in the order of the FIFO (R300). -/
def State.leaveFifo (s : State) (n : Nat) (f : MeshFlit) : State :=
  if s.mesh.flits.any (fun x => x.2.fifo && x.2.isCtl == f.isCtl && x.2.px == f.px && x.2.py == f.py && x.2.arr < f.arr) then s
  else s.setFlit n { f with fifo := false }

/-- The router that holds a flit forwards it, or the node its message (R293, R302). A step to a router that is isolated, or over
a link marked failed, waits (DEDUCED, log 31). -/
def State.hop (s : State) (n : Nat) (o : HopOutcome) : State :=
  match find? s.mesh.flits n with
  | none => s
  | some f =>
    let r := s.router (physAt f.px f.py)
    if f.delivered || r.isolated then s
    else if f.fifo then s.leaveFifo n f
    else if s.yields n f then s
    else s.forward n f (r.choose f).1 (r.choose f).2 o

/-! ## Re-planning (R295 to R297) -/

/-- Physical cores of a module quadrant (R20). -/
def quadPhys (q : Nat) : List Nat :=
  (rangeFrom (q / 4 * 1088) 1088).filter (fun p => physQuad p == q)

/-- A router of an ebbed quadrant that stays powered (R402): physical column 0 in quadrants 0 and 2, 33 in 1 and 3. -/
def keptRouter (q p : Nat) : Bool := physColOf p == (if q % 2 = 0 then 0 else 33)

/-- Routers that a trigger's plan routes around. -/
def replanAround : ReplanTrigger → NumSet
  | .bringUp => []
  | .routerFailed p => [p.toNat]
  | .quadrantEbb q => (quadPhys q.toNat).filter (fun p => !keptRouter q.toNat p)
  | .quadrantReturn _ => []
  | .linkFailed _ _ => []

/-- The trigger holds: Nemar has that reason to re-plan. -/
def State.triggered (s : State) : ReplanTrigger → Bool
  | .bringUp => false
  | .routerFailed p => (look s.plant.rows (rowOf p.toNat) ({} : Row)).routers.contains (physColOf p.toNat)
  | .quadrantEbb q => (s.quad q.toNat).ebbing
  | .quadrantReturn q => (s.quad q.toNat).ebbed && s.liveQuad q.toNat
  | .linkFailed p d => s.mesh.failedLinks.contains (p.toNat * 4 + d.toNat)

/-- Clears the bank no epoch uses. -/
def Router.clearIdle (r : Router) : Router :=
  let b := b2n (!r.active)
  { r with oldEmpty := false, table := r.table.filter (fun e => e.1 / 512 != b) }

/-- Writes one entry into it; a table has 136 entries in X and 128 in Y. -/
def Router.writeIdle (r : Router) (e : RouteEntry) : Router :=
  if (if e.isY then 128 else 136) ≤ e.index.toNat then r else
  { r with table := put r.table (b2n (!r.active) * 512 + b2n e.isY * 256 + e.index.toNat) e.entry }

/-- A core that no plan reaches is unavailable, and its region is handled as one that has lost it (R296). -/
def State.loseUnreached (s : State) (l : Nat) : State :=
  match s.regionOf l with
  | none => s
  | some r =>
    let s := s.loseRegion r (some l) 4
    let s := s.setCore l { s.core l with stopping := true, stopped := true }
    ((s.logCoreLost (some l) (s.physOf l) 4 r [r]).scanIfStopped r).afterLoss r

/-- The routers with a plan in the bank that no epoch uses. -/
def State.planned (s : State) (p : RoutePlan) : Table Router :=
  let rs := s.mesh.routers.map (fun e => (e.1, if e.2.isolated then e.2 else e.2.clearIdle))
  p.entries.foldl (fun (t : Table Router) e =>
    let r := look t e.router.toNat ({} : Router)
    if r.isolated then t else put t e.router.toNat (r.writeIdle e)) rs

/-- The links, with their lanes, that a flit's path takes to its destination by tables that stand for every epoch, avoiding
some routers and the links marked failed; none where it does not get there. `fuel` bounds the hops. -/
def planPath (rs : Table Router) (around failed : NumSet) : Nat → MeshFlit → Option (List (Nat × Bool))
  | 0, _ => none
  | n + 1, f =>
    let p := physAt f.px f.py
    let r := look rs p ({} : Router)
    if r.isolated || around.contains p then none
    else
      let d := ({ r with epoch := false, active := !r.active } : Router).choose { f with epoch := false }
      if d.1 = 4 || d.1 = 5 then
        (if f.px = f.dx && f.py = f.dy && (if f.edge then d.1 = 5 else d.1 = 4) then some [] else none)
      else if failed.contains (p * 4 + d.1) then none
      else match stepBy f.px f.py d.1 with
      | none => none
      | some (x, y) => (planPath rs around failed n { f with px := x, py := y, lane := d.2 }).map (fun ls => (p * 8 + d.1, d.2) :: ls)

/-- Pairs of links that follow one another on a path. -/
def pathTurns : List (Nat × Bool) → List ((Nat × Bool) × (Nat × Bool))
  | a :: b :: t => (a, b) :: pathTurns (b :: t)
  | _ => []

/-- Dependencies that form no cycle: those whose first link follows none go, until none is left; `fuel` bounds the rounds. -/
def acyclic : Nat → List ((Nat × Bool) × (Nat × Bool)) → Bool
  | 0, ds => ds.isEmpty
  | n + 1, ds =>
    let rest := ds.filter (fun d => ds.any (fun e => e.2 == d.1))
    if rest.length = ds.length then ds.isEmpty else acyclic n rest

/-- The routers that every plan has to join: those of live cores it does not give up, of stack ports, and of attachment points
(R296); `rs` are the routers, `around` those that the plan routes around. -/
def State.mustReach (s : State) (p : RoutePlan) (rs : Table Router) (around : NumSet) : List Nat :=
  let s := match p.trigger with
    | .quadrantReturn q => s.setQuad q.toNat { s.quad q.toNat with ebbed := false }
    | _ => s
  let cores := ((List.range 16384).filter (fun l => s.available l && !p.unreachable.any (fun u => u.toNat == l))).map s.physOf
  let ports := ((List.range 32).filter (stackExists s.grade)).flatMap (fun k =>
    (List.range 4).map (fun i => stackRouter (0x040000000000 + k * 0x2000000000 + 128 * i)))
  let points := (List.range 4).flatMap (fun e => (List.range 16).map (fun j => physAt (edgePoint e j).1 (edgePoint e j).2))
  (cores ++ ports ++ points).filter (fun k => !(look rs k ({} : Router)).isolated && !around.contains k)

/-- R296 of a plan: on each lane the turns form no cycle, and all that must be reached can reach one another. With no entry,
no router isolated, none routed around and no failed link, plain dimension order meets both. -/
def State.planMeets (s : State) (p : RoutePlan) : Bool :=
  let rs := s.planned p
  let around := replanAround p.trigger
  if p.entries.isEmpty && around.isEmpty && s.mesh.failedLinks.isEmpty && rs.all (fun e => !e.2.isolated) then true
  else
    let ks := s.mustReach p rs around
    let paths := ks.flatMap (fun a => ks.flatMap (fun b => [false, true].flatMap (fun lane =>
      let f := { flitBetween a b .entry with lane := lane }
      (f :: if isAttachment b then [{ f with edge := true }] else []).map
        (planPath rs around s.mesh.failedLinks 1024))))
    let turns := (paths.filterMap id).flatMap pathTurns
    paths.all Option.isSome && [false, true].all (fun lane =>
      let ds := turns.filter (fun d => d.1.2 == lane && d.2.2 == lane)
      acyclic (ds.length + 1) ds)

/-- A re-plan starts: a plan that meets R296 goes into the idle bank of every live router; another is not committed. -/
def State.startPlan (s : State) (p : RoutePlan) : State :=
  if !s.planMeets p then s else
  let live := ((List.range 17408).find? (fun k => !(s.router k).isolated)).getD 0
  let un := p.unreachable.foldl (fun t l => addNum t l.toNat) []
  let fresh := un.filter (fun l => !s.nemar.unreached.contains l)
  let s := { s with
    mesh := { s.mesh with routers := s.planned p, replan := some ⟨p.trigger, s.nemar.usec, !(s.router live).epoch,
      replanAround p.trigger⟩ }
    nemar := { s.nemar with unreached := un } }
  fresh.foldl (fun (t : State) l => t.loseUnreached l) s

/-- REPLAN (R295): starts, or waits for the re-plan in progress. -/
def execReplan (p : RoutePlan) (s : State) : Answer :=
  .next (if !s.triggered p.trigger then s
    else if s.mesh.replan.isSome then { s with mesh := { s.mesh with waiting := s.mesh.waiting ++ [p] } }
    else s.startPlan p)

/-- Router p has flipped and holds no old flit, as step 6 needs of it: a router of the failure itself counts once isolated. -/
def State.oldGone (s : State) (x : Replan) (p : Nat) : Bool :=
  let r := s.router p
  r.isolated || (r.oldEmpty && r.epoch == x.epoch)

/-- Steps 6 and 7: once every live router is through, the routers planned around are isolated and the re-plan ends; the
next one that waits starts. Once the routes count a returning quadrant's routers in, QUAD_EBB and EBBED are cleared (R403). -/
def State.endPlan (s : State) : State :=
  match s.mesh.replan with
  | none => s
  | some x =>
    if (List.range 17408).all (s.oldGone x) then
      let s := x.around.foldl (fun (t : State) p => t.setRouter p { t.router p with isolated := true }) s
      let s := match x.trigger with
        | .quadrantReturn q => s.setQuad q.toNat { s.quad q.toNat with ebbed := false }
        | _ => s
      let s := ({ s with mesh := { s.mesh with replan := none } } : State).remap
      match s.mesh.waiting with
      | p :: t => ({ s with mesh := { s.mesh with waiting := t } } : State).startPlan p
      | [] => s
    else s

/-- EPOCH_FLIP (R295, R301): the injectors at router p take the new route epoch: the MU, the FIFO of an attachment point and
the control-net node. -/
def execEpochFlip (p : PhysId) (s : State) : Answer :=
  if 17408 ≤ p.toNat then .fault .noSuchUnit else
  .next (match s.mesh.replan with
    | none => s
    | some x =>
      let r := s.router p.toNat
      if r.isolated || r.epoch == x.epoch then s
      else (s.setRouter p.toNat { r with epoch := x.epoch, active := !r.active, oldEmpty := false }).remap)

/-- OLD_EMPTY (R295): router p has held no flit of the old epoch. -/
def execOldEmpty (p : PhysId) (s : State) : Answer :=
  if 17408 ≤ p.toNat then .fault .noSuchUnit else
  .next (match s.mesh.replan with
    | none => s
    | some x =>
      let r := s.router p.toNat
      if r.isolated || r.epoch != x.epoch || s.holdsEpoch p.toNat (!x.epoch) then s
      else (s.setRouter p.toNat { r with oldEmpty := true }).endPlan)

/-- The path of a flit from one physical core to another in an epoch passes a router; `fuel` bounds the hops. -/
def State.pathMeets (s : State) (p : Nat) : Nat → MeshFlit → Bool
  | 0, _ => false
  | n + 1, f =>
    if physAt f.px f.py == p then true
    else
      let d := (s.router (physAt f.px f.py)).choose f
      match stepBy f.px f.py d.1 with
      | some (x, y) => s.pathMeets p n (f.moved x y d.2)
      | none => false

/-- A binding of region r routes through router p in an epoch (R396). -/
def State.bindingMeets (s : State) (r p : Nat) (epoch : Bool) : Bool :=
  (rectCores (s.region r).rect).any (fun l =>
    (rangeFrom 8 8).any (fun n =>
      let w := ((s.core l).queue n).binding
      let a := s.physOf l
      let b := s.physOf (peerCore w)
      bit w 31 && s.pathMeets p 1024 { px := physPX a, py := physPY a, dx := physPX b, dy := physPY b, lane := false,
                                       epoch := epoch }))

/-- ROUTER_ISOLATION_TIMEOUT (R295, R297, R396): 1 ms after the start of the re-plan, and once every other live router is
through, the failed router is isolated; the flits inside are lost, and every region with a binding through it has lost an
entry. -/
def execRouterIsolationTimeout (p : PhysId) (s : State) : Answer :=
  if 17408 ≤ p.toNat then .fault .noSuchUnit else
  .next (match s.mesh.replan with
    | none => s
    | some x =>
      let r := s.router p.toNat
      if x.trigger != .routerFailed p || r.isolated || s.nemar.usec < x.startUsec + 1000 || r.oldEmpty ||
          !((List.range 17408).all (fun k => k == p.toNat || s.oldGone x k)) then s
      else
        let hit := (s.regions.filter (fun e => e.2.state.enabled && s.bindingMeets e.1 p.toNat (!x.epoch))).map Prod.fst
        let inside := (s.mesh.flits.filter (fun e => !e.2.delivered && physAt e.2.px e.2.py == p.toNat)).map Prod.fst
        let y := (s.setRouter p.toNat { r with isolated := true }).loseFlits inside
        ((hit.foldl addNum y.2).foldl (fun (t : State) k => t.loseEntryOf k) y.1).endPlan)

/-! ## Arbiters (R310 to R313) -/

/-- Changes arbiter a of a core. -/
def State.mapArbiter (s : State) (l a : Nat) (f : Core → Arbiter → Arbiter) : State :=
  let c := s.core l
  s.setCore l { c with arbs := put c.arbs a (f c (look c.arbs a {})) }

/-- ARB_REQUEST (R311, R313). -/
def execArbRequest (c : CoreId) (a : BitVec 5) (k : BitVec 3) (s : State) : Answer :=
  if arbClasses a.toNat ≤ k.toNat then .fault .noSuchUnit
  else .next (s.mapArbiter c.toNat a.toNat (fun _ x => x.request k.toNat))

/-- ARB_RESOURCE_FREE (R311). -/
def execArbResourceFree (c : CoreId) (a : BitVec 5) (s : State) : Answer :=
  if 22 < a.toNat then .fault .noSuchUnit
  else .next (s.mapArbiter c.toNat a.toNat (fun d x => x.freed (d.arbPrio a.toNat)))

/-- ARB_WITHDRAW (R312). -/
def execArbWithdraw (c : CoreId) (a : BitVec 5) (s : State) : Answer :=
  if 22 < a.toNat then .fault .noSuchUnit
  else .next (s.mapArbiter c.toNat a.toNat (fun _ x => x.withdrawn))

/-- ROUTER_ARB (R317, R371). -/
def execRouterArb (k : CmdRef) (s : State) : Answer :=
  .next (s.runCommand k 0x35 (fun c s =>
    let r := c.rgn
    let g := s.region r
    let ws := (List.range 5).map (fun i => (16 + i, c.sub.arg (1 + i)))
    if g.state == .tideline || g.enabling.isSome then s.refuseBusy c
    else if !(g.state == .staged || g.state == .running || g.state == .slack) then s.refuseState c
    else match arbCheck ws with
    | some x => s.refuseCheck c { reason := x, detail := r }
    | none =>
      let rect := if g.state == .staged then g.shRect else g.rect
      let ls := rectCores rect
      let s := s.leaveArb r rect
      let s := ls.foldl (fun (t : State) l => t.setCore l ((t.core l).routerArb ws)) s
      (s.setRegion r { g with arbWords := some (rect, ws.map Prod.snd) }).succeed k (BitVec.ofNat 64 ls.length) 0))

/-! ## Barriers -/

/-- BARRIER_ARRIVAL (R305, R309): the core's oldest unsent arrival at b is at the barrier unit of its die, which counts it. One
at a module-scoped barrier that has failed meanwhile is released with FAIL. -/
def execBarrierArrival (c : CoreId) (b : BitVec 8) (s : State) : Answer :=
  let l := c.toNat
  .next (if s.underWay .arrive l b.toNat then s else
    let s := s.takeMessage .arrive l b.toNat
    let k := s.core l
    match s.regionOf l, k.barOut.findIdx? (fun a => a.b == b && !a.sent && a.rel.isNone) with
    | some r, some i =>
      match k.barOut[i]? with
      | none => s
      | some a =>
        if !s.mayArrive l b.toNat then
          s.setCore l ({ k with barOut := setAt k.barOut i { a with rel := some true } } : Core).deliverBarriers
        else (s.setCore l { k with barOut := setAt k.barOut i { a with sent := true } }).dieCounts l (barKey r b.toNat) a.gen
    | _, _ => s)

/-- A release of the generation has been sent to core l by the unit of its die. -/
def State.releasedHere (s : State) (l key gen : Nat) : Bool :=
  let x := s.barCount key gen
  x.released && x.down.contains (s.dieOf l)

/-- BARRIER_RELEASE (R306): the release of the core's oldest released arrival at b reaches it, and is delivered in order. -/
def execBarrierRelease (c : CoreId) (b : BitVec 8) (s : State) : Answer :=
  let l := c.toNat
  .next (if s.underWay .release l b.toNat then s else
    match s.regionOf l with
    | none => s
    | some r =>
      let s := s.takeMessage .release l b.toNat
      let k := s.core l
      let key := barKey r b.toNat
      match k.barOut.findIdx? (fun a => a.b == b && a.sent && a.rel.isNone && s.releasedHere l key a.gen) with
      | none => s
      | some i =>
        match k.barOut[i]? with
        | none => s
        | some a =>
          let x := s.barCount key a.gen
          (s.setCore l ({ k with barOut := setAt k.barOut i { a with rel := some false } } : Core).deliverBarriers).setBarCount
            { x with cores := dropNum x.cores l })

/-- The check of a barrier's set (R308, R331): FBAR_CFG asks a PARENT's route of a node that is not the root (DEDUCED,
log 33). -/
def State.barrierCheck (s : State) (b : Nat) (set : List Word) (fbar : Word) : Option Refused :=
  let named := (List.range 256).any (fun r => bit (set.getD (r / 64) 0) (r % 64) && !(s.region r).state.enabled)
  if named || s.barBusy b then some { reason := rsBarSet, detail := b }
  else
    let parent := fld fbar 44 12
    let fab := bit fbar 63 && !bit fbar 62 && !bit (s.route parent) 63
    if fab || (bit fbar 62 && parent != 0) then some { reason := rsFbarCfg, detail := b } else none

/-- A commit starts every participant's generations at b afresh, and no count of b stands (DEDUCED, log 34). -/
def State.freshBarrier (s : State) (b : Nat) : State :=
  { s with
    cores := s.cores.map (fun (e : Nat × Core) => (e.1, { e.2 with barGen := drop e.2.barGen b }))
    nemar := { s.nemar with barCounts := s.nemar.barCounts.filter (fun x => x.inst != barKey 0 b) } }

/-- BARRIER_SET (R308, R331, R332): a commit that clears EN of a barrier on the fabric fails it on its tree. -/
def execBarrierSet (k : CmdRef) (s : State) : Answer :=
  .next (s.runCommand k 0x32 (fun c s =>
    let b := fld (c.sub.arg 0) 0 8
    let j := b - 240
    let set := [c.sub.arg 1, c.sub.arg 2, c.sub.arg 3, c.sub.arg 4]
    let en := bit (c.sub.arg 5) 63
    let fbar := c.sub.arg 6
    match s.barrierCheck b set fbar with
    | some x => s.refuseCheck c x
    | none =>
      let s := if (s.modBar j).onFabric && !en then s.failBarrier b none else s
      let m := s.modBar j
      ((s.setModBar j { m with set := #v[c.sub.arg 1, c.sub.arg 2, c.sub.arg 3, c.sub.arg 4], en := en, fbar := fbar,
                               childArr := [], kids := [], sentUp := 0 }).freshBarrier b).succeed k 0 0))

/-! ## Spray (R301) -/

/-- SPRAY_SET: the count of points must be 1, 2, 4 or 8. -/
def execSpraySet (k : CmdRef) (s : State) : Answer :=
  .next (s.runCommand k 0x31 (fun c s =>
    let e := fld (c.sub.arg 0) 0 2
    let m := BitVec.ofNat 16 (c.sub.arg 1).toNat
    let n := ((List.range 16).filter (bit m)).length
    if n == 1 || n == 2 || n == 4 || n == 8 then
      (({ s with mesh := { s.mesh with spray := s.mesh.spray.setIfInBounds e m } } : State).remap).succeed k 0 0
    else s.refuseCheck c { reason := rsSprayCfg }))

end Sys2Proof.Machine
end

