-- ==== Sys2Proof/Machine/Flits.lean ====
section
/-! DEFINITION. Machine/Flits.lean: a Zoinnath flit as it stands on a link, its CRC, and how a receiver reads it (R319, R320).
The manual names CRC-32C and gives neither its bit order nor the order of a flit's bytes: the CRC is Castagnoli's, reflected,
and bytes go lowest first (PRESUMED, log 132). -/

namespace Sys2Proof.Machine

/-- Bytes of payload of a kind (R320). -/
def payloadBytes (kind : BitVec 4) (aux : BitVec 32) : Nat :=
  if kind = kindResp || kind = kindWrite then (if bit aux 0 then 256 else 128)
  else if kind = kindPour then (if bit aux 12 then 256 else 128)
  else if kind = kindCtrl then 16
  else 0

/-- The header of a flit (R319). -/
def KFlit.header (k : KFlit) : BitVec 160 :=
  BitVec.ofNat 160 (k.kind.toNat * 2 ^ 156 + k.f.cls.toNat * 2 ^ 155 + k.f.dst.toNat * 2 ^ 140 + k.f.src.toNat * 2 ^ 128 +
    k.f.tag.toNat * 2 ^ 116 + k.f.addr.toNat * 2 ^ 75 + k.f.pois.toNat * 2 ^ 59 + k.f.aux.toNat * 2 ^ 27)

/-- One bit of the reflected CRC. -/
def crcBit (c : BitVec 32) : BitVec 32 := if bit c 0 then (c >>> 1) ^^^ 0x82F63B78 else c >>> 1

/-- One byte of it. -/
def crcByte (c : BitVec 32) (b : Byte) : BitVec 32 :=
  (List.range 8).foldl (fun (c : BitVec 32) _ => crcBit c) (c ^^^ BitVec.ofNat 32 b.toNat)

/-- CRC-32C of bytes. -/
def crc32c (bs : List Byte) : BitVec 32 := ~~~(bs.foldl crcByte 0xFFFFFFFF)

/-- Header and payload of a flit, the bytes that its CRC covers. -/
def KFlit.body (k : KFlit) : List Byte :=
  toBytes 20 k.header.toNat ++ toBytes (payloadBytes k.kind k.f.aux) k.f.data.toNat

/-- The trailer of a flit: CRC, SEQ and zero. -/
def KFlit.trailer (k : KFlit) : Word := at64 32 32 (crc32c k.body).toNat ||| at64 20 12 k.f.seq.toNat

/-- A flit as it stands on a link. -/
def KFlit.wire (k : KFlit) : List Byte := k.body ++ toBytes 8 k.trailer.toNat

/-- A kind that R320 assigns. -/
def kindAssigned (kind : BitVec 4) : Bool := 1 ≤ kind.toNat && kind.toNat ≤ 12

/-- The fields of a header. -/
def headerFields (h : Nat) : BitVec 4 × Flit :=
  (BitVec.ofNat 4 (h / 2 ^ 156),
    { Flit.zero with
      cls := BitVec.ofNat 1 (h / 2 ^ 155), dst := BitVec.ofNat 12 (h / 2 ^ 140), src := BitVec.ofNat 12 (h / 2 ^ 128)
      tag := BitVec.ofNat 12 (h / 2 ^ 116), addr := BitVec.ofNat 41 (h / 2 ^ 75), pois := BitVec.ofNat 16 (h / 2 ^ 59)
      aux := BitVec.ofNat 32 (h / 2 ^ 27) })

/-- A receiver reads a flit from a link; none where its CRC or its length fails, or its kind is reserved, which counts as a CRC
error (R319, R320). -/
def readWire (bs : List Byte) : Option KFlit :=
  let h := headerFields (ofBytes (bs.take 20))
  let n := payloadBytes h.1 h.2.aux
  let t := ofBytes (bs.drop (20 + n))
  let body := bs.take (20 + n)
  if bs.length != 28 + n || !kindAssigned h.1 || (crc32c body).toNat != t / 2 ^ 32 then none
  else some ⟨h.1, { h.2 with seq := BitVec.ofNat 12 (t / 2 ^ 20), data := BitVec.ofNat 2048 (ofBytes (body.drop 20)) }⟩

/-- The link-layer flit of a kind and AUX that a port toward a node sends. -/
def linkFlitOf (dst src : NodeId) (x : BitVec 4 × BitVec 32) : KFlit :=
  ⟨x.1, { Flit.zero with dst := dst, src := src, aux := x.2 }⟩

/-- What a port has put on its link and no LACK covers, and its link-layer flits, as bytes. -/
def State.onLink (s : State) (p : Nat) : List (List Byte) :=
  let x := s.zport p
  x.replay.map KFlit.wire ++
    (x.sentLink.map (linkFlitOf (BitVec.ofNat 12 x.farNode) s.fabric.node)).map KFlit.wire

end Sys2Proof.Machine
end

