-- ==== Sys2Proof/Machine/ZLink.lean ====
section
/-! DEFINITION. Machine/ZLink.lean: a flit that arrives by a Zoinnath port (R319 to R321), the link-layer flits, and the
reads and writes that nodes make of one another (R320, R325, R327). -/

namespace Sys2Proof.Machine

/-! ## The link layer (R321, R328) -/

/-- Changes a port. -/
def State.mapPort (s : State) (p : Nat) (f : ZPortState → ZPortState) : State := s.setZport p (f (s.zport p))

/-- Sends a link-layer flit: it takes no SEQ. -/
def ZPortState.sendLink (p : ZPortState) (kind : BitVec 4) (aux : Nat) : ZPortState :=
  { p with sentLink := p.sentLink ++ [(kind, BitVec.ofNat 32 aux)] }

/-- A port takes the flit of the SEQ it expects, acknowledges it and returns its buffer. -/
def ZPortState.take (p : ZPortState) : ZPortState :=
  (({ p with rxSeq := p.rxSeq + 1, failedSeqs := dropNum p.failedSeqs p.rxSeq.toNat } : ZPortState).sendLink kindLack p.rxSeq.toNat).sendLink kindLcredit 1

/-- A resend that arrives good: a transient error (R321, R389, R392). -/
def State.portRetried (s : State) (p : Nat) : State :=
  let s := s.mapPort p (fun x => { x with retry := BitVec.ofNat 32 (satInc 32 x.retry.toNat) })
  s.logError false 5 p errZlCrc (8 * p) 0 none

/-- A flit that takes a SEQ arrives good (R321): the one expected is taken, one taken before is acknowledged again, and
one ahead of a flit still missing is discarded. One for another node goes no further (R325). -/
def State.receive (s : State) (p : Nat) (f : Flit) (body : State → State) : State :=
  let x := s.zport p
  if !x.isUp then s
  else if f.seq != x.rxSeq then
    (if (x.rxSeq - f.seq).toNat ≤ 256 then s.mapPort p (fun x => x.sendLink kindLack (x.rxSeq - 1).toNat) else s)
  else
    let s := if x.failedSeqs.contains f.seq.toNat then s.portRetried p else s
    let s := s.mapPort p ZPortState.take
    if f.dst == s.fabric.node then body s else s

/-- A flit is the next one its port takes, and for this node. -/
def State.takesNext (s : State) (p : Nat) (f : Flit) : Bool :=
  (s.zport p).isUp && f.seq == (s.zport p).rxSeq && f.dst == s.fabric.node

/-- LCREDIT (R320, R328): flit buffers of the far end. -/
def execLcredit (p : ZPort) (f : Flit) (s : State) : Answer :=
  .next (if (s.zport p.toNat).isUp then
      s.mapPort p.toNat (fun x => ({ x with credits := x.credits + fld f.aux 0 16 } : ZPortState).pump)
    else s)

/-- Drops the flits a LACK covers: up to and with the one of its SEQ. -/
def coveredBy (seq : BitVec 12) : List KFlit → Option (List KFlit)
  | [] => none
  | x :: t => if x.f.seq = seq then some t else coveredBy seq t

/-- A lasting CRC error of a port (R321, R389, R392): it holds its traffic and retrains. -/
def State.portLasting (s : State) (p : Nat) : State :=
  let old := s.zport p
  let s := s.setZport p { old with lasting := BitVec.ofNat 16 (satInc 16 old.lasting.toNat), held := true,
                                   state := .training, lanes := 0 }
  (s.logError true 5 p errZlCrc (8 * p) 0 none).logEvent { code := rcPortState, srcKind := 5, srcId := p }
    (s.zport p).stat old.stat 0 0

/-- LNAK (R321): the flits from the named one onward are sent again as they stand in the replay buffer; the same SEQ named
twice is a lasting error. -/
def execLnak (p : ZPort) (f : Flit) (s : State) : Answer :=
  let n := p.toNat
  let x := s.zport n
  let q := BitVec.ofNat 12 (fld f.aux 0 12)
  .next (if !x.isUp || !x.replay.any (fun k => k.f.seq == q) then s
    else if x.nakSeqs.contains q.toNat then s.portLasting n
    else s.setZport n { x with nakSeqs := addNum x.nakSeqs q.toNat })

/-- FLIT_CRC_ERROR (R320, R321): the flit is discarded and answered with LNAK; the same SEQ failing twice is lasting. -/
def execFlitCrcError (p : ZPort) (seq : BitVec 12) (s : State) : Answer :=
  let n := p.toNat
  let x := s.zport n
  .next (if !x.isUp then s
    else if x.failedSeqs.contains seq.toNat then s.portLasting n
    else s.setZport n (({ x with failedSeqs := addNum x.failedSeqs seq.toNat } : ZPortState).sendLink kindLnak seq.toNat))

/-! ## Reads and writes of another node (R320, R327, R198) -/

/-- Lines a READ, RESP or WRITE carries. -/
def flitLines (f : Flit) : Nat := if bit f.aux 0 then 2 else 1

/-- First byte of the lines a flit names. -/
def flitAddr (f : Flit) : Nat := f.addr.toNat * 128

/-- Sends an answer to the node a flit came from; none can be sent to an unreachable one. -/
def State.answer (s : State) (f : Flit) (kind : BitVec 4) (g : Flit) : State :=
  (s.sendFlit f.src.toNat f.addr.toNat kind { g with tag := f.tag, addr := f.addr }).getD s

/-- Answers ERR with a cause: 1 ABSENT, 2 FAILED. -/
def State.answerErr (s : State) (f : Flit) (cause : Nat) : State :=
  s.answer f kindErr { Flit.zero with aux := BitVec.ofNat 32 cause }

/-- The parts of this module's addresses that a flit names. -/
def flitParts (f : Flit) : List (Nat × Nat) := partsOf (flitAddr f) (128 * flitLines f)

/-- Why lines cannot be answered, as the cause of ERR: 1 ABSENT, 2 FAILED; none where every line is reached. Addresses are
decoded by the module's map, the object range through the placement table (R24, R25, R327); a register is no target of a
line (DEDUCED, log 39). -/
def State.fabricCause (s : State) (f : Flit) : Option Nat :=
  let ws := (flitParts f).map (fun q => s.objectAt q.1)
  if ws.any (fun w => w == .failed) then some 2
  else if ws.all (fun w => match w with
    | .mem _ => true
    | _ => false) then none
  else some 1

/-- The bytes a READ brings: a poisoned page is read wholly marked (R284). -/
def State.fabricRead (s : State) (f : Flit) : List (Byte × Bool) :=
  (flitParts f).flatMap (fun q => s.partRead (s.objectAt q.1) q.1 q.2)

/-- A line of a flit lies in a page that moves: a write to it is held (R275). -/
def State.fabricHeld (s : State) (f : Flit) : Bool :=
  (flitParts f).any (fun q => match s.whereIs q.1 with
    | .object p _ => bit (s.ptEntry p).w0 63 && !bit (s.ptEntry p).w0 56 && bit (s.ptEntry p).w0 55
    | _ => false)

/-- The lines of a WRITE are stored part by part. -/
def State.fabricStore (s : State) (f : Flit) (bs : List (Byte × Bool)) : State :=
  (flitParts f).foldl (fun (t : State) q => (t.objectPut q.1 ((bs.drop (q.1 - flitAddr f)).take q.2)).2) s

/-- The bytes a flit carries, with the poison of their sectors. -/
def flitBytes (f : Flit) : List (Byte × Bool) :=
  ((toBytes (128 * flitLines f) f.data.toNat).zipIdx).map (fun b => (b.1, bit f.pois (b.2 / 16)))

/-! ## Answers to this module's reads and writes (R195, R199, R212, R328) -/

/-- RESP (R320): the line a READ generator asked for; an answer to no outstanding read is discarded (R199). -/
def execResp (p : ZPort) (f : Flit) (s : State) : Answer :=
  .next (s.receive p.toNat f (fun s =>
    match s.fabric.reads.find? (fun r => r.tag == f.tag && r.node == f.src && !r.failed) with
    | none => s
    | some r =>
      let s := { s with fabric := { s.fabric with reads := s.fabric.reads.filter (fun x => x != r) } }
      s.writeMem (fabricKey r.node.toNat (128 * r.line)) ((flitBytes f).take 128)))

/-- A generator's line over the fabric has ended; a run one of whose lines was refused is counted once (R199). -/
def State.endRunLine (s : State) (w : FabWrite) (accepted : Bool) : State :=
  let s := s.dropWrites [w]
  (if accepted || w.counted then s else s.countRun w.core w.gen w.tile w.run).settleTiles w.core w.gen

/-- The bytes of a line that POSTED descriptors of core l wrote become undefined: a write of it was refused (R207). -/
def State.undefineLine (s : State) (l : Nat) (spans : List (Nat × Nat × Nat × Int)) (node line : Nat) : State :=
  let k := fabricKey node (128 * line)
  spans.foldl (fun (t : State) x => (List.range x.2.1).foldl (fun (t : State) r =>
    (t.fabricParts l [] (rowAddr x.1 x.2.2.2 r) x.2.2.1).foldl (fun (t : State) q =>
      let lo := Nat.max q.1 k
      let n := Nat.min (q.1 + q.2) (k + 128) - lo
      let b := t.freeBytes n
      b.2.writeMem lo (clean b.1)) t) t) s

/-- The destination of the descriptor that a channel has in hand. -/
def State.descInHand (s : State) (l : Nat) (d : DmaChannel) : List (Nat × Nat × Nat × Int) :=
  match d.fab, d.chains with
  | some _, (off, _) :: _ =>
    let x := readDesc s.mem (sliceBase l + off)
    [(x.dst, x.rows, x.len, x.dstride)]
  | _, _ => []

/-- A write over the fabric has ended. One of a POSTED descriptor that is refused once its last write has left sets PFAIL, and
the channel's next CONFIRMED descriptor reports it (R207); another refused one is kept until its owner sees it. -/
def State.endLine (s : State) (w : FabWrite) (accepted : Bool) : State :=
  if w.gen < 4 then s.endRunLine w accepted
  else if accepted || w.gen = ownBeside || w.gen = ownRestore then s.dropWrites [w]
  else if w.gen < 6 && w.tile = 1 && !((s.core w.core).chan (w.gen - 4)).sending w.run then
    let c := s.core w.core
    let d := c.chan (w.gen - 4)
    ((s.dropWrites [w]).setCore w.core (c.setChan (w.gen - 4) { d with pfail := true, prior := true })).undefineLine w.core
      (d.posted ++ s.descInHand w.core d) w.node.toNat w.line
  else { s with fabric := { s.fabric with writes := s.fabric.writes.map (fun (x : FabWrite) =>
      if x = w then { x with failed := true } else x) } }

/-- The write of a tag and a node has ended, if one is outstanding. -/
def State.endWrite (s : State) (tag : BitVec 12) (node : NodeId) (accepted : Bool) : State :=
  match s.fabric.writes.find? (fun w => w.tag == tag && w.node == node && !w.failed) with
  | some w => s.endLine w accepted
  | none => s

/-- A read over the fabric has failed; its generator is told at the return of its run (R199). -/
def State.failRead (s : State) (r : FabRead) : State :=
  { s with fabric := { s.fabric with reads := s.fabric.reads.map (fun x => if x = r then { x with failed := true } else x) } }

end Sys2Proof.Machine
end

