-- ==== Sys2Proof/Machine/Pour.lean ====
section
/-! DEFINITION. Machine/Pour.lean: the pour (R228, R231, R333 to R338). Of a slot's first round after a commit, and of the
module's own fold, windows 0 and 1 are open from the start; every later window is granted by PCREDIT. Lines leave at the next
USEC_TICK, or when a pour row works on their reducer (DESIGN CHOICE, log 40: the manual gives no message that asks for
credit, and no event for a line that leaves). -/

namespace Sys2Proof.Machine

/-! ## Fields of a slot (R334) -/

/-- NCONTRIB. -/
def PourSlotState.ncontrib (p : PourSlotState) : Nat := fld p.w0 0 13
/-- EPOCH. -/
def PourSlotState.epoch (p : PourSlotState) : Nat := fld p.w0 32 16
/-- FOLDNODE. -/
def PourSlotState.foldNode (p : PourSlotState) : Nat := fld p.w1 32 12
/-- LINES. -/
def PourSlotState.lines (p : PourSlotState) : Nat := fld p.w1 0 32
/-- DST. -/
def PourSlotState.dst (p : PourSlotState) : Nat := fld p.w2 0 60
/-- DONE_CORE. -/
def PourSlotState.doneCore (p : PourSlotState) : Nat := fld p.w3 16 14
/-- TIMEOUT. -/
def PourSlotState.timeout (p : PourSlotState) : Nat := fld p.w3 0 10
/-- This module folds the slot. -/
def PourSlotState.folds (p : PourSlotState) : Bool := bit p.w0 63 && bit p.w0 62

/-- Lines of a window, W of R336. -/
def PourSlotState.window (p : PourSlotState) : Nat := 65536 / Nat.max 1 p.ncontrib

/-- Windows of a round. -/
def PourSlotState.windows (p : PourSlotState) : Nat := ceilDiv p.lines p.window

/-- The lowest number not in a strictly rising list of numbers from `k` up. -/
def firstGap (k : Nat) : NumSet → Nat
  | [] => k
  | a :: t => if a = k then firstGap (k + 1) t else k

/-- The lowest unfinished window of the round in hand. -/
def PourSlotState.low (p : PourSlotState) : Nat := firstGap 0 p.written / p.window

/-- The contents of a range of global addresses are undefined: free values (log 2). -/
def State.undefineRange (s : State) (a n : Nat) : State :=
  (partsOf a n).foldl (fun (t : State) q => match t.globalAt q.1 with
    | .mem k => t.freeSpan k q.2 false
    | _ => t) s

/-! ## Failure (R338) -/

/-- Status of a PNAK cause: EPOCH, DUP; SLOT has none. -/
def pnakStatus (cause : Nat) : Nat := if cause = 1 then stEpochStale.toNat else if cause = 2 then stPourDup.toNat else 0

/-- A contribution fails: FAIL in its core, and the cause is logged; the core's request runs on. -/
def State.failContribution (s : State) (x : Contribution) (status : Nat) : State :=
  let c := s.core x.core
  let s := { s with fabric := { s.fabric with contribs := s.fabric.contribs.filter (fun y => y != x) } }
  (s.setCore x.core { c with pourFail := true }).logPourFail x.core x.slot x.kappa status

/-- The contributions of a slot that `hit` picks fail. -/
def State.failContributions (s : State) (slot status : Nat) (hit : Contribution → Bool) : State :=
  (s.fabric.contribs.filter (fun x => x.slot == slot && hit x)).foldl (fun (t : State) x => t.failContribution x status) s

/-- TAG of a POUR, PCREDIT or PNAK flit: slot and round parity (R319). -/
def pourTag (slot rnd : Nat) : BitVec 12 := BitVec.ofNat 12 (slot + rnd % 2 * 1024)

/-- The result lines of a slot that other nodes have not answered are awaited no longer. -/
def State.releaseResults (s : State) (slot : Nat) : State :=
  let mine := fun (w : FabWrite) => w.gen == ownPour && w.core == slot
  { s with fabric := { s.fabric with writes := (s.fabric.writes.filter (fun w => !(mine w && w.failed))).map (fun (w : FabWrite) =>
      if mine w then { w with core := 0, gen := ownBeside } else w) } }

/-- Every node that has contributed to a slot is told that the round in hand has failed: with the PNAK that answers a later line
(R338; DEDUCED, log 89: each contributor sets FAIL, and one whose lines are all sent sends none that could be answered). -/
def State.nakRound (s : State) (slot cause : Nat) : State :=
  let p := s.pourSlot slot
  p.nodes.foldl (fun (t : State) n =>
    if n = t.fabric.node.toNat then t
    else (t.sendFlit n 0 kindPnak { Flit.zero with cls := 1, tag := pourTag slot p.rnd, aux := BitVec.ofNat 32 cause }).getD t) s

/-- The folder fails the round in hand of a slot: STATE 2, its part freed, its result lines undefined, DONE_CORE told, the
request of DONE_CORE's region ended as R280 lays down, and every contributor told. -/
def State.failRound (s : State) (slot : Nat) (status : Code) (cause kappa : Nat) : State :=
  let p := s.pourSlot slot
  let s := ((s.setPour slot { p with
    state := 2, fails := BitVec.ofNat 32 (satInc 32 p.fails.toNat), have_ := [], bad := [], written := [], out := []
    startUsec := none, part := false, cause := cause }).releaseResults slot).nakRound slot cause
  let s := s.undefineRange (p.dst / 128 * 128) (128 * p.lines)
  let l := p.doneCore
  let c := s.core l
  let g := match s.regionOf l with
    | some r => if (s.region r).reqValid then some r else none
    | none => none
  let s := (s.setCore l { c with pourFail := true }).logPourFail l slot kappa status.toNat
  let s := s.failContributions slot status.toNat (fun _ => true)
  match g with
  | some r => (s.endRequest r status 0 (r1Core (some l) 0 0 slot)).resetRegion r
  | none => s

/-! ## Folding (R228, R231, R336) -/

/-- Element e of a line of FP32. -/
def lineElem (w : Line) (e : Nat) : Nat := (w.toNat >>> (32 * e)) % 2 ^ 32

/-- The result line: T over the contributions by κ, element by element. -/
def foldLine (xs : List Line) : Line :=
  (List.range 32).foldr (fun e (w : Line) => (w <<< 32) ||| BitVec.ofNat 1024 (refTree (xs.map (fun x => lineElem x e)))) 0

/-- The result of a line has been accepted: its contributions are dropped. -/
def PourSlotState.accepted (p : PourSlotState) (line : Nat) : PourSlotState :=
  { p with
    have_ := p.have_.filter (fun e => e.1 / 4096 != line)
    bad := p.bad.filter (fun k => k / 4096 != line)
    written := addNum p.written line, out := dropNum p.out line
    plines := if p.bad.any (fun k => k / 4096 == line) then p.plines + 1 else p.plines }

/-- The WRITEs of result lines that stand for a line of a slot. -/
def State.resultWrites (s : State) (slot line : Nat) : List FabWrite :=
  s.fabric.writes.filter (fun w => w.core == slot && w.gen == ownPour && w.tile == line)

/-- A result line sent to another node: accepted once its WRITE is answered with WACK; one that the node or the path refused is
written again later (R326, R328, R336). -/
def State.awaitResult (s : State) (slot line : Nat) : State :=
  let p := s.pourSlot slot
  let ws := s.resultWrites slot line
  if ws.isEmpty then s.setPour slot (p.accepted line)
  else if ws.any (fun w => !w.failed) then s
  else (s.dropWrites ws).setPour slot { p with out := dropNum p.out line }

/-- Folds a line whose contributions have all arrived, and drops them once its result is accepted; a result that is held or
cannot be written is written again later. -/
def State.foldIfWhole (s : State) (slot line : Nat) : State :=
  let p := s.pourSlot slot
  let mine := p.have_.filter (fun e => e.1 / 4096 == line)
  if mine.length < p.ncontrib then s
  else if p.out.contains line then s.awaitResult slot line
  else
    let bad := p.bad.any (fun k => k / 4096 == line)
    let w := foldLine (mine.map Prod.snd)
    match s.globalWrite (p.dst / 128 * 128 + 128 * line) ((toBytes 128 w.toNat).map (fun b => (b, bad))) false
        ⟨slot, ownPour, line⟩ with
    | (.done, s) =>
      if (s.resultWrites slot line).isEmpty then s.setPour slot (p.accepted line)
      else s.setPour slot { p with out := addNum p.out line }
    | (_, s) => s

/-- Grants window w of round `rnd` of a slot, to this module's contributions and to every node that has contributed. -/
def State.grant (s : State) (slot rnd w : Nat) : State :=
  let p := s.pourSlot slot
  let s := s.setPour slot { p with cround := rnd, cwin := if p.cround = rnd then Nat.max p.cwin (w + 1) else w + 1 }
  p.nodes.foldl (fun (t : State) n =>
    if n = t.fabric.node.toNat then t
    else (t.sendFlit n w kindPcredit { Flit.zero with tag := pourTag slot rnd, aux := BitVec.ofNat 32 w }).getD t) s

/-- A contribution is accepted in full: SENT counts it (R335). -/
def State.countAccepted (s : State) (x : Contribution) : State :=
  if x.counted then s else
  let c := s.core x.core
  ({ s with fabric := { s.fabric with contribs := s.fabric.contribs.map (fun z => if z = x then { x with counted := true } else z)
    } } : State).setCore x.core { c with pourSent := c.pourSent + 1 }

/-- The rounds of a slot before `rnd` are over: their contributions have all been accepted, and are done with. -/
def State.roundOver (s : State) (slot rnd : Nat) : State :=
  let past := fun (x : Contribution) => x.slot == slot && x.round < rnd
  let s := (s.fabric.contribs.filter past).foldl (fun (t : State) x => t.countAccepted x) s
  { s with fabric := { s.fabric with contribs := s.fabric.contribs.filter (fun x => !past x) } }

/-- After a result: windows that have become open are granted; a whole round ends, and the next one begins. -/
def State.advanceRound (s : State) (slot low : Nat) : State :=
  let p := s.pourSlot slot
  if p.lines ≤ p.written.length then
    let c := s.core p.doneCore
    let s := s.setPour slot { p with
      state := 0, rounds := p.rounds + 1, rnd := p.rnd + 1, written := [], out := [], have_ := [], bad := []
      startUsec := none, part := false }
    let s := s.setCore p.doneCore { c with pourDone := c.pourDone + 1 }
    ((s.grant slot (p.rnd + 1) 0).grant slot (p.rnd + 1) 1).roundOver slot (p.rnd + 1)
  else
    (rangeFrom low (p.low - low)).foldl (fun (t : State) w =>
      if w + 2 < p.windows then t.grant slot p.rnd (w + 2) else t) s

/-- How the folder takes a contribution line. -/
inductive Fold where
  | taken
  /-- refused with a cause of PNAK. -/
  | refused (cause : Nat)
  /-- refused, and the round fails. -/
  | fails (cause : Nat) (status : Code)
  deriving DecidableEq, Repr

/-- The folder's judgement of a line of κ (R336, R338): 1 EPOCH, 2 DUP, 3 SLOT. -/
def State.judgeLine (s : State) (slot kappa line epoch : Nat) (parity : Bool) : Fold :=
  let p := s.pourSlot slot
  if !p.folds || p.ncontrib ≤ kappa || p.lines ≤ line then .refused 3
  else if p.state == 2 then .refused p.cause
  else if epoch != p.epoch then .fails 1 stEpochStale
  else if parity != (p.rnd % 2 == 1) then .refused 3
  else if p.written.contains line || (find? p.have_ (line * 4096 + kappa)).isSome then .fails 2 stPourDup
  else if line / p.window < p.low || p.low + 1 < line / p.window then .refused 3
  else .taken

/-! Fold parts (R336): each reducer folds four slots at once, in the order in which they have asked -/

/-- A slot asks for credit. -/
def State.askPart (s : State) (slot : Nat) : State :=
  if (s.pourSlot slot).part || s.fabric.asking.contains slot then s
  else { s with fabric := { s.fabric with asking := s.fabric.asking ++ [slot] } }

/-- The first slot of reducer r that asks gets a part, where one is free. -/
def State.givePart (s : State) (r : Nat) : State :=
  let n := reducers s.grade
  if 4 ≤ (s.fabric.pours.filter (fun e => e.2.part && e.1 % n == r)).length then s
  else match s.fabric.asking.find? (fun k => k % n == r) with
  | none => s
  | some k => ({ s with fabric := { s.fabric with asking := s.fabric.asking.erase k } } : State).setPour k
      { s.pourSlot k with part := true }

/-- Every free part of reducer r is given. -/
def State.giveParts (s : State) (r : Nat) : State := (List.range 4).foldl (fun (t : State) _ => t.givePart r) s

/-- The folder takes a line into the round in hand. -/
def State.storeLine (s : State) (slot kappa line node : Nat) (w : Line) (bad : Bool) : State :=
  let p := s.pourSlot slot
  let key := line * 4096 + kappa
  let s := s.setPour slot { p with
    state := 1, part := true, nodes := addNum p.nodes node, have_ := put p.have_ key w
    bad := if bad then addNum p.bad key else p.bad, startUsec := some (p.startUsec.getD s.nemar.usec) }
  (s.foldIfWhole slot line).advanceRound slot p.low

/-- A refused line is counted. -/
def State.countRefused (s : State) (slot : Nat) : State :=
  let p := s.pourSlot slot
  s.setPour slot { p with refused := BitVec.ofNat 32 (satInc 32 p.refused.toNat) }

/-! ## Contributing (R335, R336) -/

/-- The next line of a contribution's source; wholly poisoned where it cannot be read. -/
def State.sourceLine (s : State) (x : Contribution) : List (Byte × Bool) × State :=
  match s.whereIs (128 * (x.src + x.sent)) with
  | .mem k => (s.readMem k 128, s.snoopData k 128)
  | _ => s.poisonRun 128

/-- Lines of a contribution that it may have sent. -/
def PourSlotState.mayHaveSent (p : PourSlotState) (x : Contribution) : Nat :=
  if x.round = p.cround then Nat.min p.lines (p.cwin * p.window) else if x.round < p.cround then p.lines else 0

/-- A contribution does not wait for credit. -/
def State.mayGoOn (s : State) (x : Contribution) : Bool :=
  let p := s.pourSlot x.slot
  (!p.folds || p.part) && x.sent < p.mayHaveSent x

/-- The contributions a reducer works on: the first 64 of those that do not wait for credit, so that none of these holds
another back (R335, R337). -/
def State.working (s : State) (slot : Nat) : List Contribution :=
  let n := reducers s.grade
  (s.fabric.contribs.filter (fun x => x.slot % n == slot % n && s.mayGoOn x)).take 64

/-- One more line of a contribution has been sent. -/
def State.countSent (s : State) (x : Contribution) : State :=
  { s with fabric := { s.fabric with contribs := s.fabric.contribs.map (fun z =>
      if z = x then { x with sent := x.sent + 1 } else z) } }

/-- One more line of a contribution has been accepted by the folder here; with the last one SENT counts it. -/
def State.countTaken (s : State) (x : Contribution) : State :=
  let s := s.countSent x
  if (s.pourSlot x.slot).lines ≤ x.sent + 1 then s.countAccepted { x with sent := x.sent + 1 } else s

/-- A port holds a POUR flit of a contribution that no LACK covers. -/
def State.pourOut (s : State) (x : Contribution) : Bool :=
  s.fabric.ports.toList.any (fun p => (p.replay ++ p.tx).any (fun k =>
    k.kind == kindPour && fld k.f.tag 0 10 == x.slot && fld k.f.aux 0 12 == x.kappa && bit k.f.tag 10 == (x.round % 2 == 1)))

/-- SENT counts each contribution to another node whose lines its far end has all taken: a LACK covers every one (R335;
DESIGN CHOICE, log 40). -/
def State.settleSent (s : State) : State :=
  (s.fabric.contribs.filter (fun x =>
    let p := s.pourSlot x.slot
    !x.counted && !p.folds && p.lines ≤ x.sent && !s.pourOut x)).foldl (fun (t : State) x => t.countAccepted x) s

/-- A line reaches the folder on this module; what it refuses fails the contribution. -/
def State.foldLocal (s : State) (x : Contribution) : State :=
  let p := s.pourSlot x.slot
  let y := s.sourceLine x
  let bs := y.1
  let s := y.2
  match s.judgeLine x.slot x.kappa x.sent p.epoch (x.round % 2 == 1) with
  | .taken =>
    (s.countTaken x).storeLine x.slot x.kappa x.sent s.fabric.node.toNat (BitVec.ofNat 1024 (ofBytes (bs.map Prod.fst)))
      (anyBad bs)
  | .refused c => (s.countRefused x.slot).failContribution x (pnakStatus c)
  | .fails c st => (s.countRefused x.slot).failRound x.slot st c x.kappa

/-- A POUR flit carries the next line of a contribution to FOLDNODE (R319, R320, R325). -/
def State.sendLine (s : State) (x : Contribution) : Option State :=
  let p := s.pourSlot x.slot
  let y := s.sourceLine x
  let bs := y.1
  y.2.sendFlit p.foldNode x.sent kindPour { Flit.zero with
    tag := pourTag x.slot x.round, addr := BitVec.ofNat 41 x.sent, pois := poisOf bs
    aux := BitVec.ofNat 32 (p.epoch * 65536 + x.kappa), data := BitVec.ofNat 2048 (ofBytes (bs.map Prod.fst)) }

/-- The next line that a contribution to a slot can send now, if there is one. -/
def State.nextLine (s : State) (slot : Nat) : Option Contribution := (s.working slot).find? (fun x => x.slot == slot)

/-- The edge die of a slot's reducer is lost, and the reducer with it (R333, R454). -/
def State.reducerLost (s : State) (slot : Nat) : Bool :=
  let e := [0, 2, 1, 3].getD (slot % reducers s.grade) 0
  (s.plant.edgeLost[e]?).getD false

/-- Sends lines of a slot's contributions as far as credit goes; `fuel` bounds the lines. A folder that is not reachable
fails them (R338). -/
def State.pumpPour (slot : Nat) : Nat → State → State
  | 0, s => s
  | n + 1, s =>
    match (if s.reducerLost slot then none else s.nextLine slot) with
    | none => s
    | some x =>
      if (s.pourSlot slot).folds then pumpPour slot n (s.foldLocal x)
      else match s.sendLine x with
        | some t => pumpPour slot n (t.countSent x)
        | none => pumpPour slot n (s.failContribution x stPourTimeout.toNat)

/-- A bound on the lines a slot's contributions still have. -/
def State.linesLeft (s : State) (slot : Nat) : Nat :=
  (s.fabric.contribs.filter (fun x => x.slot == slot)).length * (s.pourSlot slot).lines + 1

/-- A line of a POUR flit's slot waits for a fold part (R336). -/
def State.pourWaits (s : State) (f : Flit) : Bool :=
  let slot := fld f.tag 0 10
  !(s.pourSlot slot).part && s.judgeLine slot (fld f.aux 0 12) f.addr.toNat (fld f.aux 16 16) (bit f.tag 10) == .taken

/-- The contribution lines of a POUR flit are taken into the fold; refused ones are answered with PNAK. -/
def State.takeLines (s : State) (f : Flit) : State :=
  let slot := fld f.tag 0 10
  let kappa := fld f.aux 0 12
  (List.range (if bit f.aux 12 then 2 else 1)).foldl (fun (s : State) i =>
    let line := f.addr.toNat + i
    let nak := fun (s : State) (c : Nat) =>
      (s.sendFlit f.src.toNat line kindPnak { Flit.zero with cls := 1, tag := f.tag, aux := BitVec.ofNat 32 c }).getD s
    match s.judgeLine slot kappa line (fld f.aux 16 16) (bit f.tag 10) with
    | .taken => s.storeLine slot kappa line f.src.toNat (BitVec.ofNat 1024 (fld f.data (1024 * i) 1024))
        (fld f.pois (8 * i) 8 != 0)
    | .refused c => nak (s.countRefused slot) c
    | .fails c st => nak ((s.countRefused slot).failRound slot st c kappa) c) s

/-- A slot that folds here asks for a part for its own contributions. -/
def State.askOwn (s : State) (slot : Nat) : State :=
  let p := s.pourSlot slot
  if p.folds && p.state != 2 && s.fabric.contribs.any (fun x => x.slot == slot && x.sent < p.mayHaveSent x) then s.askPart slot
  else s

/-- Flits that waited for a part of reducer r go on, in the order of their arrival. -/
def State.takeWaiting (s : State) (r : Nat) : State :=
  s.fabric.pourWait.foldl (fun (t : State) f =>
    if fld f.tag 0 10 % reducers t.grade != r || t.pourWaits f then t
    else ({ t with fabric := { t.fabric with pourWait := t.fabric.pourWait.erase f } } : State).takeLines f) s

/-- Lines of a slot whose contributions have all arrived are folded where their result was not accepted before. -/
def State.retryFolds (s : State) (slot : Nat) : State :=
  let p := s.pourSlot slot
  let lines := p.have_.foldl (fun (ls : NumSet) e => addNum ls (e.1 / 4096)) []
  if !p.part || lines.all (fun m => (p.have_.filter (fun e => e.1 / 4096 == m)).length < p.ncontrib) then s
  else (lines.foldl (fun (t : State) m => t.foldIfWhole slot m) s).advanceRound slot p.low

/-- Carries on a reducer's slots: of results held, of slots that ask, of flits that wait, of contributions. -/
def State.runReducer (s : State) (r : Nat) : State :=
  let n := reducers s.grade
  let mine := (s.fabric.contribs.filter (fun x => x.slot % n == r)).map (fun x => x.slot)
  let s := (s.fabric.pours.filter (fun e => e.2.part && e.1 % n == r)).foldl (fun (t : State) e => t.retryFolds e.1) s
  let s := ((mine.foldl (fun (t : State) k => t.askOwn k) s).giveParts r).takeWaiting r
  mine.foldl (fun (t : State) k => t.pumpPour k (t.linesLeft k)) s

/-- Carries on the slots of a slot's reducer. -/
def State.runPours (s : State) (slot : Nat) : State := s.runReducer (slot % reducers s.grade)

/-- Every reducer goes on (USEC_TICK). -/
def State.runAllPours (s : State) : State := (List.range (reducers s.grade)).foldl (fun (t : State) r => t.runReducer r) s

/-! ## Rows -/

/-- A POUR flit reaches the reducer of its slot; where the slot has no part, it asks for one, and the flit waits (R336, log 40).
A lost reducer takes none. -/
def State.takePour (s : State) (f : Flit) : State :=
  let slot := fld f.tag 0 10
  if s.reducerLost slot then s else
  let s := if s.pourWaits f then (s.askPart slot).giveParts (slot % reducers s.grade) else s
  let s := if s.pourWaits f then { s with fabric := { s.fabric with pourWait := s.fabric.pourWait ++ [f] } } else s.takeLines f
  s.runPours slot

/-- POUR (R320, R336, R338). -/
def execPour (p : ZPort) (f : Flit) (s : State) : Answer :=
  .next (s.receive p.toNat f (fun s => s.takePour f))

/-- LACK (R321, R335): the flits that it covers are taken. -/
def execLack (p : ZPort) (f : Flit) (s : State) : Answer :=
  .next (if (s.zport p.toNat).isUp then
      (s.mapPort p.toNat (fun x =>
        match coveredBy (BitVec.ofNat 12 (fld f.aux 0 12)) x.replay with
        | some t => ({ x with replay := t, nakSeqs := x.nakSeqs.filter (fun q => t.any (fun k => k.f.seq.toNat == q))
          } : ZPortState).pump
        | none => x)).settleSent
    else s)

/-- The write of a tag and a node has been answered; where it carries a result line, the pours of its reducer go on (R336). -/
def State.answered (s : State) (tag : BitVec 12) (node : NodeId) (accepted : Bool) : State :=
  match s.fabric.writes.find? (fun w => w.tag == tag && w.node == node && !w.failed) with
  | some w => if w.gen = ownPour then (s.endLine w accepted).runPours w.core else s.endLine w accepted
  | none => s

/-- WACK (R320, R328). -/
def execWack (p : ZPort) (f : Flit) (s : State) : Answer :=
  .next (s.receive p.toNat f (fun s => s.answered f.tag f.src true))

/-- ERR (R320, R328): the target of a read or a write is absent or has failed. -/
def execErr (p : ZPort) (f : Flit) (s : State) : Answer :=
  .next (s.receive p.toNat f (fun s =>
    match s.fabric.reads.find? (fun r => r.tag == f.tag && r.node == f.src && !r.failed) with
    | some r => s.failRead r
    | none => s.answered f.tag f.src false))

/-- PCREDIT (R336): a window is granted to this module's contributions. -/
def execPcredit (p : ZPort) (f : Flit) (s : State) : Answer :=
  .next (s.receive p.toNat f (fun s =>
    let slot := fld f.tag 0 10
    let x := s.pourSlot slot
    let w := f.aux.toNat
    let s := if bit f.tag 10 == (x.cround % 2 == 1) then s.setPour slot { x with cwin := Nat.max x.cwin (w + 1) }
      else (s.setPour slot { x with cround := x.cround + 1, cwin := w + 1 }).roundOver slot (x.cround + 1)
    s.runPours slot))

/-- PNAK (R338): the contributions of the slot's round fail. -/
def execPnak (p : ZPort) (f : Flit) (s : State) : Answer :=
  .next (s.receive p.toNat f (fun s =>
    s.failContributions (fld f.tag 0 10) (pnakStatus (fld f.aux 0 8)) (fun x => (x.round % 2 == 1) == bit f.tag 10)))

/-- POUR_TIMEOUT (R338): TIMEOUT ms have passed since the round's first line. -/
def execPourTimeout (sl : PourSlot) (s : State) : Answer :=
  let k := sl.toNat
  let p := s.pourSlot k
  .next (match p.startUsec with
    | some u => if p.state == 1 && u + 1000 * p.timeout ≤ s.nemar.usec then (s.failRound k stPourTimeout 3 0).runPours k else s
    | none => s)

/-- A round of a slot is in progress here. -/
def State.pourBusy (s : State) (k : Nat) : Bool :=
  (s.pourSlot k).state == 1 || s.fabric.contribs.any (fun x => x.slot == k)

/-- The check of a slot's set (R334). -/
def State.pourCheck (s : State) (k : Nat) (q : PourSlotState) : Bool :=
  let own := q.foldNode == s.fabric.node.toNat
  q.ncontrib = 0 || 4096 < q.ncontrib || q.lines = 0 || (!bit (s.route q.foldNode) 63 && !own) || (bit q.w0 62 && !own) ||
    q.timeout = 0 || 1000 < q.timeout || q.epoch != s.fabric.layout.toNat || s.pourBusy k

/-- The absent stack of this node that a folder's DST names (R379). -/
def State.pourAbsent (s : State) (q : PourSlotState) : Option Nat :=
  if q.folds && q.dst / 2 ^ 48 = s.fabric.node.toNat then absentStackAt s.grade (q.dst % 2 ^ 48) else none

/-- POUR_SET (R334, R338, R379): the slot starts afresh, its counters kept. -/
def execPourSet (k : CmdRef) (s : State) : Answer :=
  .next (s.runCommand k 0x33 (fun c s =>
    let slot := fld (c.sub.arg 0) 0 10
    let p := s.pourSlot slot
    let q := { p with w0 := c.sub.arg 1, w1 := c.sub.arg 2, w2 := c.sub.arg 3, w3 := c.sub.arg 4 }
    if 256 * reducers s.grade ≤ slot then s.refuse k stNotPresent (r1Word 49)
    else if let some st := s.pourAbsent q then s.refuse k stNotPresent (r1Word (16 + st))
    else if s.pourCheck slot q then s.refuseCheck c { reason := rsPourCfg, detail := slot }
    else (({ s with fabric := { s.fabric with asking := s.fabric.asking.erase slot } } : State).setPour slot { q with
        state := 0, have_ := [], bad := [], written := [], out := [], startUsec := none, part := false, nodes := [], rnd := 0
        cause := 3, cround := 0, cwin := 2, begun := [] }).succeed k 0 0))

end Sys2Proof.Machine
end

