-- ==== Sys2Proof/Machine/Reshard.lean ====
section
/-! DEFINITION. Machine/Reshard.lean: re-sharding in place (R339 to R342) and the messages of the control class (R330 to
R332, R341). -/

namespace Sys2Proof.Machine

/-! ## Participants and the table -/

/-- The nodes that may take part in a re-shard with this module: those reached through a PEER port (DEDUCED, log 41). -/
def State.peerNodes (s : State) : NumSet :=
  (s.fabric.routes.filter (fun e => bit e.2 63 &&
    (s.zport (routePort e.2 0)).mode == 2)).foldl (fun t e => addNum t e.1) []

/-- The participants. -/
def State.participants (s : State) : NumSet := addNum s.peerNodes s.fabric.node.toNat

/-- The coordinator: the participant with the lowest node number. -/
def State.coordinator (s : State) : Nat := s.participants.head?.getD 0

/-- This module coordinates. -/
def State.coordinates (s : State) : Bool := s.coordinator == s.fabric.node.toNat

/-- Entry i of a re-shard table in a buffer: source, destination, length, and whether a field breaks R377. -/
def State.reshardEntry (s : State) (b : Submission) (i : Nat) : Nat × Nat × Nat × Bool :=
  let w := fun (j : Nat) => s.bufWord b (32 * i + 8 * j)
  let n := fld (w 2) 0 40
  (fld (w 0) 0 60, fld (w 1) 0 60, n,
    fld (w 0) 60 4 != 0 || fld (w 1) 60 4 != 0 || fld (w 2) 40 24 != 0 || w 3 != 0 || n = 0 || n % 128 != 0)

/-- The identity block of a caddy holds the n bytes at a local address (R327, R329). -/
def inIdentity (lo n : Nat) : Bool := 0xFFFF00000000 ≤ lo && lo + n ≤ 0xFFFF00001000

/-- A range of global addresses is absent (R327): on this module as R24 decodes it, on a caddy beyond its store and its identity
block, on another module in a range that every module reserves (R24). -/
def State.globalAbsent (s : State) (a n : Nat) : Bool :=
  let node := a / 2 ^ 48
  let lo := a % 2 ^ 48
  if 2 ^ 48 < lo + n then true
  else if node = s.fabric.node.toNat then
    (partsOf lo n).any (fun q => match s.nemarAt q.1 with
      | .mem _ => false
      | .failed => false
      | _ => true)
  else !bit (s.route node) 63 || (match s.caddyCapacity node with
    | some c => c < lo + n && !inIdentity lo n
    | none => (partsOf lo n).any (fun q => reservedThere q.1))

/-- The check of a table (R339). -/
def State.tableBad (s : State) (t : List (Nat × Nat × Nat)) : Bool :=
  t.any (fun e => e.1 % 128 != 0 || e.2.1 % 128 != 0 || s.globalAbsent e.1 e.2.2 || s.globalAbsent e.2.1 e.2.2 ||
    t.any (fun d => d.2.1 < e.1 + e.2.2 && e.1 < d.2.1 + d.2.2))

/-! ## The sequence of R341 -/

/-- A message is owed to a node that cannot be reached. -/
def State.owe (s : State) (n : Nat) (m : CtrlMsg) : State :=
  { s with fabric := { s.fabric with owed := s.fabric.owed ++ [(n, m.payload)] } }

/-- The message ends a re-shard. -/
def CtrlMsg.ends : CtrlMsg → Bool
  | .commit _ => true
  | .abandon _ => true
  | .failed _ => true
  | _ => false

/-- Sends a message to every other participant; one that cannot be reached gets the end of the re-shard when its link
returns, since every participant completes RESHARD (R342). -/
def State.tellAll (s : State) (m : CtrlMsg) : State :=
  s.peerNodes.foldl (fun (t : State) n =>
    match t.sendFlit n 0 kindCtrl { Flit.zero with cls := 1, data := BitVec.ofNat 2048 m.payload } with
    | some u => u
    | none => if m.ends then t.owe n m else t) s

/-- Changes the re-shard in progress. -/
def State.setReshard (s : State) (x : Option Reshard) : State := { s with fabric := { s.fabric with reshard := x } }

/-- The lines that an owner has sent are awaited no longer: their answers are discarded. -/
def State.dropFar (s : State) (gen : Nat) (hit : Nat → Bool) : State :=
  { s with fabric := { s.fabric with
    reads := s.fabric.reads.filter (fun r => !(r.gen == gen && hit r.core))
    writes := s.fabric.writes.filter (fun w => !(w.gen == gen && hit w.core)) } }

/-- The re-shard ends without a commit: RESHARD completes with a status; epoch and layout stand. -/
def State.dropReshard (s : State) (status : Code) : State :=
  match s.fabric.reshard with
  | none => s
  | some x => ((s.setReshard none).dropFar ownReshard (fun _ => true)).finish x.ref status 0 0

/-- The contents of a table's destinations are undefined (R342). -/
def State.undefineTable (s : State) (t : List (Nat × Nat × Nat)) : State :=
  t.foldl (fun (u : State) e => u.undefineRange e.2.1 e.2.2) s

/-- RESHARD_FAIL, between steps 4 and 7 (R342): the coordinator tells every participant. -/
def State.failReshard (s : State) (tell : Bool) : State :=
  match s.fabric.reshard with
  | none => s
  | some x =>
    let s := if !tell then s
      else if s.coordinates then s.tellAll (.failed x.epoch.toNat)
      else s.sendCtrl s.coordinator (.failed x.epoch.toNat)
    (s.undefineTable x.table).dropReshard stReshardFail

/-- Step 7. -/
def State.commitReshard (s : State) : State :=
  match s.fabric.reshard with
  | none => s
  | some x =>
    let old := s.fabric.layout.toNat
    let pours := s.fabric.pours.map (fun (e : Nat × PourSlotState) =>
      (e.1, if e.2.epoch = old then { e.2 with w0 := setFld e.2.w0 63 1 0 } else e.2))
    let s := { s with fabric := { s.fabric with layout := x.epoch, pours := pours, reshard := none } }
    s.succeed x.ref (BitVec.ofNat 64 x.table.length) 0

/-- Step 6: with every participant's copies confirmed the coordinator sends COMMIT. -/
def State.tryCommit (s : State) : State :=
  match s.fabric.reshard with
  | none => s
  | some x =>
    if s.coordinates && x.copying && s.participants.all x.done.contains then
      (s.tellAll (.commit x.epoch.toNat)).commitReshard
    else s

/-- Step 5 begins: COPY has come; an empty table cannot be. -/
def State.startCopies (s : State) : State :=
  match s.fabric.reshard with
  | none => s
  | some x => s.setReshard (some { x with copying := true })

/-- Step 4: with every report the coordinator sends COPY. -/
def State.tryCopy (s : State) : State :=
  match s.fabric.reshard with
  | none => s
  | some x =>
    if s.coordinates && !x.copying && s.participants.all x.drained.contains then
      (s.tellAll (.copy x.epoch.toNat)).startCopies
    else s

/-- The coordinator takes a report of step 3. -/
def State.takeDrained (s : State) (n : Nat) : State :=
  match s.fabric.reshard with
  | none => s
  | some x => if s.coordinates then (s.setReshard (some { x with drained := addNum x.drained n })).tryCopy else s

/-- A report of step 3 that comes before this module's own RESHARD is kept for it (R341). -/
def State.keepDrained (s : State) (n e : Nat) : State :=
  { s with fabric := { s.fabric with early := s.fabric.early ++ [(n, e)] } }

/-- The reports kept for the re-shard that starts. -/
def State.takeEarly (s : State) (e : Nat) : State :=
  let xs := s.fabric.early
  (xs.filter (fun x => x.2 == e)).foldl (fun (t : State) x => t.takeDrained x.1)
    { s with fabric := { s.fabric with early := [] } }

/-- Every round of the old epoch that this module contributes to or folds is over. -/
def State.poursDrained (s : State) : Bool :=
  let old := fun (k : Nat) => (s.pourSlot k).epoch == s.fabric.layout.toNat
  s.fabric.pours.all (fun e => !(old e.1 && e.2.state == 1)) && s.fabric.contribs.all (fun x => !old x.slot)

/-- Step 3: this module reports drained, once. -/
def State.reportDrained (s : State) : State :=
  match s.fabric.reshard with
  | none => s
  | some x =>
    if x.reported || !s.poursDrained then s
    else
      let s := s.setReshard (some { x with reported := true })
      if s.coordinates then s.takeDrained s.fabric.node.toNat else s.sendCtrl s.coordinator (.drained x.epoch.toNat)

/-! ## Copies of the movers that reach other nodes (R207, R326, R341, R408): each SHARD_COPY_COMPLETE takes a copy on, and it waits
while lines it has sent are not answered -/

/-- How far a mover's copy has come. -/
inductive FarEnd where
  | waits (job : FarCopy)
  | failed
  | done (bytes : List Byte)
  deriving DecidableEq, Repr

/-- The lines of other nodes that a range of global addresses touches. -/
def State.globalLines (s : State) (a n : Nat) : List (Nat × Nat) :=
  fabricLines ((partsOf a n).filterMap (fun q => match s.globalAt q.1 with
    | .mem k => if 2 ^ 60 ≤ k then some (k, q.2) else none
    | _ => none))

/-- Sends the next lines of a copy: READs, or WRITEs once its destination is written here. -/
def State.sendFar (s : State) (own : FarOwner) (j : FarCopy) : FarEnd × State :=
  let now := j.lines.take fabricBatch
  (.waits { j with lines := j.lines.drop fabricBatch },
    if j.written then s.sendWrites own.core own.gen own.tile 0 now else s.sendReads own.core own.gen now)

/-- The end of a copy's writes: its last line is read back from another node (R207). -/
def State.endFar (s : State) (own : FarOwner) (j : FarCopy) (dst n : Nat) : FarEnd × State :=
  match (s.globalLines dst n).reverse with
  | x :: _ => if j.back then (.done j.bytes, s)
    else (.waits { j with back := true }, s.sendReads own.core own.gen [x])
  | [] => (.done j.bytes, s)

/-- Takes a copy of n bytes on. Every line of its source is here before a byte moves; a source that fails, one with a marked line
where `whole` asks for clean data, or a refused write fails it. -/
def State.farCopy (s : State) (own : FarOwner) (job : Option FarCopy) (src dst n : Nat) (whole : Bool) : FarEnd × State :=
  let j := job.getD { lines := s.globalLines src n }
  if s.onFabric own.core own.gen then (.waits j, s)
  else
    let rs := s.readsOf own.core own.gen
    let ws := s.writesOf own.core own.gen
    if !rs.isEmpty || !ws.isEmpty then (.failed, (s.dropReads rs).dropWrites ws)
    else if !j.lines.isEmpty then s.sendFar own j
    else if j.written then s.endFar own j dst n
    else
      let r := s.globalRead src n
      if r.2 || (whole && anyBad r.1) then (.failed, s)
      else match s.globalWrite dst r.1 true ⟨own.core, ownUnsent, own.tile⟩ with
      | (.done, s) =>
        let j : FarCopy := { lines := s.globalLines dst n, written := true, bytes := r.1.map Prod.fst }
        if j.lines.isEmpty then s.endFar own j dst n else s.sendFar own j
      | (_, s) => (.failed, s)

/-- The coordinator takes a report of step 5. -/
def State.takeCopied (s : State) (n : Nat) : State :=
  match s.fabric.reshard with
  | none => s
  | some x => if s.coordinates then (s.setReshard (some { x with done := addNum x.done n })).tryCommit else s

/-- Entry i is copied, with its marks (step 5); one that other nodes answer waits for them; the last one is reported. -/
def State.copyEntry (s : State) (i : Nat) : State :=
  match s.fabric.reshard with
  | none => s
  | some x =>
    match x.table[i]? with
    | none => s
    | some e =>
      if !x.copying || x.copied.contains i || s.globalHas 55 e.2.1 e.2.2 then s
      else if s.globalHas 56 e.2.1 e.2.2 then s.failReshard true
      else match s.farCopy ⟨i, ownReshard, 0⟩ (find? x.jobs i) e.1 e.2.1 e.2.2 false with
      | (.waits j, s) => s.setReshard (some { x with jobs := put x.jobs i j })
      | (.failed, s) => s.failReshard true
      | (.done _, s) =>
        let done := addNum x.copied i
        let s := s.setReshard (some { x with copied := done, jobs := drop x.jobs i })
        if done.length < x.table.length then s
        else if s.coordinates then s.takeCopied s.fabric.node.toNat
        else s.sendCtrl s.coordinator (.copied x.epoch.toNat)

/-- RESHARD (R339 to R341, R377). -/
def execReshard (k : CmdRef) (s : State) : Answer :=
  .next (s.runCommand k 0x34 (fun c s =>
    let es := (List.range (c.sub.bufLen.toNat / 32)).map (s.reshardEntry c.sub)
    let t := es.map (fun e => (e.1, e.2.1, e.2.2.1))
    match es.findIdx? (fun e => e.2.2.2) with
    | some i => s.refuse k stBadField (r1Entry i)
    | none =>
      if s.fabric.reshard.isSome then s.refuse k stReshardBusy 0
      else if s.tableBad t then s.refuseCheck c { reason := rsReshardTable }
      else
        let x : Reshard := { ref := k, epoch := BitVec.ofNat 16 (c.sub.arg 0).toNat, table := t,
                             drainMs := fld (c.sub.arg 1) 0 10, startUsec := s.nemar.usec }
        (((s.ack k).setReshard (some x)).takeEarly x.epoch.toNat).reportDrained))

/-- DRAINED (R341): a report of a participant; one before this module's own RESHARD is of the epoch that follows its own. -/
def execDrained (n : NodeId) (s : State) : Answer :=
  .next (if s.fabric.reshard.isNone then s.keepDrained n.toNat (s.fabric.layout + 1).toNat else s.takeDrained n.toNat)

/-- COPY (R341). -/
def execCopy (s : State) : Answer :=
  .next (match s.fabric.reshard with
    | none => s
    | some x => if x.reported then s.startCopies else s)

/-- Every entry is copied here, so that a COMMIT may come. -/
def Reshard.ready (x : Reshard) : Bool := x.copying && x.table.length ≤ x.copied.length

/-- COMMIT (R341). -/
def execCommit (s : State) : Answer :=
  .next (match s.fabric.reshard with
    | none => s
    | some x => if x.ready then s.commitReshard else s)

/-- ABANDON (R342): nothing has been copied. -/
def State.abandonReshard (s : State) : State :=
  match s.fabric.reshard with
  | none => s
  | some x => if x.copying then s else s.dropReshard stReshardBusy

/-- ABANDON (R342). -/
def execAbandon (s : State) : Answer := .next s.abandonReshard

/-- RESHARD_DRAIN_TIMEOUT (R342): the coordinator abandons the re-shard. -/
def execReshardDrainTimeout (s : State) : Answer :=
  .next (match s.fabric.reshard with
    | none => s
    | some x =>
      if s.coordinates && !x.copying && x.startUsec + 1000 * x.drainMs ≤ s.nemar.usec then
        (s.tellAll (.abandon x.epoch.toNat)).abandonReshard
      else s)

/-- A participant has become unreachable between steps 4 and 7: RESHARD_FAIL, unless this module waits only for a COMMIT,
which is sent again when the link returns (R342). -/
def State.checkReshard (s : State) : State :=
  match s.fabric.reshard with
  | none => s
  | some x =>
    if !x.copying then s
    else if s.coordinates then (if s.peerNodes.all s.nodeUp then s else s.failReshard true)
    else if x.ready || s.nodeUp s.coordinator then s else s.failReshard false

/-- Sends the messages owed to nodes that can be reached again (R342). -/
def State.sendOwed (s : State) : State :=
  let owed := s.fabric.owed
  let s := { s with fabric := { s.fabric with owed := owed.filter (fun e => !s.nodeUp e.1) } }
  (owed.filter (fun e => s.nodeUp e.1)).foldl (fun (t : State) e =>
    (t.sendFlit e.1 0 kindCtrl { Flit.zero with cls := 1, data := BitVec.ofNat 2048 e.2 }).getD t) s

/-! ## CTRL (R330 to R332, R341) -/

/-- A message is of the re-shard in progress. -/
def State.ofEpoch (s : State) (e : Nat) : Bool :=
  match s.fabric.reshard with
  | some x => x.epoch.toNat == e
  | none => false

/-- An arrival of a child (R331); at a barrier that is not enabled it is answered with the failure (DEDUCED, log 42). -/
def State.childArrival (s : State) (b gen node : Nat) : State :=
  let j := b - 240
  let m := s.modBar j
  if b < 240 || !m.en || !m.onFabric then s.sendCtrl node (.fail b)
  else
    (s.setModBar j { m with childArr := put m.childArr gen (addNum (look m.childArr gen []) node)
                            kids := addNum m.kids node }).completeModule b gen

/-- A release from the parent (R331). -/
def State.parentRelease (s : State) (b gen : Nat) : State :=
  if b < 240 || !(s.modBar (b - 240)).en then s else s.releaseModule b gen

/-- A message of the control class takes effect. -/
def State.takeCtrl (s : State) (node : Nat) : CtrlMsg → State
  | .arrival b gen => s.childArrival b gen node
  | .release b gen => s.parentRelease b gen
  | .fail b => if b < 240 then s else s.failBarrier b (some node)
  | .drained e => if s.fabric.reshard.isNone then s.keepDrained node e else if s.ofEpoch e then s.takeDrained node else s
  | .copy e => if s.ofEpoch e then s.startCopies else s
  | .copied e => if s.ofEpoch e then s.takeCopied node else s
  | .commit e =>
    (match s.fabric.reshard with
    | some x => if s.ofEpoch e && x.ready then s.commitReshard else s
    | none => s)
  | .abandon e => if s.ofEpoch e then s.abandonReshard else s
  | .failed e => if s.ofEpoch e then s.failReshard s.coordinates else s

/-- CTRL (R320, R330 to R332, R341). -/
def execCtrl (p : ZPort) (f : Flit) (s : State) : Answer :=
  .next (s.receive p.toNat f (fun s =>
    match CtrlMsg.read f.data with
    | some m => s.takeCtrl f.src.toNat m
    | none => s))

end Sys2Proof.Machine
end

