-- ==== Sys2Proof/Machine/ZPorts.lean ====
section
/-! DEFINITION. Machine/ZPorts.lean: the states of the Zoinnath ports (R321 to R326), the link equalisation loop (R322) and
FABRIC_SET (R323, R324, R376). -/

namespace Sys2Proof.Machine

/-! ## A port that goes down (R326) -/

/-- Sets a port's state and lanes, and logs the change (R326, R392). -/
def State.portState (s : State) (p : Nat) (st : ZState) (lanes : BitVec 8) : State :=
  let old := s.zport p
  let x := { old with state := st, lanes := lanes }
  let s := s.setZport p x
  if x.stat = old.stat then s
  else s.logEvent { code := rcPortState, srcKind := 5, srcId := p } x.stat old.stat 0 0

/-- A message of the control class that is lost ends as one to an unreachable node (R326): its barrier fails (R332), a
re-shard past step 4 fails, the end of a re-shard is owed (R342). -/
def State.loseCtrl (s : State) (node : Nat) : CtrlMsg → State
  | .arrival b _ => if b < 240 then s else s.failBarrier b none
  | .release b _ => if b < 240 then s else s.failBarrier b none
  | .fail _ => s
  | .drained _ => s
  | .copy e => if s.ofEpoch e then s.failReshard true else s
  | .copied e => if s.ofEpoch e then s.failReshard true else s
  | .commit e => s.owe node (.commit e)
  | .abandon e => s.owe node (.abandon e)
  | .failed e => s.owe node (.failed e)

/-- A flit that is lost with its port ends as a transfer to an unreachable node (R326): its read or write has failed, the
contribution of a POUR flit fails (R338). -/
def State.loseKFlit (s : State) (k : KFlit) : State :=
  let r := s.fabric.reads.find? (fun r => r.tag == k.f.tag && r.node == k.f.dst)
  if k.kind = kindRead then (match r with
    | some r => s.failRead r
    | none => s)
  else if k.kind = kindWrite then s.endWrite k.f.tag k.f.dst false
  else if k.kind = kindPour then
    s.failContributions (fld k.f.tag 0 10) stPourTimeout.toNat
      (fun x => x.kappa == fld k.f.aux 0 12 && (x.round % 2 == 1) == bit k.f.tag 10)
  else if k.kind = kindCtrl then (match CtrlMsg.read k.f.data with
    | some m => s.loseCtrl k.f.dst.toNat m
    | none => s)
  else s

/-- Ends the transfers to nodes that can no longer be reached: reads, writes, pours and barriers (R326, R332, R338,
R342). -/
def State.sweepUnreachable (s : State) : State :=
  let s := (s.fabric.reads.filter (fun r => !r.failed && !s.nodeUp r.node.toNat)).foldl (fun (t : State) r => t.failRead r) s
  let s := (s.fabric.writes.filter (fun w => !w.failed && !s.nodeUp w.node.toNat)).foldl
    (fun (t : State) w => t.endWrite w.tag w.node false) s
  let lost := s.fabric.contribs.filter (fun x =>
    let p := s.pourSlot x.slot
    !p.folds && !s.nodeUp p.foldNode)
  let s := lost.foldl (fun (t : State) x => t.failContribution x stPourTimeout.toNat) s
  let s := (List.range 16).foldl (fun (t : State) j =>
    let m := t.modBar j
    if m.en && m.onFabric && ((!m.isRoot && !t.nodeUp m.parent) || m.kids.any (fun n => !t.nodeUp n)) then
      t.failBarrier (240 + j) none
    else t) s
  s.checkReshard

/-- A port's link starts afresh: numbers, credits and errors in hand. -/
def ZPortState.relinked (p : ZPortState) : ZPortState :=
  { p with credits := 0, failedSeqs := [], nakSeqs := [], held := false, fresh := false, txSeq := 0, rxSeq := 0 }

/-- A port goes DOWN, or is mismatched: the flits it held are lost. -/
def State.emptyPort (s : State) (p : Nat) (st : ZState) : State :=
  let x := s.zport p
  let s := s.setZport p { x.relinked with replay := [], tx := [] }
  let s := (x.replay ++ x.tx).foldl (fun (t : State) k => t.loseKFlit k) s
  (s.portState p st 0).sweepUnreachable

/-- A port goes DOWN. -/
def State.portDown (s : State) (p : Nat) : State := s.emptyPort p .down

/-- The lanes a port comes up on: eight, four (one half whole), or none. -/
def goodLanes (l : BitVec 8) : Option (ZState × BitVec 8) :=
  if l = 0xFF then some (.up8, 0xFF)
  else if l &&& 0x0F = 0x0F then some (.up4, 0x0F)
  else if l &&& 0xF0 = 0xF0 then some (.up4, 0xF0)
  else none

/-! ## FABRIC_SET (R323, R324, R376) -/

/-- The ports that are UP, as a mask. -/
def State.upMask (s : State) : Word :=
  BitVec.ofNat 64 ((List.range 32).foldl (fun m p => if (s.zport p).isUp then m + 2 ^ p else m) 0)

/-- FABRIC_SET completes once no port with MODE other than OFF is TRAINING. -/
def State.settleFabric (s : State) : State :=
  match s.fabric.fabricCmd with
  | none => s
  | some (k, _) =>
    if (List.range 32).any (fun p => (s.zport p).mode != 0 && (s.zport p).state == .training) then s
    else ({ s with fabric := { s.fabric with fabricCmd := none } } : State).succeed k s.upMask 0

/-- The fabric set a buffer holds: port words, node, route words that are not zero. -/
structure FabricSet where
  ports : List Word
  node : Nat
  routes : Table Word
  deriving DecidableEq, Repr

/-- Bits of ZL_PORT_CFG and of MOD_ZL_ROUTE that are fields. -/
def portMask : Word := 0x000000031F000FFF
/-- Fields of MOD_ZL_ROUTE. -/
def routeMask : Word := 0x830000001F1F1F1F

/-- Reads the set; reserved bits are dropped. -/
def State.readFabric (s : State) (b : Submission) : FabricSet :=
  { ports := (List.range 32).map (fun p => s.bufWord b (8 * p) &&& portMask)
    node := fld (s.bufWord b 256) 0 12
    routes := ((List.range 4096).map (fun n => (n, s.bufWord b (264 + 8 * n) &&& routeMask))).filter (fun e => e.2 != 0) }

/-- The check of R324: the detail of a refusal, which is the port concerned, or 0 where none is (R368). COUNT = 3 is refused
in an entry that is not valid too; only a valid entry names ports (DEDUCED, log 130). -/
def FabricSet.bad (x : FabricSet) : Option Nat :=
  let mode := fun (p : Nat) => fld (x.ports.getD p 0) 32 2
  match (List.range 32).find? (fun p => mode p == 3) with
  | some p => some p
  | none =>
    if x.routes.any (fun e => fld e.2 56 2 == 3 || (bit e.2 63 && e.1 == x.node)) then some 0
    else ((x.routes.filter (fun e => bit e.2 63)).flatMap (fun e =>
      (List.range (routeCount e.2)).map (fun k => routePort e.2 k))).find? (fun p => mode p == 0)

/-- A port's flits wait while it trains for its new configuration; they take new numbers then (R376; DEDUCED, log 131). -/
def ZPortState.holdAll (p : ZPortState) : ZPortState := { p.relinked with replay := [], tx := p.replay ++ p.tx, fresh := true }

/-- A port takes its committed configuration: one that changes trains, with its traffic held; one that is not UP trains; an
OFF one is DOWN. A port to a caddy keeps READ and WRITE flits alone: what it held beside them is lost (R328). -/
def State.commitPort (s : State) (p : Nat) (w : Word) : State :=
  let old := s.zport p
  if old.cfg = w && (old.isUp || old.held || old.fresh) then s
  else
    let s := s.mapPort p (fun x => { x with cfg := w, ident0 := if old.cfg = w then x.ident0 else 0
                                            ident1 := if old.cfg = w then x.ident1 else 0 })
    if fld w 32 2 = 0 || (s.plant.edgeLost[p / 8]?).getD false then s.emptyPort p .down
    else if old.cfg = w then s.emptyPort p .training
    else
      let x := s.zport p
      let goes := fun (k : KFlit) => fld w 32 2 != 1 || k.kind == kindRead || k.kind == kindWrite
      let lost := (x.replay ++ x.tx).filter (fun k => !goes k)
      let s := (s.setZport p { x.holdAll with tx := x.holdAll.tx.filter goes }).portState p .training 0
      lost.foldl (fun (t : State) k => t.loseKFlit k) s

/-- FABRIC_SET (R323, R324, R366, R376, R380). One that meets another still in progress is refused. -/
def execFabricSet (k : CmdRef) (s : State) : Answer :=
  .next (s.runCommand k 0x30 (fun c s =>
    let x := s.readFabric c.sub
    if s.fabric.fabricCmd.isSome then s.refuse k stRegionBusy 0
    else match x.bad with
    | some d => s.refuseCheck c { reason := rsPortCfg, detail := d }
    | none =>
      let s := s.ack k
      let s := { s with fabric := { s.fabric with
          node := BitVec.ofNat 12 x.node, routes := x.routes, fabricCmd := some (k, s.nemar.usec) } }
      let s := (x.ports.zipIdx).foldl (fun (t : State) e => t.commitPort e.2 e.1) s
      s.sweepUnreachable.settleFabric))

/-- FABRIC_TRAINING_TIMEOUT (R376): 500 ms have passed since the commit. -/
def execFabricTrainingTimeout (s : State) : Answer :=
  .next (match s.fabric.fabricCmd with
    | none => s
    | some (k, u) =>
      if u + 500000 ≤ s.nemar.usec then
        ({ s with fabric := { s.fabric with fabricCmd := none } } : State).succeed k s.upMask 0
      else s)

/-! ## Training (R321, R323, R328, R329, R342) -/

/-- A port has come up from training: it grants 64 flit buffers, and what waited for its link goes out. -/
def State.portUp (s : State) (p : Nat) (st : ZState) (lanes : BitVec 8) : State :=
  let up := fun (x : ZPortState) => { x with fresh := false, presets := s.calRun 3 (8 * p) 8 }
  ((s.mapPort p (fun x => (up x).sendLink kindLcredit 64)).portState p st lanes).sendOwed

/-- ZL_PORT_UP (R321, R323, R329): training ends UP, in MISMATCH, or DOWN. -/
def execZlPortUp (p : ZPort) (t : PortTraining) (s : State) : Answer :=
  let n := p.toNat
  let x := s.zport n
  .next (if x.state != .training || x.held then s
    else match goodLanes t.lanesGood with
    | none => (s.portDown n).settleFabric
    | some (st, lanes) =>
      if t.node.toNat != x.farNode || t.rport.toNat != x.farPort then (s.emptyPort n .mismatch).settleFabric
      else
        let s := if x.mode = 1 && x.ident1 = 0 then s.setZport n { x with ident0 := t.ident0, ident1 := t.ident1 } else s
        (s.portUp n st lanes).settleFabric)

/-- PORT_RETRAIN (R321): a port that holds its traffic comes up again with every flit kept, or goes DOWN. -/
def execPortRetrain (p : ZPort) (lanesGood : BitVec 8) (s : State) : Answer :=
  let n := p.toNat
  let x := s.zport n
  .next (if x.state != .training || !x.held then s
    else
      let s := s.setZport n { x with retrain := BitVec.ofNat 16 (satInc 16 x.retrain.toNat) }
      match goodLanes lanesGood with
      | none => (s.portDown n).settleFabric
      | some (st, lanes) =>
        let s := (s.mapPort n (fun x => { x with
          held := false, failedSeqs := [], nakSeqs := [], presets := s.calRun 3 (8 * n) 8 })).portState n st lanes
        (s.mapPort n ZPortState.pump).settleFabric)

/-! ## Link equalisation (R52, R54, R59, R322) -/

/-- EQ_LOOP_EVAL (R322): lane `lane` needs its taps `dev` steps from the preset to meet its error target. Past MAXDEV it
returns to the preset and POLICY_CONFLICT is raised, once; ten evaluations within MAXDEV clear it. -/
def execEqLoopEval (p : ZPort) (lane : BitVec 3) (dev : BitVec 8) (s : State) : Answer :=
  let n := p.toNat
  let k := lane.toNat
  let x := s.zport n
  .next (if !x.isUp || !bit x.lanes k then s
    else if fld ((s.fabric.eqBounds[n / 8]?).getD 0) 12 4 < dev.toNat then
      let s := s.setZport n { x with dev := put x.dev k 0, conflict := addNum x.conflict k, eqQuiet := put x.eqQuiet k 0 }
      if x.conflict.contains k then s
      else s.logEvent { code := rcPolicyConflict, srcKind := 9, srcId := 0 } 3 (BitVec.ofNat 64 (8 * n + k)) 0x0A 0x0B
    else
      let q := Nat.min 10 (look x.eqQuiet k 0 + 1)
      s.setZport n { x with dev := put x.dev k dev.toNat, eqQuiet := put x.eqQuiet k q
                            conflict := if 10 ≤ q then dropNum x.conflict k else x.conflict })

end Sys2Proof.Machine
end

