-- ==== Sys2Proof/Machine/Power.lean ====
section
/-! DEFINITION. Machine/Power.lean: quadrant rails and sensors, the safety limits, the rate and thermal loops with their bound
set (R36, R38, R44 to R59, R380), stacks and coolant (R457 to R459), and the ticks of the module's time base (R49, R362). -/

namespace Sys2Proof.Machine

/-! ## Quadrants -/

/-- RMIN (R57). -/
def Quadrant.rmin (q : Quadrant) : Nat := fld q.rateBounds 0 8
/-- RMAX. -/
def Quadrant.rmax (q : Quadrant) : Nat := fld q.rateBounds 8 8
/-- VMAX. -/
def Quadrant.vmax (q : Quadrant) : Nat := fld q.rateBounds 16 10
/-- TLO. -/
def Quadrant.tlo (q : Quadrant) : Nat := fld q.thermBounds 0 8
/-- THI. -/
def Quadrant.thi (q : Quadrant) : Nat := fld q.thermBounds 8 8

/-- The effective RMAX (R56). -/
def Quadrant.effMax (q : Quadrant) : Nat := q.rmax * q.effRmax / 100

/-- TJ (R58). -/
def Quadrant.tjOf (q : Quadrant) : Nat := (max 0 (min 255 (q.hot / 100))).toNat

/-- The quadrants whose rails are up. -/
def State.liveQuads (s : State) : List Nat := (List.range 64).filter s.liveQuad

/-- Column of a quadrant on the module's 8 × 8 grid of quadrants. -/
def quadX (q : Nat) : Nat := q / 4 % 4 * 2 + q % 2
/-- Row of a quadrant on the grid. -/
def quadY (q : Nat) : Nat := q / 16 * 2 + q % 4 / 2

/-- Two quadrants share a boundary, within a die or across a die boundary (R36). -/
def quadsTouch (a b : Nat) : Bool :=
  (quadX a == quadX b && (quadY a == quadY b + 1 || quadY b == quadY a + 1)) ||
    (quadY a == quadY b && (quadX a == quadX b + 1 || quadX b == quadX a + 1))

/-- The rails that R36 joins: those of live quadrants, and a fused die's that run at the floor for its routers (R451). -/
def State.rails (s : State) : List Nat := (List.range 64).filter (fun q => (s.quad q).powered)

/-- The highest rail R36 allows a quadrant beside its neighbours. -/
def State.railBound (s : State) (q : Nat) : Nat :=
  (s.rails.filter (quadsTouch q)).foldl (fun m k => Nat.min m ((s.quad k).vrail + 150)) 850

/-- Lowers every rail that lies more than 150 mV above an adjacent one, outward (R36). Rails span 300 mV, so three rounds
reach every rail. -/
def State.relaxRails (s : State) : State :=
  (List.range 3).foldl (fun (t : State) _ =>
    t.liveQuads.foldl (fun (u : State) q =>
      let x := u.quad q
      if u.railBound q < x.vrail then u.setQuad q { x with vrail := u.railBound q } else u) t) s

/-- Lowers a rail by so many mV, not below the 0.55 V floor (R44). -/
def Quadrant.lower (q : Quadrant) (mv : Nat) : Quadrant :=
  if q.vrail ≤ 550 then q else { q with vrail := Nat.max 550 (q.vrail - mv) }

/-- Applies a function to every quadrant whose rail is up. -/
def State.mapLive (s : State) (f : Quadrant → Quadrant) : State :=
  s.liveQuads.foldl (fun (t : State) q => t.setQuad q (f (t.quad q))) s

/-! ## Calibrated rates (R44, R434) -/

/-- The rails and junction temperatures of R44's points. -/
def calRails : List Nat := [550, 600, 650, 720, 780, 850]
/-- In 0.01 °C. -/
def calTemps : List Nat := [4000, 7000, 9500]

/-- The calibrated rate of a quadrant at a point of R44, in Mbeat/s: voltage row and temperature column. -/
def State.calPoint (s : State) (q row col : Nat) : Nat := fld (s.calValue 1 (18 * q + 3 * row + col)) 0 16

/-- Between two values, linearly: n parts of d from a toward b. -/
def between (a b : Nat) (n d : Nat) : Int := (a : Int) + ((b : Int) - a) * n / d

/-- The calibrated rate at a rail and a junction temperature (0.01 °C) within the table, linear in both (R44). -/
def State.calRate (s : State) (q mv t : Nat) : Int :=
  let r := Nat.min ((calRails.filter (fun v => v ≤ mv)).length - 1) 4
  let c := Nat.min ((calTemps.filter (fun v => v ≤ t)).length - 1) 1
  let v0 := calRails.getD r 550
  let v1 := calRails.getD (r + 1) 850
  let t0 := calTemps.getD c 4000
  let t1 := calTemps.getD (c + 1) 9500
  let at_ := fun (col : Nat) => (between (s.calPoint q r col) (s.calPoint q (r + 1) col) (mv - v0) (v1 - v0)).toNat
  between (at_ c) (at_ (c + 1)) (t - t0) (t1 - t0)

/-- The calibrated point of a rate (R421): the highest rail of R44 at which the quadrant's calibrated rate at 70 °C is not above
it, the floor where none is. The manual names no junction temperature for the point: 70 °C is a DESIGN CHOICE (log 141). -/
def State.calRail (s : State) (q mbeat : Nat) : Nat :=
  ((rangeFrom 550 301).filter (fun mv => s.calRate q mv 7000 ≤ (mbeat : Int))).getLastD 550

/-- By how many Mbeat/s the calibrated rate rises with a rail's next 5 mV at the quadrant's junction; R44 gives none below 40 °C
or above 95 °C, where the loop acts on the measured rate alone. -/
def State.nextRise (s : State) (q : Nat) : Nat :=
  let x := s.quad q
  if x.hot < 4000 || 9500 < x.hot then 0
  else (s.calRate q (Nat.min 850 (x.vrail + 5)) x.hot.toNat - s.calRate q x.vrail x.hot.toNat).toNat

/-- A sensor's calibrated reading. -/
def State.calibrated (s : State) (q i : Nat) (t : BitVec 16) : BitVec 16 :=
  BitVec.ofInt 16 (max (-32768) (min 32767 (t.toInt + toSigned 16 (fld (s.calValue 2 (4 * q + i)) 0 16))))

/-! ## Sensors (R38, R56, R456 to R459) -/

/-- RATE_SENSOR_COMPARE (R38). -/
def execRateSensorCompare (q : QuadId) (rate : BitVec 8) (s : State) : Answer :=
  .next (if s.liveQuad q.toNat then s.setQuad q.toNat { s.quad q.toNat with rate := rate.toNat } else s)

/-- The rail current at or above which R56 acts (R453). -/
def Quadrant.currentLimit (q : Quadrant) : Nat := Nat.min 950 (40 * q.phases)

/-- A quadrant's sensors are refreshed, and the safety limits of R56 set or cleared. -/
def State.sampleQuad (s : State) (x : QuadSample) : State :=
  let q := x.q.toNat
  if !quadExists s.grade q then s
  else
    let v := { s.quad q with
      temps := #v[s.calibrated q 0 x.t0, s.calibrated q 1 x.t1, s.calibrated q 2 x.t2, s.calibrated q 3 x.t3]
      irail := x.irail }
    let live := s.liveQuad q
    s.setQuad q { v with
      tj := if v.ebbed then 0 else v.tjOf
      safetyTemp := live && (10500 ≤ v.hot || (v.safetyTemp && 10000 < v.hot))
      safetyCur := live && v.currentLimit ≤ v.irail.toNat }

/-- One sample period of the safety limits: the slew of R46 toward 0.55 V for temperature, 10 mV for current (R56). -/
def Quadrant.safety (q : Quadrant) : Quadrant :=
  if q.safetyTemp then q.lower 100 else if q.safetyCur then q.lower 10 else q

/-- A stack's temperature (R457): half rate above 95 °C until at or below 90 °C, failed above 105 °C. -/
def State.stackTemp (s : State) (k : Nat) (t : BitVec 16) : State :=
  if !stackExists s.grade k then s
  else
    let x := look s.plant.dram k ({} : Stack)
    { s with plant := { s.plant with dram := put s.plant.dram k { x with
        temp := t, hot := 9500 < t.toInt || (x.hot && 9000 < t.toInt), failed := x.failed || 10500 < t.toInt } } }

/-- The coolant readings and their alarms (R458, R459). -/
def State.coolant (s : State) (r : CoolReadings) : State :=
  let out := fun (x lo hi y lim : Nat) => x < lo || hi < x || lim < y
  { s with plant := { s.plant with
      cool := r
      dieAlarm := out r.dieIn.toNat 20 40 r.dieOut.toNat 55
      pwrAlarm := out r.pwrIn.toNat 20 45 r.pwrOut.toNat 60 } }

/-- ALERT (R404, R459). -/
def State.alert (s : State) : Bool := s.plant.alertHalt || s.plant.dieAlarm || s.plant.pwrAlarm

/-- The input readings (R458); at 700 A or more every quadrant's effective RMAX falls by 1 % (R56). -/
def State.inputSample (s : State) (r : SensorReadings) : State :=
  let s := { s with plant := { s.plant with
      pin := r.pin, iin := r.iin, vin := r.vin, inputLimit := decide (7000 ≤ r.iin.toNat) } }
  if s.plant.inputLimit then s.mapLive (fun q => { q with effRmax := q.effRmax - 1 }) else s

/-- SENSOR_SAMPLE (R56, R456, R458): one sample period of 10 µs. -/
def execSensorSample (r : SensorReadings) (s : State) : Answer :=
  .next (if !s.plant.powerGood then s
    else
      let s := r.quads.foldl (fun (t : State) x => t.sampleQuad x) s
      let s := r.dram.foldl (fun (t : State) x => t.stackTemp x.1.toNat x.2) s
      ((s.inputSample r).coolant r.cool).mapLive Quadrant.safety |>.relaxRails)

/-- STACK_OVERHEAT (R457). -/
def execStackOverheat (k : StackId) (temp : BitVec 16) (s : State) : Answer :=
  .next (if s.plant.powerGood then s.stackTemp k.toNat temp else s)

/-- COOLANT_ALARM (R459). -/
def execCoolantAlarm (r : CoolReadings) (s : State) : Answer :=
  .next (if s.plant.powerGood then s.coolant r else s)

/-! ## The rate loop (R53, R54, R450, R452) -/

/-- The bound on input power in W, and the code R59 gives its smallest term: PCAP, the effective ceiling, or the input
current limit at the present voltage (R450). -/
def State.powerBound (s : State) : Nat × Nat :=
  let p := s.plant.pcap.toNat * 100
  let c := ceilingOf s.plant.bricksFailed * 100
  let i := s.plant.vin.toNat * 7
  let m := if p ≤ c then (p, 0x04) else (c, 0x13)
  if s.plant.vin ≠ 0 && i < m.1 then (i, 0x12) else m

/-- Input power has reached its bound. -/
def State.capped (s : State) : Bool := s.powerBound.1 ≤ s.plant.pin.toNat * 10

/-- R55 or the effective RMAX has the loop lower this quadrant's rail, whatever the input power. By how much a rail above
RMAX falls an evaluation is a DESIGN CHOICE (log 115): 5 mV, as R55 has it for throttling. -/
def Quadrant.mustLower (q : Quadrant) : Bool := q.overWork || q.effMax < q.rate

/-- A safety limit of R56 acts on this quadrant. The loop concerned, which holds, is the rate loop for this quadrant; under the
input-current limit every rail may fall and none rises (DESIGN CHOICE, log 115: R56 does not name the loops concerned). -/
def Quadrant.held (q : Quadrant) : Bool := q.safetyTemp || q.safetyCur

/-- What keeps the loop from raising the rail: the code R59 gives it; none where it may rise. Where several bounds forbid it
at once the manual names no first one: the order here is a DESIGN CHOICE (log 115). The loop raises a rail only where the
calibrated rise of its next 5 mV leaves the measured rate at or below the effective RMAX (R53, R434; DESIGN CHOICE, log 141). The
bound on input power is named by its smallest term, also while the input-current limit of R56 acts (R450). -/
def State.raiseStop (s : State) (q : Nat) : Option Nat :=
  let x := s.quad q
  if x.safetyTemp then some 0x10
  else if x.safetyCur then some 0x11
  else if s.capped || s.plant.inputLimit then some s.powerBound.2
  else if x.overWork then some 0x06
  else if x.effMax ≤ x.rate || 10 * x.effMax < 10 * x.rate + s.nextRise q then some (if x.effRmax < 100 then 0x12 else 0x02)
  else if x.vmax ≤ x.vrail then some 0x03
  else if s.railBound q ≤ x.vrail then some 0x05
  else none

/-- POLICY_CONFLICT of a quadrant for which the loop gives up RMIN, raised once (R54, R59): the code of the bound that forces it. -/
def State.raiseConflict (s : State) (q code : Nat) : State :=
  let x := s.quad q
  let t := s.setQuad q { x with conflictQuiet := 0, conflict := true }
  if x.conflict then t
  else t.logEvent { code := rcPolicyConflict, srcKind := 9, srcId := 0 } (if code = 0x06 then 1 else 0)
    (BitVec.ofNat 64 q) 0x01 (BitVec.ofNat 64 code)

/-- A rail at or below its RMIN that the loop lowers still: RMIN is given up for the bound named (R54, R55, R450). -/
def State.givesUp (s : State) (q code : Nat) : State :=
  if (s.quad q).rate ≤ (s.quad q).rmin && 550 < (s.quad q).vrail then s.raiseConflict q code else s

/-- One evaluation of a quadrant's rail by the quadrant's own bounds. Where a safety limit acts the loop holds (R56). A rail
above VMAX comes to VMAX at once, and a rail that may rise rises by 5 mV or by what VMAX and R36 leave (DESIGN CHOICE,
log 115: the manual gives the 5 mV for lowering alone). -/
def State.stepRail (s : State) (q : Nat) : State :=
  let x := { s.quad q with vrail := Nat.min (s.quad q).vrail (s.quad q).vmax }
  if (s.quad q).held then s
  else if x.mustLower then
    let t := (s.setQuad q x).givesUp q (if x.overWork then 0x06 else if x.effRmax < 100 then 0x12 else 0x02)
    t.setQuad q ((t.quad q).lower 5)
  else
    let t := s.setQuad q x
    if (t.raiseStop q).isNone then
      t.setQuad q { x with vrail := x.vrail + Nat.min 5 (Nat.min (x.vmax - x.vrail) (t.railBound q - x.vrail)) }
    else t

/-- Puts a quadrant into a list kept by falling rate. Of quadrants with one measured rate the higher number goes first (DESIGN
CHOICE, log 115: R53 orders by the rate alone). -/
def State.insertByRate (s : State) (q : Nat) : List Nat → List Nat
  | [] => [q]
  | k :: ks => if (s.quad k).rate < (s.quad q).rate then q :: k :: ks else k :: s.insertByRate q ks

/-- The quadrants the loop may lower for the input power, highest rate first: those above their own RMIN, else, R54 and R450
giving up RMIN before the power bound, all of them. -/
def State.powerOrder (s : State) : List Nat :=
  let may := s.liveQuads.filter (fun q => !(s.quad q).held && !(s.quad q).mustLower && 550 < (s.quad q).vrail)
  let high := may.filter (fun q => (s.quad q).rmin < (s.quad q).rate)
  (if high.isEmpty then may else high).foldr s.insertByRate []

/-- Lowers rails by 5 mV each in order until power, W, falls below the bound (R53), whose code is given: a quadrant lowered that
is not above its RMIN gives it up for the bound (R54, R450). -/
def State.shedPower (bound code : Nat) : Nat → List Nat → State → State
  | _, [], s => s
  | w, q :: qs, s =>
    if w < bound then s
    else
      let x := s.quad q
      let t := s.givesUp q code
      State.shedPower bound code (w - Config.powerStep x.rate x.vrail) qs (t.setQuad q ((t.quad q).lower 5))

/-- At the bound on input power, the rails that R53 lowers. -/
def State.stepPower (s : State) : State :=
  if s.capped then State.shedPower s.powerBound.1 s.powerBound.2 (s.plant.pin.toNat * 10) s.powerOrder s else s

/-- POLICY_CONFLICT of a quadrant that cannot meet its RMIN (R54, R55, R59): raised once, cleared when RMIN has been met
for 10 evaluations in a row. -/
def State.judgeConflict (s : State) (q : Nat) : State :=
  let x := s.quad q
  if x.rmin ≤ x.rate then
    let n := Nat.min 10 (x.conflictQuiet + 1)
    s.setQuad q { x with conflictQuiet := n, conflict := x.conflict && n < 10 }
  else
    match s.raiseStop q with
    | none => s.setQuad q { x with conflictQuiet := 0 }
    | some code => s.raiseConflict q code

/-- An effective RMAX comes back by 1 % an evaluation once the input current is below its limit (DESIGN CHOICE, log 43: the
manual gives no rate). -/
def State.regainMax (s : State) : State :=
  if s.plant.inputLimit then s
  else s.mapLive (fun q => if q.effRmax < 100 then { q with effRmax := q.effRmax + 1 } else q)

/-- RATE_LOOP_EVAL (R53, R54): one evaluation, with the rails and rates as measured. -/
def execRateLoopEval (s : State) : Answer :=
  .next (if !s.plant.powerGood then s
    else
      let s := s.regainMax
      let s := s.liveQuads.foldl (fun (t : State) q => t.judgeConflict q) s
      (s.liveQuads.foldl (fun (t : State) q => t.stepRail q) s.stepPower).relaxRails)

/-! ## The thermal loop (R55) -/

/-- One evaluation of a quadrant: throttling begins above T_work, which it lowers, and ends at or below it. The
loop goes on under a safety limit (DESIGN CHOICE, log 115: R56 does not say which loops are concerned). -/
def Quadrant.thermal (q : Quadrant) : Quadrant :=
  if !q.throttled && q.overWork then
    { q with throttled := true, twork := if q.tlo < q.twork then q.twork - 1 else q.twork, calmUsec := 0 }
  else if q.throttled && !q.overWork then { q with throttled := false, calmUsec := 0 }
  else q

/-- THERMAL_LOOP_EVAL (R55). -/
def execThermalLoopEval (s : State) : Answer :=
  .next (if s.plant.powerGood then s.mapLive Quadrant.thermal else s)

/-- TWORK_RAISE (R55): a full 10 s without throttling. -/
def execTworkRaise (q : QuadId) (s : State) : Answer :=
  let x := s.quad q.toNat
  .next (if s.liveQuad q.toNat && !x.throttled && 10000000 ≤ x.calmUsec then
      s.setQuad q.toNat { x with twork := if x.twork < x.thi then x.twork + 1 else x.twork, calmUsec := 0 }
    else s)

/-! ## The bound set (R57, R273, R322, R380, R381) -/

/-- A register of the bound set. -/
inductive BoundReg where
  | pwr
  | qrate (q : Nat)
  | qtherm (q : Nat)
  | mig
  | eq (e : Nat)
  deriving DecidableEq, Repr

/-- The register a CSR address names, if it is one of the set. -/
def boundReg (a : Nat) : Option BoundReg :=
  match csrTarget a with
  | .mod o =>
    if o % 8 ≠ 0 then none
    else if o = 0x800 then some .pwr
    else if o = 0x840 then some .mig
    else if 0x1000 ≤ o && o < 0x1200 then some (.qrate ((o - 0x1000) / 8))
    else if 0x1200 ≤ o && o < 0x1400 then some (.qtherm ((o - 0x1200) / 8))
    else none
  | .zl e o => if o = 0x800 then some (.eq e) else none
  | _ => none

/-- A value's fields lie out of their ranges, or contradict each other. -/
def BoundReg.bad (r : BoundReg) (v : Word) : Bool :=
  let out := fun (lo wid a b : Nat) => fld v lo wid < a || b < fld v lo wid
  match r with
  | .pwr => out 0 9 50 420
  | .qrate _ => out 0 8 90 200 || out 8 8 90 200 || out 16 10 550 850 || fld v 8 8 < fld v 0 8
  | .qtherm _ => out 0 8 60 100 || out 8 8 60 100 || fld v 8 8 < fld v 0 8
  | .mig => fld v 28 8 == 0 || fld v 16 12 ≤ fld v 4 12
  | .eq _ => fld v 4 8 == 0 || out 0 4 4 8

/-- The quadrant a register concerns. -/
def BoundReg.quadrant : BoundReg → Option Nat
  | .qrate q => some q
  | .qtherm q => some q
  | _ => none

/-- Registers of a quadrant that is absent in the grade keep their reset values (R57). -/
def BoundReg.ignored (r : BoundReg) (g : Grade) : Bool :=
  match r.quadrant with
  | some q => !quadExists g q
  | none => false

/-- A register takes a committed value; its reserved bits stay zero. -/
def State.setBound (s : State) (r : BoundReg) (v : Word) : State :=
  match r with
  | .pwr => { s with plant := { s.plant with pcap := BitVec.ofNat 9 v.toNat } }
  | .qrate q => s.setQuad q { s.quad q with rateBounds := v &&& 0x03FFFFFF }
  | .qtherm q => s.setQuad q { s.quad q with thermBounds := v &&& 0xFFFF }
  | .mig => { s with tiers := { s.tiers with bounds := v &&& 0x0000FFFFFFFFFFF0 } }
  | .eq e => { s with fabric := { s.fabric with eqBounds := s.fabric.eqBounds.setIfInBounds e (v &&& 0xFFFF) } }

/-- The pairs a buffer holds: address, value. -/
def State.boundPairs (s : State) (b : Submission) (n : Nat) : List (Nat × Word) :=
  (List.range n).map (fun i => ((s.bufWord b (16 * i)).toNat, s.bufWord b (16 * i + 8)))

/-- BOUNDS_SET (R57, R380). An address that is no register of the set breaks check 3 of R364 (DEDUCED, log 44); T_work
starts at THI (R55). Where one set names a register twice the later value stands, and a bad value refuses the set even where
a later one would replace it (DESIGN CHOICE, log 116). -/
def execBoundsSet (k : CmdRef) (s : State) : Answer :=
  .next (s.runCommand k 0x07 (fun c s =>
    let ps := s.boundPairs c.sub (fld (c.sub.arg 0) 0 9)
    match ps.findIdx? (fun p => (boundReg p.1).isNone) with
    | some i => s.refuse k stBadField (r1Entry i)
    | none =>
      let rs := (ps.filterMap (fun p => (boundReg p.1).map (fun r => (r, p.2)))).filter (fun p => !p.1.ignored s.grade)
      match rs.find? (fun p => p.1.bad p.2) with
      | some p => s.refuseCheck c { reason := rsBoundRange, detail := p.1.quadrant.getD 0 }
      | none =>
        let s := rs.foldl (fun (t : State) p => t.setBound p.1 p.2) (s.ack k)
        (s.mapLive (fun q => { q with twork := q.thi })).succeed k 0 0))

/-! ## Ticks (R49, R362, R375, R401, R403) -/

/-- A quadrant's timers, one µs on: without throttling; above 100 °C at the floor; at or below 70 °C while ebbed. -/
def Quadrant.tick (q : Quadrant) : Quadrant :=
  { q with
    calmUsec := if q.powered && !q.throttled && !q.overWork then Nat.min 10000000 (q.calmUsec + 1) else 0
    hotUsec := if q.powered && q.safetyTemp && q.vrail == 550 && 10000 < q.hot then
        Nat.min 20000 (q.hotUsec + 1) else 0
    coolUsec := if q.ebbed && q.hot ≤ 7000 then Nat.min 1000000 (q.coolUsec + 1) else 0 }

/-- A request's LIMIT counts on while it is not suspended (R375). -/
def Region.tick (g : Region) : Region :=
  if g.reqValid && !g.state.suspends then { g with reqUsec := g.reqUsec + 1 } else g

/-- The EN reference oscillator runs: power is good and EN is not lost. -/
def State.clockRuns (s : State) : Bool := s.plant.powerGood && !((s.plant.edgeLost[0]?).getD false)

/-- USEC_TICK (R49): MOD_USEC counts on, and what runs by it; pour lines leave, and a re-shard's participant that has
drained reports it (log 40). -/
def execUsecTick (s : State) : Answer :=
  .next (if !s.clockRuns then s
    else
      let u := s.nemar.usec + 1
      let s := { s with
        nemar := { s.nemar with usec := u }
        regions := s.regions.map (fun (e : Nat × Region) => (e.1, e.2.tick))
        plant := { s.plant with quads := s.plant.quads.map (fun (e : Nat × Quadrant) => (e.1, e.2.tick)) }
        store := { s.store with minutes := if u % 60000000 = 0 then s.store.minutes + 1 else s.store.minutes } }
      s.runAllPours.reportDrained)

/-- A hart runs: it has started and is not fenced. -/
def State.hartRuns (s : State) (i : Nat) : Bool :=
  match s.nemar.harts[i]? with
  | some .running => true
  | some (.restarted _) => true
  | _ => false

/-- A hart is fenced (R404). -/
def State.hartFenced (s : State) (i : Nat) : Bool := (s.nemar.harts[i]?) == some .fenced

/-- HEARTBEAT_TICK (R362): the primary counts once firmware has started; of a halted module the deputy on ES (R404). -/
def execHeartbeatTick (s : State) : Answer :=
  .next (if s.plant.powerGood && 2 ≤ s.plant.bootStep && (s.host.state != .halted || s.hartRuns 5) then
      { s with host := { s.host with heartbeat := s.host.heartbeat + 1 } }
    else s)

end Sys2Proof.Machine
end

