-- ==== Sys2Proof/Machine/Ebb.lean ====
section
/-! DEFINITION. Machine/Ebb.lean: probes, self-checks and fences (R390, R393, R394), pending faults (R19, R400), the thermal
ebb (R401 to R403), management harts and the halt (R404), bricks and phases (R452 to R454), stacks (R388). -/

namespace Sys2Proof.Machine

/-! ## Lost cores (R393, R394) -/

/-- Logs an error of a physical core (kind 1): its column, and the core that met it, if one did (R392). -/
def State.logCoreError (s : State) (lasting : Bool) (p kind : Nat) (met : Option Nat) : State :=
  let beats := match met with
    | some l => BitVec.ofNat 64 (s.core l).refbeats
    | none => 0
  s.logError lasting 1 p kind (physColOf p) beats met

/-- The quadrant of a logical core has power. -/
def State.corePowered (s : State) (l : Nat) : Bool := (s.quad (physQuad (s.physOf l))).powered

/-- A core is probed: it is powered, of an enabled region and not fenced (R393, R466). -/
def State.probed (s : State) (l : Nat) : Bool := s.managed && s.corePowered l && (s.regionOf l).isSome && !s.reef l

/-- PROBE (R393). -/
def execProbe (c : CoreId) (answered : Bool) (s : State) : Answer :=
  let l := c.toNat
  .next (if s.probed l then s.setCore l { s.core l with probeMissed := !answered } else s)

/-- PROBE_RETRY (R389, R393): an answer makes the miss transient; none loses the core, with cause PROBE or ROUTER. -/
def execProbeRetry (c : CoreId) (answered routerWorks : Bool) (s : State) : Answer :=
  let l := c.toNat
  let p := s.physOf l
  .next (if !s.probed l || !(s.core l).probeMissed then s
    else
      let s := s.setCore l { s.core l with probeMissed := false }
      if answered then s.logCoreError false p errProbe none
      else (s.logCoreError true p errProbe none).loseCore p (if routerWorks then 1 else 4))

/-- A re-placement of the fenced physical core p has yet to commit its row map. -/
def State.testsSpare (s : State) (p : Nat) : Bool := s.nemar.replacements.any (fun x => !x.committed && x.fences.contains p)

/-- A core whose checks report: of an enabled region, in every state of it (R466), or one that an enable could use. -/
def State.selfChecks (s : State) (l : Nat) : Bool := ((s.regionOf l).isSome && s.corePowered l && !s.reef l) || s.available l

/-- Kind of an error of a core's storage (R392). -/
def sramKind : CoreSram → Nat
  | .cache => 0x05
  | .vreg => 0x06
  | .acc => 0x07
  | .imem => 0x08

/-- An error that a read of core l's own storage has met (R388 to R390, R392): one that the read again met is lasting, is counted
against the physical core, and stands at its location. -/
def State.sramError (s : State) (l : Nat) (u : CoreSram) (loc : Nat) (lasting : Bool) : State :=
  let s := s.logError lasting 0 l (sramKind u) loc (BitVec.ofNat 64 (s.core l).refbeats) (some l)
  if lasting then
    let s := s.countSram l (sramKind u) loc
    s.setCore l (s.silicon l (s.core l))
  else s

/-- The router of a physical core fails (R388, R394): of a logical core the core is lost; of a spare, or of a core that is fenced
already, the fault map takes it, and a plan leads around it. -/
def State.loseRouter (s : State) (p : Nat) : State :=
  if 17408 ≤ p || (look s.plant.rows (rowOf p) ({} : Row)).routers.contains (physColOf p) then s
  else
    let s := s.logCoreError true p errRouter none
    match s.logOf p with
    | some l => if s.reef l then s.fence p true else s.loseCore p 4
    | none => s.fence p true

/-- SELF_CHECK_REPORT (R389, R390, R393, R466): the core is lost with cause SELF_CHECK, RING_STOP or ROUTER, another router has
failed, or a read of the core's storage has met an error. Of a core that is being re-placed it is the report of the spare in test
for it, which has failed its self-test twice, or passed when it was run again (R398, R400; DESIGN CHOICE, log 68). -/
def execSelfCheckReport (c : CoreId) (k : SelfCheck) (s : State) : Answer :=
  let l := c.toNat
  let p := s.physOf l
  .next (if !s.managed then s
    else match k with
    | .routerOf q => s.loseRouter q.toNat
    | .spareRetried => if s.testsSpare p then s.logCoreError false (s.spareInTest p) errSelfTest none else s
    | .storage u loc lasting => if s.selfChecks l then s.sramError l u loc lasting else s
    | _ =>
      if s.reef l then
        (if s.testsSpare p then { s with nemar := { s.nemar with badSpares := addNum s.nemar.badSpares (s.spareInTest p) } } else s)
      else if !s.selfChecks l then s
      else match k with
      | .ringStopped => (s.logCoreError true p errSelfCheck (some l)).loseCore p 3
      | .routerFailed => (s.logCoreError true p errRouter none).loseCore p 4
      | _ => (s.logCoreError true p errSelfCheck (some l)).loseCore p 2)

/-! ## Pending faults and rows out (R16, R18, R19, R400) -/

/-- An enabled region holds a core of row k. -/
def State.rowHeld (s : State) (k : Nat) : Bool :=
  s.regions.any (fun e => e.2.state.enabled && (rangeFrom (k * 32) 32).any (inRect e.2.rect))

/-- Row k is beyond repair (R18). -/
def State.rowBroken (s : State) (k : Nat) : Bool := 2 < (look s.plant.rows k ({} : Row)).faults.length

/-- Marks row k out; DIE_ROWMAP follows once the record is committed (R428). -/
def State.markOut (s : State) (k : Nat) : State :=
  let s := s.writeRow k { look s.plant.rows k ({} : Row) with rowOut := true }
  if s.store.faultOwed k then s else s.writeRow k { look s.plant.rows k ({} : Row) with inForceOut := true }

/-- Commits the fault of physical core p, or marks its row out, where no enabled region holds a core that this moves and the
store holds the fault (R428). -/
def State.commitWhenFree (s : State) (p : Nat) : State :=
  let k := rowOf p
  if s.store.faultOwed k then s
  else if s.rowBroken k then (if s.rowHeld k then s else s.markOut k)
  else if (s.movedRegions [p]).isEmpty then s.commitFence p else s

/-- The record of a weak core's fence (R390, R392, R394): a LASTING one that names the logical core whose storage has given the
errors, and their kind; no error has arisen anew, so none is counted (DEDUCED, log 150). -/
def State.logWeak (s : State) (l p : Nat) : State :=
  let kind := ((look s.nemar.sram p []).getLast?.getD 0) / 2 ^ 32
  s.logEvent { code := rcLasting, srcKind := 0, srcId := l } (BitVec.ofNat 64 kind) (BitVec.ofNat 64 (physColOf p)) 0 allOnes

/-- WEAK_CORE_FENCE (R390). -/
def execWeakCoreFence (c : CoreId) (s : State) : Answer :=
  let l := c.toNat
  let p := s.physOf l
  .next (if !s.managed || !s.nemar.weak.contains p || !s.available l || !(s.movedRegions [p]).isEmpty then s
    else ((s.logWeak l p).fence p false).commitWhenFree p)

/-- The faults of row k that are not in force, as physical cores. -/
def State.pendingFaults (s : State) (k : Nat) : List Nat :=
  let w := look s.plant.rows k ({} : Row)
  (w.faults.filter (fun c => !w.inForce.contains c)).map (fun c => k / 32 * 1088 + k % 32 * 34 + c)

/-- PENDING_FAULT_COMMIT (R19, R400). -/
def execPendingFaultCommit (d : DieId) (row : BitVec 5) (s : State) : Answer :=
  let k := d.toNat * 32 + row.toNat
  .next (if !s.managed || (look s.plant.rows k ({} : Row)).inForceOut then s
    else (s.pendingFaults k).foldl (fun (t : State) p =>
      if (look t.plant.rows k ({} : Row)).inForceOut then t else t.commitWhenFree p) s)

/-! ## The thermal ebb (R401 to R403, R453) -/

/-- Enabled regions with a core in quadrant q. -/
def State.regionsIn (s : State) (q : Nat) : NumSet :=
  (s.regions.filter (fun e => e.2.state.enabled &&
    (rectCores e.2.rect).any (fun l => physQuad (s.physOf l) == q))).map Prod.fst

/-- A CORE_LOST record with cause EBB: quadrant, and the regions made LOST (R392). -/
def State.logEbb (s : State) (q : Nat) (lost : NumSet) : State :=
  let mask := lost.foldl (fun a k => if k < 64 then a + 2 ^ k else a) 0
  s.logEvent { code := stCoreLost, srcKind := 2, srcId := q / 4 } allOnes (BitVec.ofNat 64 q) 7 (BitVec.ofNat 64 mask)

/-- Step 2 for one region: it is scanned out with its slices. A flood of it stops, its image being intact, and its command
ends as a flood onto the quadrant would (R402); a re-placement that was flooding it goes on without it. -/
def State.ebbRegion (s : State) (r : Nat) : State :=
  let g := s.region r
  match g.state with
  | .stopping => s.setRegion r { g with savePool := true }
  | .scanning => s.setRegion r { g with savePool := true }
  | .flooding =>
    let y := ((s.setRegion r { g with flood := none }).stopFlood r).leaveReplacement r
    (g.flood.toList ++ y.2).foldl (fun (t : State) k =>
      t.refuse k stCheckRefused ({ reason := rsRegionAbsent, detail := r } : Refused).word) y.1.endReplacements
  | _ => s.startScan r .thermal true

/-- Why Nemar ebbs a quadrant (R401, R453). -/
def Quadrant.ebbs (q : Quadrant) : Bool :=
  (20000 ≤ q.hotUsec && q.safetyTemp && q.vrail == 550) || 11000 ≤ q.hot || q.phases < 18

/-- Steps 1 and 2 of R402. -/
def State.beginEbb (s : State) (q : Nat) : State :=
  let s := (s.setQuad q { s.quad q with ebbing := true, ebbUsec := s.nemar.usec }).logEbb q []
  (s.regionsIn q).foldl (fun (t : State) r => t.ebbRegion r) s

/-- THERMAL_EBB (R401, R402). -/
def execThermalEbb (q : QuadId) (s : State) : Answer :=
  let x := s.quad q.toNat
  .next (if s.liveQuad q.toNat && !x.ebbing && x.ebbs && s.host.state != .halted then s.beginEbb q.toNat else s)

/-- RESULT1 of a CORE_LOST with cause EBB (R368). -/
def r1Ebb (q : Nat) : Word := at64 0 14 q ||| at64 16 8 7

/-- A region whose scan-out the ebb overtakes becomes LOST (R402), and leaves any re-placement. -/
def State.loseToEbb (s : State) (r q : Nat) : State :=
  let resume := (s.region r).returnState
  let s := (s.endRequest r stCoreLost 0 (r1Ebb q)).endRegionCommands r stCoreLost (r1Ebb q)
  let y := s.leaveReplacement r
  let s := y.2.foldl (fun (t : State) k => t.finish k stCoreLost 0 (r1Ebb q)) y.1
  let s := s.setRegion r { s.region r with resume := resume }
  ((((s.setRState r .lost).failRegionBarriers r).stopCores r).dropContribs r).advanceReplacements

/-- The flits inside isolated routers are lost (R297), each region's loss being one. -/
def State.loseInside (s : State) (ps : NumSet) : State :=
  let inside := (s.mesh.flits.filter (fun e => !e.2.delivered && ps.contains (physAt e.2.px e.2.py))).map Prod.fst
  let x := s.loseFlits inside
  x.2.foldl (fun (t : State) r => t.loseEntryOf r) x.1

/-- Step 4's condition: every scan-out is over and the routes lead around the quadrant, or 100 ms have passed. -/
def State.ebbReady (s : State) (q : Nat) : Bool :=
  ((s.regionsIn q).isEmpty && (replanAround (.quadrantEbb (BitVec.ofNat 6 q))).all (fun p => (s.router p).isolated)) ||
    (s.quad q).ebbUsec + 100000 ≤ s.nemar.usec

/-- The cores of a quadrant lose their contents with its power. -/
def State.darkCores (s : State) (q : Nat) : State :=
  (rangeFrom (q / 4 * 1024) 1024).foldl (fun (t : State) l =>
    if physQuad (t.physOf l) = q then
      let u := (t.setCore l {}).undefineCore l
      u.setCore l (u.silicon l (u.core l))
    else t) s

/-- EBB_POWER_OFF (R402): step 4. Regions not scanned out become LOST; the routers but those of the stack ports go off. -/
def execEbbPowerOff (q : QuadId) (s : State) : Answer :=
  let n := q.toNat
  .next (if !(s.quad n).ebbing || !s.ebbReady n then s
    else
      let lost := s.regionsIn n
      let s := lost.foldl (fun (t : State) r => t.loseToEbb r n) s
      let s := if lost.isEmpty then s else s.logEbb n lost
      let off := replanAround (.quadrantEbb q)
      let s := off.foldl (fun (t : State) p => t.setRouter p { t.router p with isolated := true }) s
      let s := (quadPhys n).foldl (fun (t : State) p =>
        if keptRouter n p then t.setRouter p { t.router p with pass := true } else t) s
      let s := (s.loseInside off).darkCores n
      (s.setQuad n { s.quad n with
        ebbed := true, ebbing := false, powered := false, vrail := 0, rate := 0, tj := 0, throttled := false
        safetyTemp := false, safetyCur := false, conflict := false, conflictQuiet := 0, coolUsec := 0 }).endPlan.remap)

/-- A failed core's self-test record and its entry in the fault map (R422). -/
def State.failSelfTest (s : State) (p : Nat) : State := s.logCoreError true p errSelfTest none

/-- The rail a quadrant starts at: the calibrated point of 1.60 Gbeat/s, RMAX at reset (R421, R434), within R36 against its
powered neighbours. T_work starts at THI, which R403 states of a returning quadrant; of one powered at bring-up, before any
bounds are committed, it is a DESIGN CHOICE (log 116). -/
def State.startQuad (s : State) (q : Nat) : State :=
  let x := s.quad q
  s.setQuad q { x with
    powered := true, ebbing := false, vrail := Nat.min (s.calRail q 1600) (s.railBound q), twork := x.thi
    throttled := false, effRmax := 100
    calmUsec := 0, hotUsec := 0, coolUsec := 0 }

/-- The two quadrants of a fused die that lie nearest the edge die which serves it: their rails run at the floor for the die's
routers (R451; which quadrants are edge-most is DEDUCED, log 142). -/
def edgeMost (d : Nat) : List Nat := if d < 4 then [4 * d, 4 * d + 1] else [4 * d + 2, 4 * d + 3]

/-- The rails that a fused die's routers draw from (R451). -/
def State.fusedRails (s : State) (d : Nat) : State :=
  (edgeMost d).foldl (fun (t : State) q => t.setQuad q { t.quad q with powered := true, vrail := 550 }) s

/-- A router of a returning quadrant joins the mesh with the route epoch of the others. -/
def State.wakeRouter (s : State) (p : Nat) : State :=
  let live := s.router (((List.range 17408).find? (fun k => !(s.router k).isolated)).getD 0)
  let w := look s.plant.rows (rowOf p) ({} : Row)
  s.setRouter p { s.router p with
    pass := w.faults.contains (physColOf p), isolated := w.routers.contains (physColOf p), oldEmpty := false
    epoch := live.epoch, active := live.active, table := [] }

/-- QUADRANT_RETURN (R389, R403, R453): the quadrant is powered on and its cores tested. A test passed when run again is a
TRANSIENT record, a core that fails twice is fenced. A re-plan then clears QUAD_EBB and EBBED. -/
def execQuadrantReturn (q : QuadId) (t : SelfTests) (s : State) : Answer :=
  let n := q.toNat
  let x := s.quad n
  .next (if !s.plant.powerGood || s.host.state == .halted || !x.ebbed || x.powered || x.coolUsec < 1000000 || x.phases < 18 then s
    else
      let here := fun (ps : List PhysId) => (ps.map BitVec.toNat).filter (fun p => p < 17408 && physQuad p == n &&
        !(look s.plant.rows (rowOf p) ({} : Row)).faults.contains (physColOf p))
      let s := (here t.retried).foldl (fun (u : State) p => u.logCoreError false p errSelfTest none) s
      let s := (here t.failed).foldl (fun (u : State) p => (u.failSelfTest p).fence p false) s
      let s := (quadPhys n).foldl (fun (t : State) p => t.wakeRouter p) s
      (s.startQuad n).relaxRails)

/-! ## Harts and the halt (R404) -/

/-- The module halts: the enabled regions stop; the deputy on ES, where it lives, asserts ALERT, and ends a boot command in
progress BAD_STATE, so that the mailbox serves on (DESIGN CHOICE, log 137). -/
def State.halt (s : State) : State :=
  if s.host.state = .halted then s
  else
    let rs := (s.regions.filter (fun e => e.2.state.enabled)).map Prod.fst
    let s := rs.foldl (fun (t : State) r => t.stopCores r) s
    let s := (s.finish .boot stBadState 0 0).setHState .halted
    { s with plant := { s.plant with alertHalt := s.hartRuns 5 } }

/-- Writes a hart's state. -/
def State.setHart (s : State) (i : Nat) (h : HartState) : State :=
  { s with nemar := { s.nemar with harts := s.nemar.harts.setIfInBounds i h } }

/-- Every primary hart is fenced. -/
def State.primariesGone (s : State) : Bool := (List.range 4).all s.hartFenced

/-- Number of a hart: primaries 0 to 3, then the deputies of EE, ES and EW. -/
def hartIndex : Hart → Nat
  | .primary i => i.toNat
  | .deputyEE => 4
  | .deputyES => 5
  | .deputyEW => 6

/-- A hart is fenced, and its fault logged. -/
def State.fenceHart (s : State) (i : Nat) : State :=
  if s.hartFenced i then s else (s.logError true 4 i errHart i 0 none).setHart i .fenced

/-- HART_WATCHDOG_EXPIRE (R404): a restart, or a fence at a second miss within 1 s. -/
def execHartWatchdogExpire (h : Hart) (s : State) : Answer :=
  let i := hartIndex h
  let again : Bool := match s.nemar.harts[i]? with
    | some (.restarted u) => decide (s.nemar.usec < u + 1000000)
    | _ => false
  .next (if !s.plant.powerGood || !s.hartRuns i then s
    else if again then
      let s := s.fenceHart i
      if s.primariesGone then s.halt else s
    else (s.logError false 4 i errHart i 0 none).setHart i (.restarted s.nemar.usec))

/-! ## Loss of power (R420, R449) -/

/-- The counters as the newest COUNTERS record holds them (R427). -/
def Store.recordedCounters (st : Store) : Store :=
  let body := ((st.journal.filter (fun r => r.kind == jkCounters)).getLast?.map (fun r => r.body)).getD []
  let w := fun (i : Nat) => (body.getD i 0).toNat
  { st with powerOns := w 0, minutes := w 1, lifeTransient := w 2, lifeLasting := w 3 }

/-- The module without power: what the persistent store holds stays, with the fault map and what the manual does not keep
in registers: the grade, the host's memory and far nodes' (DESIGN CHOICE, log 45), the model's own fields. -/
def State.powerOff (s : State) : State :=
  let rows := s.plant.rows.map (fun (e : Nat × Row) => (e.1, { e.2 with inForce := [], inForceOut := false }))
  let quads := (s.plant.quads.filter (fun e => e.2.slow)).map (fun (e : Nat × Quadrant) =>
    (e.1, ({ slow := true } : Quadrant)))
  { grade := s.grade
    mem := s.mem.filter (fun e => hostBase ≤ e.1)
    marks := s.marks.filter (fun k => hostBase / 16 ≤ k)
    plant := { rows := rows, quads := quads, dieOutMap := s.plant.dieOutMap, bootStep := 0, powerGood := false }
    nemar := { harts := Vector.replicate 7 .off }
    store := { s.store.recordedCounters with
      tree := none, treeNext := none, topSig := [], topSigNext := [], treeUsed := none, attest := none
      copies := [], turns := Vector.replicate 4 []
      compaction := none, waiting := [], unrecorded := [], compactDue := false }
    free := s.free
    pending := s.pending }

/-- UNDERVOLTAGE_STOP (R449): input has been below 50 V for more than 1 ms. -/
def execUndervoltageStop (s : State) : Answer := .next (if s.plant.powerGood then s.powerOff else s)

/-- OVERVOLTAGE_STOP (R449). -/
def execOvervoltageStop (s : State) : Answer := .next (if s.plant.powerGood then s.powerOff else s)

/-! ## Bricks, phases, edge dies, stacks (R388, R452 to R454) -/

/-- Counts an error of the power assembly; the manual gives it no record kind (DEDUCED, log 46). -/
def State.countPowerError (s : State) (lasting : Bool) : State :=
  if lasting then { s with nemar := { s.nemar with lasting := BitVec.ofNat 16 (satInc 16 s.nemar.lasting.toNat) },
                           store := { s.store with lifeLasting := s.store.lifeLasting + 1 } }
  else { s with nemar := { s.nemar with transient := BitVec.ofNat 32 (satInc 32 s.nemar.transient.toNat) },
                store := { s.store with lifeTransient := s.store.lifeTransient + 1 } }

/-- BRICK_FAIL (R451, R452). -/
def execBrickFail (retryOk : Bool) (s : State) : Answer :=
  .next (if !s.plant.powerGood then s
    else if retryOk then s.countPowerError false
    else
      let f := Nat.min 48 (s.plant.bricksFailed + 1)
      let s := ({ s with plant := { s.plant with bricksFailed := f } } : State).countPowerError true
      if 12 < f then s.powerOff else s)

/-- PHASE_FAIL (R453): below 18 working phases the quadrant is ebbed. -/
def execPhaseFail (q : QuadId) (retryOk : Bool) (s : State) : Answer :=
  let n := q.toNat
  .next (if !s.plant.powerGood || !quadExists s.grade n then s
    else if retryOk then s.countPowerError false
    else
      let s := (s.setQuad n { s.quad n with phases := (s.quad n).phases - 1 }).countPowerError true
      let x := s.quad n
      if s.liveQuad n && !x.ebbing && x.phases < 18 && s.host.state != .halted then s.beginEbb n else s)

/-- An edge die is lost (R404, R454): without EN the module halts, and logs nothing more; the die's ports go DOWN, its CXL port
and harts are gone. -/
def State.loseEdge (s : State) (e : Nat) : State :=
  let s := { s with plant := { s.plant with edgeLost := s.plant.edgeLost.setIfInBounds e true } }
  let s := if e = 0 then ((List.range 4).foldl (fun (t : State) i => t.setHart i .fenced) s).halt else s
  let s := (rangeFrom (8 * e) 8).foldl (fun (t : State) p =>
    if (t.zport p).state == .down then t else t.portDown p) s
  let s := if e % 2 = 0 && cxlExists s.grade (e / 2) then
      s.portChange (e / 2) { s.cxl (e / 2) with up := false, speed := 0, width := 0 }
    else s
  if e = 0 then s else (s.fenceHart (3 + e)).settleFabric

/-- EDGE_PHASE_FAIL (R454). -/
def execEdgePhaseFail (e : BitVec 2) (retryOk : Bool) (s : State) : Answer :=
  let n := e.toNat
  .next (if !s.plant.powerGood then s
    else if retryOk then s.countPowerError false
    else
      let f := (s.plant.edgePhases[n]?).getD 0 + 1
      let s := ({ s with plant := { s.plant with
        edgePhases := s.plant.edgePhases.setIfInBounds n (Nat.min 8 f) } } : State).countPowerError true
      if f = 3 then s.loseEdge n else s)

/-- STACK_FAILURE (R388, R454): a second failed phase is both. -/
def execStackFailure (k : StackId) (o : StackFault) (s : State) : Answer :=
  let n := k.toNat
  let x := look s.plant.dram n ({} : Stack)
  let put' := fun (y : Stack) => { s with plant := { s.plant with dram := put s.plant.dram n y } }
  .next (if !s.plant.powerGood || !stackExists s.grade n then s
    else match o with
    | .port => put' { x with failed := true }
    | .bothPhases => put' { x with phaseLost := true, failed := true }
    | .onePhase => put' (if x.phaseLost then { x with failed := true } else { x with phaseLost := true }))

end Sys2Proof.Machine
end

