-- ==== Sys2Proof/Machine/Image.lean ====
section
/-! DEFINITION. Machine/Image.lean: section images (R373), the check of an image's queues, areas, generators and packers
(R62, R68, R70, R74, R192, R242), the registers an image loads, and the start of a core at enable (R372). -/

namespace Sys2Proof.Machine

/-! ## Reading an image (R373) -/

/-- A section image: its header, INDEX and records, whether its zero fields are zero, and its digest. -/
structure Image where
  sectionId : BitVec 16 := 0
  width : Nat := 0
  height : Nat := 0
  index : List Nat := []
  recs : List ImageRec := []
  good : Bool := false
  digest : List Byte := []
  deriving DecidableEq, Repr

/-- A page of a range is poisoned. -/
def State.poisonedPages (s : State) (a n : Nat) : Bool :=
  (partsOf a n).any (fun q => match s.whereIs q.1 with
    | .object p _ => bit (s.ptEntry p).w0 56
    | _ => false)

/-- A little-endian number at an offset of bytes. -/
def numAt (bs : List Byte) (off n : Nat) : Nat := ofBytes ((bs.drop off).take n)

/-- Register entries up to the one of offset 0; none where a first word has a bit above [16:0]. -/
def readRegs : Nat → List Byte → Option (List (Nat × Word))
  | 0, _ => some []
  | n + 1, bs =>
    let off := numAt bs 0 8
    if 2 ^ 17 ≤ off then none
    else if off = 0 then some []
    else (readRegs n (bs.drop 16)).map (fun t => (off, BitVec.ofNat 64 (numAt bs 8 8)) :: t)

/-- An offset of an SC register of R72, R187, R200 and R241, or of an RW register of R184. -/
def imageReg (o : Nat) : Bool :=
  o % 8 == 0 && ((0x11000 ≤ o && o < 0x11200 && o % 0x80 ≤ 0x40) || o == 0x11300 || o == 0x11400 ||
    (0x11800 ≤ o && o < 0x11900) || o == 0x10058 || o == 0x10060 || o == 0x10068)

/-- A record of 40 KiB; none where its register entries break the format. -/
def readRec (bs : List Byte) : Option ImageRec :=
  match readRegs 512 (bs.drop 32768) with
  | none => none
  | some regs =>
    if regs.any (fun e => !imageReg e.1) then none
    else some {
      words := (List.range 4096).filterMap (fun a =>
        let w := numAt bs (8 * a) 8
        if w = 0 then none else some (a, BitVec.ofNat 64 w))
      regs := regs }

/-- Records one after another. -/
def readRecs : Nat → List Byte → Option (List ImageRec)
  | 0, _ => some []
  | n + 1, bs => match readRec (bs.take 40960), readRecs n (bs.drop 40960) with
    | some r, some t => some (r :: t)
    | _, _ => none

/-- The image at an address for a region rectangle; not `good` where R373 refuses it. -/
def State.readImage (s : State) (a : Nat) (rect : Word) : Image :=
  let w := rectX1 rect + 1 - rectX0 rect
  let h := rectY1 rect + 1 - rectY0 rect
  let head := s.nemarRead a 128
  let hb := head.map Prod.fst
  let nrec := numAt hb 12 4
  let fits := s.nemarReads a 128 && !anyBad head && numAt hb 0 4 == 0x53454354 && numAt hb 4 2 == 1 &&
    numAt hb 8 2 == w && numAt hb 10 2 == h && 1 ≤ nrec && nrec ≤ 16384 && (hb.drop 16).all (· == 0)
  if !fits then {} else
  let n := w * h
  let span := ceilDiv (2 * n) 128 * 128
  let len := 128 + span + 40960 * nrec
  let body := s.nemarRead a len
  let bs := body.map Prod.fst
  let idx := (List.range n).map (fun i => numAt bs (128 + 2 * i) 2)
  match readRecs nrec (bs.drop (128 + span)) with
  | none => {}
  | some rs =>
    { sectionId := BitVec.ofNat 16 (numAt hb 6 2), width := w, height := h, index := idx, recs := rs,
      good := s.nemarReads a len && !anyBad body && !s.poisonedPages a len && idx.all (· < nrec) &&
        ((bs.drop (128 + 2 * n)).take (span - 2 * n)).all (· == 0)
      digest := sha256 bs }

/-- The record of a core of the rectangle. -/
def Image.recOf (im : Image) (rect : Word) (l : Nat) : ImageRec :=
  im.recs.getD (im.index.getD ((coreY l - rectY0 rect) * im.width + (coreX l - rectX0 rect)) 0) {}

/-! ## The registers an image loads -/

/-- The SC registers of a generator take their reset values (R187). -/
def AddrGen.resetSc (a : AddrGen) : AddrGen :=
  { a with ctrl := 0x0000000001100000, base := 0, dim0 := 0, dims := #v[0, 0, 0, 0], idx := 0, land := 0 }

/-- The SC registers an image loads take their reset values (R72, R187, R200, R241, R373). -/
def Core.resetSc (c : Core) : Core :=
  { c with sq := c.sq.map (fun q => { q with cfg := 0, spillCfg := 0 }), ag := c.ag.map AddrGen.resetSc, rdl := 100,
           pk := { c.pk with cfg := 0 } }

/-- A generator's register takes a value, reserved bits dropped. -/
def AddrGen.load (a : AddrGen) (o : Nat) (v : Word) : AddrGen :=
  match o with
  | 0x00 => { a with ctrl := v &&& 0xFFFFFE00 }
  | 0x08 => { a with base := v &&& 0x0000FFFFFFFFFFFF }
  | 0x10 => { a with dim0 := v &&& 0x1FFFF }
  | 0x18 => { a with dims := a.dims.setIfInBounds 0 v }
  | 0x20 => { a with dims := a.dims.setIfInBounds 1 v }
  | 0x28 => { a with dims := a.dims.setIfInBounds 2 v }
  | 0x30 => { a with dims := a.dims.setIfInBounds 3 v }
  | 0x38 => { a with idx := v &&& 0xFFFFFFFF }
  | 0x40 => { a with land := v &&& 0x00007FFF00007FFF }
  | _ => a

/-- One register entry; the tap's is without effect on MV16-S (R183). -/
def Core.loadReg (tap : Bool) (c : Core) (e : Nat × Word) : Core :=
  let o := e.1
  let v := e.2
  if o < 0x11000 then c.cuWrite tap (o - 0x10000) v
  else if o < 0x11200 then c.setGen ((o - 0x11000) / 0x80) ((c.gen ((o - 0x11000) / 0x80)).load (o % 0x80) v)
  else if o = 0x11300 then { c with rdl := BitVec.ofNat 10 v.toNat }
  else if o = 0x11400 then { c with pk := { c.pk with cfg := v &&& 0xFCFC } }
  else if o < 0x11880 then
    let n := (o - 0x11800) / 8
    c.setQueue n { c.queue n with cfg := v &&& 0x80073FFF }
  else
    let n := (o - 0x11880) / 8
    c.setQueue n { c.queue n with spillCfg := v &&& 0x00007FFF00007FFF }

/-- The registers of a record: SC registers it does not name take their reset values, RW ones keep theirs. -/
def Core.loadRegs (tap : Bool) (c : Core) (regs : List (Nat × Word)) : Core :=
  regs.foldl (Core.loadReg tap) c.resetSc

/-! ## Checks over a candidate core -/

/-- First line and length of a queue's spill area. -/
def spillArea (q : StreamQueue) : Nat × Nat := areaOf q.spillCfg

/-- Two areas of lines share a line. -/
def areasMeet (a b : Nat × Nat) : Bool := 0 < a.2 && 0 < b.2 && a.1 < b.1 + b.2 && b.1 < a.1 + a.2

/-- First queue of core l whose binding breaks R68; `cfg` gives the candidate of every core of the region. -/
def bindingBad (cfg : Table Core) (l : Nat) (c : Core) : Option Nat :=
  (List.range 16).find? (fun n =>
    let w := (c.queue n).cfg
    bit w 31 && (match find? cfg (peerCore w) with
      | none => true
      | some d =>
        let back := (d.queue (if n < 8 then 8 + peerQ w else peerQ w)).cfg
        !(bit back 31 && peerCore back == l && peerQ back == n % 8)))

/-- First queue whose spill area breaks R70. -/
def spillBad (stage : Nat) (c : Core) : Option Nat :=
  (List.range 16).find? (fun n =>
    let a := spillArea (c.queue n)
    a.2 != 0 && (Config.sliceLines < a.1 + a.2 || 16384 < a.2 || areasMeet a (stage, Config.stageLines) ||
      (List.range n).any (fun m => areasMeet a (spillArea (c.queue m)))))

/-- Enabled INDEX generators that name indexer g. -/
def indexNames (c : Core) (g : Nat) : Nat :=
  ((List.range 4).filter (fun h => (c.gen h).en && (c.gen h).indexed && (c.gen h).isrc == g)).length

/-- An INDEX generator's source breaks R192. -/
def indexBad (c : Core) (g : Nat) : Bool :=
  let a := c.gen g
  if a.isrc < 4 then a.isrc == g || !(c.gen a.isrc).en || !(c.gen a.isrc).indexer
  else if a.isrc < 8 then true
  else !(c.queue (a.isrc - 8)).bound || 128 < a.tileRuns 0

/-- A WRITE generator's source breaks R192; WQ's bit [12] must be 0. -/
def wqBad (c : Core) (g : Nat) : Bool :=
  let a := c.gen g
  bit a.ctrl 12 || !(c.queue a.wq).bound || a.entryStream ||
    (List.range 4).any (fun h => h != g && (c.gen h).en && (c.gen h).writes && (c.gen h).wq == a.wq)

/-- Generator g meets a STREAM_CFG condition of R192. -/
def streamBad (c : Core) (g : Nat) : Bool :=
  let a := c.gen g
  a.en && (a.ahead = 0 || 8 < a.ahead || a.tdim = 0 || 4 < a.tdim || 4 < a.slotCode || a.run = 0 || 65536 < a.run ||
    a.slotBytes < a.run || (a.indexed && indexBad c g) || (a.indexer && indexNames c g != 1) || (a.writes && wqBad c g))

/-- Landing area of a generator. -/
def landArea (a : AddrGen) : Nat × Nat := (a.lbase, if a.en && !a.writes then a.lsize else 0)

/-- Generator g meets a STREAM_LAND condition of R192. -/
def landBad (stage : Nat) (c : Core) (g : Nat) : Bool :=
  let a := c.gen g
  a.en && !a.writes && (Config.sliceLines < a.lbase + a.lsize || 16 + a.lsize < c.tileEntries g 0 ||
    areasMeet (landArea a) (stage, Config.stageLines) ||
    (List.range 16).any (fun n => areasMeet (landArea a) (spillArea (c.queue n))) ||
    (List.range g).any (fun h => areasMeet (landArea a) (landArea (c.gen h))))

/-- One channel of the packer breaks R242. -/
def channelBad (c : Core) (en : Bool) (g kind : Nat) (wr : Bool) : Bool :=
  let a := c.gen g
  en && (kind == 3 || !a.en || a.indexer || a.writes != wr || a.run != frameBytes kind || a.slotCode != 0)

/-- The generator concerned where the packer breaks R242. -/
def packBad (c : Core) : Option Nat :=
  let p := c.pk
  if channelBad c p.pEn p.pGen p.pKind true then some p.pGen
  else if channelBad c p.uEn p.uGen p.uKind false then some p.uGen
  else if p.pEn && p.uEn && p.pGen == p.uGen then some p.pGen
  else none

/-- RDL outside its range concerns no generator: the detail is 0. -/
def rdlBad (c : Core) : Bool := c.rdl = 0 || 1000 < c.rdl.toNat

/-- First core of a candidate table that a check names, with its detail. -/
def firstBad (reason : Nat) (cfg : Table Core) (f : Nat → Core → Option Nat) : Option Refused :=
  (cfg.filterMap (fun e => (f e.1 e.2).map (fun d => ({ reason := reason, detail := d, core := some e.1 } : Refused)))).head?

/-- The candidate of every core of a rectangle. -/
def Image.candidates (im : Image) (rect : Word) : Table Core :=
  (rectCores rect).map (fun l => (l, Core.loadRegs true {} (im.recOf rect l).regs))

/-- The checks of R62 and R192 over an image's cores, in the order of their reasons; STAGE_LINE is `stage`. -/
def imageChecks (im : Image) (rect : Word) (stage : Nat) : List (Option Refused) :=
  let cfg := im.candidates rect
  [firstBad rsQueueBinding cfg (bindingBad cfg),
   firstBad rsSpillRange cfg (fun _ c => spillBad stage c),
   firstBad rsStreamCfg cfg (fun _ c => if rdlBad c then some 0 else (List.range 4).find? (streamBad c)),
   firstBad rsStreamLand cfg (fun _ c => (List.range 4).find? (landBad stage c)),
   firstBad rsPackCfg cfg (fun _ c => packBad c)]

/-- The lowest reason among refusals (R383). -/
def lowest (xs : List (Option Refused)) : Option Refused :=
  xs.foldl (fun (b : Option Refused) x => match b, x with
    | some p, some q => if q.reason < p.reason then some q else some p
    | none, q => q
    | p, none => p) none

/-- A refusal with the region as its detail, where a condition holds. -/
def refuseIf (b : Bool) (reason r : Nat) : Option Refused := if b then some { reason := reason, detail := r } else none

/-- The consistency check of REGION_ENABLE over the shadow set and the image (R62, R192, R242, R281, R372, R373). -/
def State.enableCheck (s : State) (r : Nat) (im : Image) : Option Refused :=
  let g := s.region r
  let stage := fld g.shStageScan 33 15
  lowest ([s.placeCheck r g.shRect,
    refuseIf (32448 < stage) rsSpillRange r,
    refuseIf (128512 < fld g.shStageScan 0 17) rsScanRange r,
    refuseIf (2 ≤ fld g.shCtrl 2 2) rsDrainMode r,
    refuseIf (g.shWdog.toNat = 0 || 1000 < g.shWdog.toNat) rsWdogRange r] ++
    (if im.good then imageChecks im g.shRect stage else [refuseIf true rsImageFormat r]))

/-- The checks of SECTION_LOAD (R372). -/
def State.loadCheck (s : State) (r : Nat) (im : Image) : Option Refused :=
  let g := s.region r
  if im.good then lowest (imageChecks im g.rect (fld g.stageScan 33 15)) else refuseIf true rsImageFormat r

/-- SECTIONS is extended by an image that passes (R446). -/
def State.extendSections (s : State) (r : Nat) (im : Image) : State :=
  { s with nemar := { s.nemar with
      sections := sha256 (s.nemar.sections ++ [BitVec.ofNat 8 r] ++ im.digest), nsect := s.nemar.nsect + 1 } }

/-! ## A core at enable (R73, R84, R97, R121, R184, R212, R372) -/

/-- A logical core as REGION_ENABLE starts it: registers at reset, bank 0 holding the record's words, phase 0. The stores
that R64 names, bank 1, the RW registers and the arbiter words keep their contents; the planes' elements, scales and marks are
empty, reading zero (DESIGN CHOICE, log 148). -/
def Core.enabled (c : Core) (tap : Bool) (rec : ImageRec) : Core :=
  let k : Core := { ({} : Core) with
    imem0 := rec.words, imem1 := c.imem1, acc := c.acc, accMarks := c.accMarks, vregs := c.vregs,
    vregMarks := c.vregMarks, cache := c.cache, cacheMarks := c.cacheMarks, htapCfg := c.htapCfg, rngSeed := c.rngSeed,
    rngCtx := c.rngCtx, barGen := c.barGen.filter (fun e => 240 ≤ e.1), arbShadow := c.arbShadow,
    arbActive := c.arbActive, arbCommits := c.arbCommits, arbRefused := c.arbRefused, arbReason := c.arbReason,
    ptCache := c.ptCache,
    imemErr := c.imemErr, accErr := c.accErr, vregErr := c.vregErr, cacheErr := c.cacheErr,
    running := true }
  k.loadRegs tap rec.regs

end Sys2Proof.Machine
end

