-- ==== Sys2Proof/Machine/Commands.lean ====
section
/-! DEFINITION. Machine/Commands.lean: IDENTIFY and RESYNC with the summary (R384 to R387), CSR_READ and CSR_WRITE (R370),
LOG_READ (R467), FAULTMAP_READ (R425), CKPT_COPY and the movers' copies (R378, R407 to R409, R414). -/

namespace Sys2Proof.Machine

/-! ## The summary (R384 to R386) -/

/-- The Traly parameters in the order of R8; sizes in KiB, `stack_bytes` in GiB (R385). -/
def tralyParams (g : Grade) : List Nat :=
  let a := g == .a
  [if a then 16 else 12, 32, 32, 34, 128, 128, if a then 16384 else 12288, 32, 32, 32, 12, 2, 64, 6, 16, 4096, 32, 512,
   64, 2, 4096, 4096, 16, 4, 2, 8, 8, 16, 1024, 32, 64, 32, 16, 8, 2, 8, 2, 128, b2n a, b2n a, 1, if a then 4 else 2, 256,
   64, 4096]

/-- 64-bit words as bytes. -/
def wordBytes (ws : List Word) : List Byte := ws.flatMap (fun w => toBytes 8 w.toNat)

/-- Row k is out: marked out in the fault map, or of a die that could not be brought up (R18, R423). -/
def State.rowOut (s : State) (k : Nat) : Bool :=
  (look s.plant.rows k ({} : Row)).rowOut || s.plant.dieOut.contains (k / 32)

/-- Rows of the dies the grade has. -/
def State.dieRowsList (s : State) : List Nat := (List.range 512).filter (fun k => dieExists s.grade (k / 32))

/-- Fenced cores, rows marked out and spare cores free. -/
def State.coreCounts (s : State) : Nat × Nat × Nat :=
  let row := fun (k : Nat) => look s.plant.rows k ({} : Row)
  ((s.dieRowsList.map (fun k => (row k).faults.length)).sum,
   (s.dieRowsList.filter s.rowOut).length,
   (s.dieRowsList.map (fun k => if s.rowOut k then 0 else 2 - (row k).faults.length)).sum)

/-- Signatures left (R442). -/
def State.signaturesLeft (s : State) : Nat := Config.signatures - s.store.sigIdx

/-- Sequence number of the oldest record held, or of the next one when none is. -/
def State.oldestLog (s : State) : Nat := (s.nemar.log.head?.map (fun r => r.seq)).getD s.nemar.logNext

/-- A word whose bit k is set where the k-th test holds. -/
def bitMask (n : Nat) (p : Nat → Bool) : Word :=
  BitVec.ofNat 64 ((List.range n).foldl (fun m k => if p k then m + 2 ^ k else m) 0)

/-- The header's 1,024 bytes. -/
def State.summaryHeader (s : State) (bytes : Nat) : List Byte :=
  let n := s.nemar
  let c := s.coreCounts
  let flying := (n.cmds.filter (fun c => c.ref != .boot)).length
  let head := wordBytes [at64 0 16 1 ||| at64 16 32 bytes, BitVec.ofNat 64 n.usec, BitVec.ofNat 64 s.host.heartbeat,
    s.hstId, s.hstStatus, capWord s.grade, at64 0 16 s.fabric.layout.toNat ||| at64 32 12 s.fabric.node.toNat,
    at64 0 13 flying ||| at64 16 13 n.finished.length]
  let params := (tralyParams s.grade).flatMap (toBytes 2)
  let enabled := (List.range 4).map (fun i => bitMask 64 (fun k => (s.region (64 * i + k)).state.enabled))
  let rest := wordBytes ([bitMask 64 (fun q => (s.quad q).ebbed), at64 0 16 c.1 ||| at64 16 16 c.2.1 ||| at64 32 16 c.2.2] ++
    enabled ++ [BitVec.ofNat 64 n.logNext, BitVec.ofNat 64 s.oldestLog,
      at64 0 4 s.store.loaded.toNat ||| at64 32 32 (s.store.version s.store.loaded.toNat),
      BitVec.ofNat 64 s.signaturesLeft])
  let bs := head ++ params ++ List.replicate (128 - 2 * (tralyParams s.grade).length) 0 ++ rest
  bs ++ List.replicate (1024 - bs.length) 0

/-- A ring's record. -/
def Ring.record (r : Ring) : List Word :=
  [r.cfgWord, r.statWord, at64 0 12 r.sqAck, BitVec.ofNat 64 r.droppedCount]

/-- A port's record. -/
def ZPortState.record (p : ZPortState) : Word :=
  at64 32 12 p.farNode ||| at64 16 2 p.mode ||| at64 0 11 (fld p.stat 0 11)

/-- A region's record. -/
def State.regionRecord (s : State) (r : Nat) : List Word :=
  let g := s.region r
  [g.rect, g.ctrlWord, s.rgnStatus r, g.reqWord, g.dlCount, g.tierWord, BitVec.ofNat 64 g.stateUsec,
   at64 16 12 g.lastTag.toNat ||| at64 0 16 g.lastStatus.toNat]

/-- A command's record: its tag state, and the status when it has finished. -/
def State.commandRecord (s : State) (c : Command) (state : Nat) (status : Code) : Word :=
  at64 48 16 c.sub.opcode.toNat ||| at64 32 16 status.toNat ||| at64 30 2 state ||| at64 26 4 c.ring.toNat |||
    flag64 25 c.longAcked ||| at64 16 8 c.region.toNat ||| at64 0 16 (Nat.min 65535 ((s.nemar.usec - c.fetchUsec) / 1000))

/-- The record of tag t. -/
def State.tagRecord (s : State) (t : Nat) : Word :=
  match s.command (.tag (BitVec.ofNat 12 t)) with
  | some c => s.commandRecord c 1 0
  | none =>
    match s.nemar.finished.find? (fun f => f.cmd.ref == .tag (BitVec.ofNat 12 t)) with
    | some f => s.commandRecord f.cmd 2 f.status
    | none => 0

/-- Bytes of the summary. -/
def summaryBytes : Nat := 53248

/-- The summary (R384). -/
def State.summary (s : State) : List Byte :=
  s.summaryHeader summaryBytes ++
    wordBytes (s.host.rings.toList.flatMap Ring.record) ++
    wordBytes ((List.range 64).map s.qstate) ++
    wordBytes (s.fabric.ports.toList.map ZPortState.record) ++
    List.replicate 1792 0 ++
    wordBytes ((List.range 256).flatMap s.regionRecord) ++
    wordBytes ((List.range 4096).map s.tagRecord)

/-- IDENTIFY (R369, R384). -/
def execIdentify (k : CmdRef) (s : State) : Answer :=
  .next (s.runCommand k 0x01 (fun c s =>
    (s.bufWrite c.sub 0 (s.summaryHeader 1024)).succeed k (capWord s.grade) s.hstId))

/-- Frees the tags reported finished, with the CQ entries they still owed (R387). -/
def State.freeFinished (s : State) : State :=
  let s' := s.nemar.finished.foldl (fun (t : State) f =>
    let r := t.ring f.cmd.ring
    t.setRing f.cmd.ring { r with owed := r.owed - f.cmd.debt }) s
  { s' with nemar := { s'.nemar with finished := [] } }

/-- RESYNC (R384, R387). -/
def execResync (k : CmdRef) (s : State) : Answer :=
  .next (s.runCommand k 0x02 (fun c s =>
    let held := s.tagsHeld
    ((s.bufWrite c.sub 0 s.summary).freeFinished).succeed k (BitVec.ofNat 64 summaryBytes) (BitVec.ofNat 64 held)))

/-! ## CSR access (R370) -/

/-- The words of an access: index and address. -/
def accessWords (b : Submission) : List (Nat × Nat) :=
  (List.range (fld (b.arg 1) 0 10)).map (fun i => (i, (b.arg 0).toNat + 8 * i))

/-- CSR_READ (R370): words before one that fails are read into the buffer. -/
def execCsrRead (k : CmdRef) (s : State) : Answer :=
  .next (s.runCommand k 0x03 (fun c s =>
    let ws := accessWords c.sub
    let ok := ws.takeWhile (fun w => !s.csrAbsent (csrTarget w.2))
    let t := s.bufWrite c.sub 0 (wordBytes (ok.map (fun w => s.csrRead (csrTarget w.2))))
    if ok.length < ws.length then t.refuse k stAddrAbsent (r1Entry ok.length)
    else t.succeed k (BitVec.ofNat 64 ok.length) 0))

/-- The block is of a die that is not MESH_UP (R424). -/
def State.dieDark (s : State) : CsrTarget → Bool
  | .die d _ => !s.plant.meshUp.contains d
  | .core l _ => !s.plant.meshUp.contains (coreDie l)
  | .phys p _ => !s.plant.meshUp.contains (physDie p)
  | _ => false

/-- One word of a CSR_WRITE: the index and cause of the first failure so far, and the state. -/
def State.csrWriteWord (b : Submission) (x : Option (Nat × Code) × State) (w : Nat × Nat) : Option (Nat × Code) × State :=
  match x.1 with
  | some _ => x
  | none =>
    let s := x.2
    let t := csrTarget w.2
    if s.dieDark t then (some (w.1, stAddrAbsent), s)
    else match s.csrWriteFails t with
    | some e => (some (w.1, e), s)
    | none => (none, s.csrPut t (s.bufWord b (8 * w.1)))

/-- CSR_WRITE (R370). -/
def execCsrWrite (k : CmdRef) (s : State) : Answer :=
  .next (s.runCommand k 0x04 (fun c s =>
    let x := (accessWords c.sub).foldl (State.csrWriteWord c.sub) (none, s)
    match x.1 with
    | some (i, e) => x.2.refuse k e (r1Entry i)
    | none => x.2.succeed k (BitVec.ofNat 64 (fld (c.sub.arg 1) 0 10)) 0))

/-! ## Logs (R467) and the fault map (R425) -/

/-- Records by number, with their words: the event log, or the EVENT records of the journal by JSEQ; and the next number. -/
def State.logRecords (s : State) (journal : Bool) : List (Nat × List Word) × Nat :=
  if journal then
    ((s.store.journal.filter (fun r => r.kind == jkEvent)).map (fun r => (r.jseq, r.body)), s.store.jseq)
  else (s.nemar.log.map (fun r => (r.seq, r.words)), s.nemar.logNext)

/-- LOG_READ (R467). -/
def execLogRead (k : CmdRef) (s : State) : Answer :=
  .next (s.runCommand k 0x05 (fun c s =>
    let a := c.sub.arg 0
    let x := s.logRecords (bit a 63)
    let oldest := (x.1.head?.map Prod.fst).getD x.2
    let first := Nat.max (fld a 0 63) oldest
    let rs := (x.1.filter (fun r => first ≤ r.1)).take (c.sub.bufLen.toNat / 64)
    let next := match rs.getLast? with
      | some r => r.1 + 1
      | none => Nat.min first x.2
    (s.bufWrite c.sub 0 (wordBytes (rs.flatMap Prod.snd))).succeed k (BitVec.ofNat 64 rs.length) (BitVec.ofNat 64 next)))

/-- The fault map's 8,768 bytes. -/
def State.faultMapBytes (s : State) : List Byte :=
  wordBytes [at64 0 32 0x46414D50 ||| at64 32 16 1 ||| at64 48 16 512, BitVec.ofNat 64 s.store.faultJseq, 0, 0, 0, 0, 0, 0] ++
    wordBytes ((List.range 512).flatMap s.faultEntry) ++
    wordBytes ((List.range 64).map (fun q => (s.faultEntry (512 + q)).getD 0 0))

/-- FAULTMAP_READ (R425). -/
def execFaultmapRead (k : CmdRef) (s : State) : Answer :=
  .next (s.runCommand k 0x06 (fun c s => (s.bufWrite c.sub 0 s.faultMapBytes).succeed k 8768 0))

/-! ## Checkpoint copies (R378, R407 to R409, R414) -/

/-- Entry i of a shard list. -/
def State.shardEntry (s : State) (b : Submission) (i : Nat) : Shard :=
  { src := (s.bufWord b (64 * i)).toNat, dst := (s.bufWord b (64 * i + 8)).toNat, len := (s.bufWord b (64 * i + 16)).toNat,
    digest := s.bufRead b (64 * i + 32) 32 }

/-- A global address of a list: bits [63:60] zero, a line, of this node or of one with a valid route. -/
def State.shardAddrBad (s : State) (a : Nat) : Bool :=
  2 ^ 60 ≤ a || a % 128 != 0 || (a / 2 ^ 48 != s.fabric.node.toNat && !bit (s.route (a / 2 ^ 48)) 63)

/-- Entry i breaks a rule of R407. -/
def State.shardBad (s : State) (b : Submission) (all : List Shard) (i : Nat) (x : Shard) : Bool :=
  s.shardAddrBad x.src || s.shardAddrBad x.dst || x.len == 0 || x.len % 128 != 0 || s.bufWord b (64 * i + 24) != 0 ||
    all.any (fun y => x.dst < y.src + y.len && y.src < x.dst + x.len)

/-- CKPT_COPY (R378, R407). -/
def execCkptCopy (k : CmdRef) (s : State) : Answer :=
  .next (s.runCommand k 0x40 (fun c s =>
    let xs := (List.range (c.sub.bufLen.toNat / 64)).map (s.shardEntry c.sub)
    match (xs.zipIdx).find? (fun e => s.shardBad c.sub xs e.2 e.1) with
    | some e => s.refuse k stBadField (r1Entry e.2)
    | none =>
      let s := s.ack k
      { s with store := { s.store with
        copies := s.store.copies ++ [{ ref := k, restore := bit (c.sub.arg 0) 0, shards := xs }]
        turns := s.store.turns.map (fun ks => ks ++ [k]) } }))

/-- Changes a copy in progress. -/
def State.setCopy (s : State) (x : CkptCopy) : State :=
  { s with store := { s.store with copies := s.store.copies.map (fun y => if y.ref == x.ref then x else y) } }

/-- The number by which the lines of shard i of a copy are known. -/
def shardKey (k : CmdRef) (i : Nat) : Nat :=
  (match k with
  | .boot => 0
  | .tag t => t.toNat + 1) * 65536 + i

/-- Ends a copy in progress. -/
def State.dropCopy (s : State) (k : CmdRef) : State :=
  let s := s.dropFar ownCkpt (fun n => n / 65536 == shardKey k 0 / 65536)
  { s with store := { s.store with
      copies := s.store.copies.filter (fun y => y.ref != k), turns := s.store.turns.map (fun ks => ks.erase k) } }

/-- Shard i may complete now: its mover has done the one before it, no shard below it has failed, it is not done. -/
def CkptCopy.mayFinish (x : CkptCopy) (i : Nat) : Bool :=
  (find? x.digests i).isNone && (i < 4 || (find? x.digests (i - 4)).isSome) &&
    (match x.failed with
    | some f => decide (i < f.1)
    | none => true)

/-- A mover has a shard of the copy to do. -/
def CkptCopy.waitsFor (x : CkptCopy) (m : Nat) : Bool :=
  (List.range x.shards.length).any (fun i => i % 4 == m && x.mayFinish i)

/-- The copies as mover m takes them in turn: in fetch order, one it has just served going behind the others (R408). -/
def Store.turnsOf (st : Store) (m : Nat) : List CmdRef := (st.turns[m]?).getD []

/-- The copy whose shard mover m does next. -/
def State.moverTurn (s : State) (m : Nat) : Option CmdRef :=
  (s.store.turnsOf m).find? (fun k => s.store.copies.any (fun x => x.ref == k && x.waitsFor m))

/-- Mover m has done a shard of a copy. -/
def State.moverServed (s : State) (k : CmdRef) (m : Nat) : State :=
  { s with store := { s.store with turns := s.store.turns.setIfInBounds m ((s.store.turnsOf m).erase k ++ [k]) } }

/-- Carries a copy on past the shards dealt with in order: in DRAIN each one's digest goes to bytes 32 to 63 of its entry.
The whole list done, or every shard below the lowest failing one, completes the command. `fuel` bounds the shards. -/
def State.advanceCopy (k : CmdRef) : Nat → State → State
  | 0, s => s
  | n + 1, s =>
    match s.store.copies.find? (fun y => y.ref == k), s.command k with
    | some x, some c =>
      let i := x.written
      let stop := match x.failed with
        | some f => f.1 == i
        | none => false
      if stop then
        let code := (x.failed.map Prod.snd).getD stCkptFail
        let s := (x.shards.drop i).foldl (fun (t : State) y => t.undefineRange y.dst y.len) s
        (s.dropCopy k).finish k code (BitVec.ofNat 64 i) (at64 0 32 i)
      else if x.shards.length ≤ i then (s.dropCopy k).succeed k (BitVec.ofNat 64 i) 0
      else match find? x.digests i with
      | none => s
      | some d =>
        if !x.restore && !s.bufUp c.sub then (s.dropCopy k).refuse k stHostBuffer (r1Word 2)
        else
          let s := if x.restore then s else s.bufWrite c.sub (64 * i + 32) d
          advanceCopy k n (s.setCopy { x with written := i + 1 })
    | _, _ => s

/-- Shard i ends with a digest, or fails with a status. -/
def State.endShard (s : State) (x : CkptCopy) (i : Nat) (r : List Byte × Option Code) : State :=
  let x := { x with digests := put x.digests i r.1, jobs := drop x.jobs i, failed := match r.2 with
    | some e => some (i, e)
    | none => x.failed }
  advanceCopy x.ref (x.shards.length + 2) ((s.setCopy x).moverServed x.ref (i % 4))

/-- A mover takes the copy of shard i on: a marked source line, an end that fails or a poisoned page fails it; in RESTORE its
digest must be its entry's. A page that moves holds it back, and one that other nodes answer waits for them. -/
def State.copyShard (s : State) (x : CkptCopy) (i : Nat) (y : Shard) : State :=
  if s.globalHas 55 y.dst y.len then s
  else if s.globalHas 56 y.src y.len || s.globalHas 56 y.dst y.len then s.endShard x i ([], some stCkptFail)
  else match s.farCopy ⟨shardKey x.ref i, ownCkpt, i⟩ (find? x.jobs i) y.src y.dst y.len true with
  | (.waits j, s) => s.setCopy { x with jobs := put x.jobs i j }
  | (.failed, s) => s.endShard x i ([], some stCkptFail)
  | (.done bs, s) =>
    let d := sha256 bs
    s.endShard x i (d, if x.restore && d != y.digest then some stDigestMismatch else none)

/-- SHARD_COPY_COMPLETE (R341, R342, R409, R414). -/
def execShardCopyComplete (j : CopyJob) (o : CopyOutcome) (s : State) : Answer :=
  .next (match j with
    | .reshard i =>
      (match s.fabric.reshard with
      | some x => if !x.copying then s else if o == .confirmed then s.copyEntry i.toNat else s.failReshard true
      | none => s)
    | .shard k i =>
      match s.store.copies.find? (fun y => y.ref == k) with
      | none => s
      | some x =>
        match x.shards[i.toNat]? with
        | none => s
        | some y =>
          if !x.mayFinish i.toNat || s.moverTurn (i.toNat % 4) != some k then s
          else match o with
          | .confirmed => s.copyShard x i.toNat y
          | .hostBufferFailed => if x.restore then s else (s.dropCopy k).refuse k stHostBuffer (r1Word 2)
          | _ => s.endShard x i.toNat ([], some stCkptFail))

end Sys2Proof.Machine
end

