-- ==== Sys2Proof/Machine/Lms.lean ====
section
/-! DEFINITION. Machine/Lms.lean: the HSS verification of RFC 8554 with the parameter sets of R436 (R437), and the layout of the
module's own signatures (R441). The RFC is named by R436 and R441; its algorithms are taken from it (PRESUMED, log 151). -/

namespace Sys2Proof.Machine

/-- A number as n bytes, most significant first. -/
def bigBytes (n v : Nat) : List Byte := (toBytes n v).reverse

/-- A big-endian number of n bytes at an offset. -/
def bigAt (bs : List Byte) (off n : Nat) : Nat := ofBytes ((bs.drop off).take n).reverse

/-- n bytes at an offset. -/
def bytesAt (bs : List Byte) (off n : Nat) : List Byte := (bs.drop off).take n

/-! ## LM-OTS with SHA-256, n = 32, w = 8 -/

/-- The digits of a hash with its checksum: 34 bytes. -/
def otsDigits (q : List Byte) : List Nat :=
  let ds := q.map BitVec.toNat
  let c := ds.foldl (fun n d => n + (255 - d)) 0
  ds ++ [c / 256 % 256, c % 256]

/-- The rest of a chain: so many steps of it from step j. -/
def otsChain (ident : List Byte) (q i : Nat) : Nat → Nat → List Byte → List Byte
  | 0, _, x => x
  | n + 1, j, x => otsChain ident q i n (j + 1) (sha256 (ident ++ bigBytes 4 q ++ bigBytes 2 i ++ bigBytes 1 j ++ x))

/-- The public key that a one-time signature and a message give: `sig` is C and the 34 chain values. -/
def otsKey (ident : List Byte) (q : Nat) (sig msg : List Byte) : List Byte :=
  let h := sha256 (ident ++ bigBytes 4 q ++ bigBytes 2 0x8181 ++ bytesAt sig 0 32 ++ msg)
  let zs := ((otsDigits h).zipIdx).flatMap (fun d => otsChain ident q d.2 (255 - d.1) d.1 (bytesAt sig (32 + 32 * d.2) 32))
  sha256 (ident ++ bigBytes 4 q ++ bigBytes 2 0x8080 ++ zs)

/-! ## LMS with SHA-256 -/

/-- The root above node r with a value, by the values beside its path. -/
def lmsRoot (ident : List Byte) : Nat → Nat → List Byte → List Byte → List Byte
  | 0, _, x, _ => x
  | h + 1, r, x, path =>
    let y := path.take 32
    let pair := if r % 2 = 1 then y ++ x else x ++ y
    lmsRoot ident h (r / 2) (sha256 (ident ++ bigBytes 4 (r / 2) ++ bigBytes 2 0x8383 ++ pair)) (path.drop 32)

/-- A public key: the identifier and the root. -/
structure LmsKey where
  ident : List Byte
  root : List Byte
  deriving DecidableEq, Repr

/-- A signature of a tree of height h verifies a message. -/
def LmsKey.verifies (k : LmsKey) (h : Nat) (sig msg : List Byte) : Bool :=
  let q := bigAt sig 0 4
  let ots := otsKey k.ident q (bytesAt sig 8 1120) msg
  let leaf := sha256 (k.ident ++ bigBytes 4 (2 ^ h + q) ++ bigBytes 2 0x8282 ++ ots)
  decide (q < 2 ^ h) && lmsRoot k.ident h (2 ^ h + q) leaf (bytesAt sig 1132 (32 * h)) == k.root

/-- The key in the 56 bytes of a public key. -/
def LmsKey.ofBytes (bs : List Byte) : LmsKey := ⟨bytesAt bs 8 16, bytesAt bs 24 32⟩

/-- An HSS signature with L = 2 and trees of height 20 verifies a message (R436): the top tree signs the lower key, the lower
tree the message. -/
def LmsKey.hssVerifies (k : LmsKey) (sig msg : List Byte) : Bool :=
  let key := bytesAt sig 1776 56
  k.verifies 20 (bytesAt sig 4 1772) key && (LmsKey.ofBytes key).verifies 20 (bytesAt sig 1832 1772) msg

/-- Geondale's public key in the boot ROM (R436). -/
def romKey : LmsKey :=
  ⟨(List.range 16).map Config.firmwareKeyByte, (List.range 32).map (fun i => Config.firmwareKeyByte (16 + i))⟩

/-! ## The module's signatures (R441) -/

/-- An LMS signature: leaf, LM-OTS typecode, C and chain values, LMS typecode, path; what a key gives is `fill`. -/
def lmsSignature (leaf type h : Nat) (fill : Nat → Byte) : List Byte :=
  bigBytes 4 leaf ++ bigBytes 4 4 ++ (List.range 1120).map fill ++ bigBytes 4 type ++
    (List.range (32 * h)).map (fun i => fill (1120 + i))

/-- The public key of lower tree t: typecodes of H15 and of LM-OTS, identifier and root. -/
def lowerKey (t : Nat) : List Byte := bigBytes 4 7 ++ bigBytes 4 4 ++ (List.range 48).map (Config.lowerKeyByte t)

/-- The top tree's signature with leaf t over the public key of lower tree t (R443). -/
def topSignature (t : Nat) : List Byte := lmsSignature t 6 10 (Config.topSignatureByte t)

/-- Signature q over a message: one signed public key, the top tree's signature as Nemar holds it, the lower tree's public key
and its signature. -/
def hssSignature (q : Nat) (top msg : List Byte) : List Byte :=
  bigBytes 4 1 ++ top ++ lowerKey (q / 32768) ++ lmsSignature (q % 32768) 7 15 (Config.signatureByte q msg)

end Sys2Proof.Machine
end

