-- ==== Sys2Proof/Machine/StoreOps.lean ====
section
/-! DEFINITION. Machine/StoreOps.lean: firmware slots and image verification (R430, R431, R435 to R437), calibration (R432 to
R434), attestation (R441 to R446) and the journal (R427 to R429). -/

namespace Sys2Proof.Machine

/-! ## Firmware images (R430, R435 to R437) -/

/-- A little-endian field of an image. -/
def imgField (bs : List Byte) (off n : Nat) : Nat := ofBytes ((bs.drop off).take n)

/-- Bytes off to off + n − 1 are zero. -/
def imgZero (bs : List Byte) (off n : Nat) : Bool := ((bs.drop off).take n).all (fun b => b == 0)

/-- Body length of an image. -/
def imgBody (bs : List Byte) : Nat := imgField bs 0x00C 4

/-- Condition 1: the header's fixed fields, and a body that the buffer holds. -/
def imgHeaderOk (bs : List Byte) : Bool :=
  imgField bs 0 4 == 0x4E4D4652 && imgField bs 4 2 == 1 && imgField bs 0x030 4 == 3604 && imgZero bs 6 2 &&
    imgZero bs 0x034 204 && imgZero bs 0xF14 236 && 1 ≤ imgBody bs && imgBody bs ≤ 67104768 &&
    4096 + imgBody bs ≤ bs.length

/-- Condition 3: the typecodes within SIGNATURE and its count of signed public keys, where RFC 8554 places them. -/
def imgTypesOk (bs : List Byte) : Bool :=
  let sig := bs.drop 0x100
  bigAt sig 0 4 == 1 && [8, 1780, 1836].all (fun o => bigAt sig o 4 == 4) &&
    [1132, 1776, 2960].all (fun o => bigAt sig o 4 == 8)

/-- An image verifies (R437). -/
def imageVerified (bs : List Byte) : Bool :=
  imgHeaderOk bs && sha256 ((bs.drop 0x1000).take (imgBody bs)) == (bs.drop 0x010).take 32 && imgTypesOk bs &&
    romKey.hssVerifies (bytesAt bs 0x100 3604) (bs.take 0x100)

/-- A slot record's eight words (R430). -/
def FwSlot.words (x : FwSlot) : List Word :=
  [at64 0 8 x.state.toNat ||| at64 32 32 x.version.toNat, at64 0 32 x.length, 0, 0] ++
    (List.range 4).map (fun i => BitVec.ofNat 64 (ofBytes ((x.digest.drop (8 * i)).take 8)))

/-- Writes a slot's record; one that the flash does not take leaves the slot as it was (R428). -/
def State.writeSlot (s : State) (i : Nat) (x : FwSlot) : State :=
  let t := s.journalAppend jkSlot i x.words
  if s.store.verifyFails then t else { t with store := { t.store with slots := t.store.slots.setIfInBounds i x } }

/-- A command whose record fails its program-verify twice: it has no effect, and a compaction starts (R428); of an image's
slot RESULT1 names it (R368). -/
def State.storeFailed (s : State) (k : CmdRef) (r1 : Word) : State :=
  ({ s with store := { s.store with compactDue := true } } : State).refuse k stStoreFail r1

/-- RESULT1 of a slot. -/
def r1Slot (i : Nat) : Word := at64 0 32 i

/-- FW_STAGE (R430); like every command that waits for a record, it waits for room in the half (R429). -/
def execFwStage (k : CmdRef) (s : State) : Answer :=
  .next (s.runCommand k 0x50 (fun c s =>
    let i := fld (c.sub.arg 0) 0 4
    if i = s.store.loaded.toNat || i = s.store.fallback.toNat then s.refuse k stImageSlot (r1Slot i)
    else if s.store.full [8, 8] then s
    else if s.store.verifyFails then (s.ack k).storeFailed k (r1Slot i)
    else
      let bs := s.bufRead c.sub 0 c.sub.bufLen.toNat
      let s := (s.ack k).writeSlot i {}
      let image := bs.take (4096 + imgBody bs)
      let x : FwSlot := { version := BitVec.ofNat 32 (imgField bs 8 4), length := image.length, digest := sha256 image,
                          image := image }
      if imageVerified bs then (s.writeSlot i { x with state := 1 }).succeed k 0 0
      else (s.writeSlot i { x with state := 2 }).finish k stImageSig 0 (r1Slot i)))

/-- FW_ACTIVATE (R431). -/
def execFwActivate (k : CmdRef) (s : State) : Answer :=
  .next (s.runCommand k 0x51 (fun c s =>
    let i := fld (c.sub.arg 0) 0 4
    if !s.store.valid i then s.refuse k stImageSlot (r1Slot i)
    else if s.store.full [2] then s
    else if s.store.verifyFails then s.storeFailed k (r1Slot i)
    else
      let old := s.store.active
      let s := { s with store := { s.store with active := BitVec.ofNat 4 i, fallback := old } }
      (s.journalAppend jkBootsel 0 [at64 0 4 i ||| at64 4 4 old.toNat, 0]).succeed k 0 0))

/-! ## Calibration (R432 to R434) -/

/-- Entries of a kind. -/
def calCount (kind : Nat) : Nat :=
  match kind with
  | 1 => 1152
  | 2 => 256
  | 3 => 288
  | 4 => 256
  | _ => 0

/-- Every entry of the set, in the order of the export. -/
def calKeys : List (Nat × Nat) := [1, 2, 3, 4].flatMap (fun k => (List.range (calCount k)).map (fun i => (k, i)))

/-- An entry's two words. -/
def calWords (kind origin key : Nat) (v : Word) : List Word :=
  [at64 0 8 kind ||| at64 8 8 origin ||| at64 32 32 key, v]

/-- The 31,296 bytes of the set. -/
def State.calBytes (s : State) : List Byte :=
  wordBytes ([at64 0 32 0x43414C42 ||| at64 32 32 1952, s.hstId, 0, 0, 0, 0, 0, 0] ++
    calKeys.flatMap (fun e =>
      calWords e.1 (b2n (find? s.store.cal (e.1 * 2 ^ 32 + e.2)).isSome) e.2 (s.calValue e.1 e.2)))

/-- CAL_EXPORT (R432). -/
def execCalExport (k : CmdRef) (s : State) : Answer :=
  .next (s.runCommand k 0x53 (fun c s => (s.bufWrite c.sub 0 s.calBytes).succeed k 31296 0))

/-- A calibration value is in range (R432). -/
def calRange (kind key : Nat) (v : Word) : Bool :=
  match kind with
  | 1 => 500 ≤ v.toNat && v.toNat ≤ 2500
  | 2 => fld v 16 48 == 0 && -1000 ≤ toSigned 16 (fld v 0 16) && toSigned 16 (fld v 0 16) ≤ 1000
  | 3 => v &&& 0x3F3F3F3F == v
  | 4 => fld v 32 32 == 0 && Config.stackParamOk (key % 8) (BitVec.ofNat 32 v.toNat)
  | _ => false

/-- Entry of an import: kind, key and value, and whether it breaks a rule of R434. -/
def calEntry (w0 v : Word) : Nat × Nat × Word × Bool :=
  let kind := fld w0 0 8
  let key := fld w0 32 32
  (kind, key, v, 1 < fld w0 8 8 || fld w0 16 16 != 0 || calCount kind ≤ key || !calRange kind key v)

/-- The bit of the capability word for a unit an entry names that the grade lacks (R379, R434). -/
def calAbsent (g : Grade) (kind key : Nat) : Option Nat :=
  let bit := match kind with
    | 1 => some (key / 18 / 4)
    | 2 => some (key / 4 / 4)
    | 3 => if 272 ≤ key then some 56 else none
    | _ => some (16 + key / 8)
  bit.filter (fun b => !(capWord g).getLsbD b)

/-- CAL_IMPORT (R434). -/
def execCalImport (k : CmdRef) (s : State) : Answer :=
  .next (s.runCommand k 0x54 (fun c s =>
    let es := (List.range (c.sub.bufLen.toNat / 16)).map (fun i =>
      calEntry (s.bufWord c.sub (16 * i)) (s.bufWord c.sub (16 * i + 8)))
    match es.findIdx? (fun e => e.2.2.2), es.findSome? (fun e => calAbsent s.grade e.1 e.2.1) with
    | some i, _ => s.refuse k stBadField (r1Entry i)
    | none, some b => s.refuse k stNotPresent (at64 0 32 b)
    | none, none =>
      if s.store.full [2 * es.length] then s
      else if s.store.verifyFails then (s.ack k).storeFailed k 0
      else
      let s := s.ack k
      let cal := es.foldl (fun (t : Table Word) e => put t (e.1 * 2 ^ 32 + e.2.1) e.2.2.1) s.store.cal
      let body := es.flatMap (fun e => calWords e.1 1 e.2.1 e.2.2.1)
      (({ s with store := { s.store with cal := cal } } : State).journalAppend jkCal 0 body).succeed k
        (BitVec.ofNat 64 es.length) 0))

/-! ## Attestation (R441 to R446) -/

/-- The fabric set in the layout of FABRIC_SET. -/
def State.fabricBytes (s : State) : List Byte :=
  wordBytes (s.fabric.ports.toList.map (fun p => p.cfg) ++ [at64 0 12 s.fabric.node.toNat] ++
    (List.range 4096).map (fun n => s.route n))

/-- Every register of the bound set in ascending address. -/
def State.boundBytes (s : State) : List Byte :=
  wordBytes ([at64 0 9 s.plant.pcap.toNat, s.tiers.bounds] ++ (List.range 64).map (fun q => (s.quad q).rateBounds) ++
    (List.range 64).map (fun q => (s.quad q).thermBounds) ++ s.fabric.eqBounds.toList)

/-- IDE is secure on a port: both its streams are (R445, R447; DEDUCED, log 60). -/
def CxlPort.ideSecure (p : CxlPort) : Bool := p.io.secure && p.cachemem.secure

/-- Report bytes 0x000 to 0x17F (R445). -/
def State.reportHead (s : State) (nonce : List Byte) : List Byte :=
  let slot := (s.store.slots[s.store.loaded.toNat]?).getD {}
  wordBytes [at64 0 32 0x41545354 ||| at64 32 16 1, BitVec.ofNat 64 s.nemar.usec] ++ nonce ++
    (List.range 16).map Config.serialByte ++
    wordBytes [s.hstId, capWord s.grade, at64 0 4 s.store.loaded.toNat ||| at64 32 32 slot.version.toNat,
      BitVec.ofNat 64 (s.store.jseq - 1)] ++
    (List.range 32).map (fun i => slot.digest.getD i 0) ++ (List.range 32).map Config.romDigestByte ++
    sha256 s.calBytes ++ sha256 s.faultMapBytes ++ sha256 s.fabricBytes ++ sha256 s.boundBytes ++ s.nemar.sections ++
    wordBytes [BitVec.ofNat 64 s.nemar.nsect, flag64 0 (s.cxl 0).ideSecure ||| flag64 1 (s.cxl 1).ideSecure] ++
    List.replicate 48 0

/-- The whole report with the signature of index q; `top` is the top tree's signature that Nemar holds. -/
def reportBytes (q : Nat) (top head : List Byte) : List Byte :=
  let n := Config.certLen % 8193
  head ++ hssSignature q top head ++ List.replicate 12 0 ++ toBytes 4 n ++
    List.replicate 60 0 ++ (List.range n).map Config.certByte

/-- Steps 3 and 4 once the lower tree of the index is in memory (R443). -/
def State.signReport (s : State) : State :=
  match s.store.attest with
  | none => s
  | some (k, q, head) =>
    let t := q / 32768
    let s := if s.store.tree != some t && s.store.treeNext == some t then
        { s with store := { s.store with tree := some t, topSig := s.store.topSigNext, treeNext := none, topSigNext := [] } }
      else s
    if s.store.tree != some t then s
    else
      let s := { s with store := { s.store with attest := none, treeUsed := some t } }
      match s.command k with
      | none => s
      | some c =>
        if !s.bufUp c.sub then s.refuse k stHostBuffer (r1Word 2)
        else (s.bufWrite c.sub 0 (reportBytes q s.store.topSig head)).succeed k (BitVec.ofNat 64 (Config.signatures - (q + 1))) 0

/-- The next index calls for a SIGIDX record before it is used (R442). -/
def Store.indexDue (st : Store) : Bool := st.sigIdx % 16 == 0 || decide (st.sigNext ≤ st.sigIdx)

/-- Takes the next index, committing SIGIDX when R442 calls for it. -/
def State.takeIndex (s : State) : State :=
  let q := s.store.sigIdx
  let s := if s.store.indexDue then
      let next := q + 16 - q % 16
      ({ s with store := { s.store with sigNext := next } } : State).journalAppend jkSigidx 0 [BitVec.ofNat 64 next, 0]
    else s
  { s with store := { s.store with sigIdx := q + 1 } }

/-- ATTEST (R444); while an earlier one waits for its lower tree the row does nothing yet. -/
def execAttest (k : CmdRef) (s : State) : Answer :=
  .next (s.runCommand k 0x52 (fun c s =>
    if s.store.attest.isSome then s
    else if s.signaturesLeft = 0 then s.refuse k stSigExhausted 0
    else if s.store.full [2] && s.store.indexDue then s
    else if s.store.verifyFails && s.store.indexDue then (s.ack k).storeFailed k 0
    else
      let head := s.reportHead (s.bufRead c.sub 0 32)
      let q := s.store.sigIdx
      let s := (s.ack k).takeIndex
      ({ s with store := { s.store with attest := some (k, q, head) } } : State).signReport))

/-- LOWER_TREE_BUILD (R443): the lower tree of the next index, or of the ATTEST that waits; once signing has moved into it, the
one after it. The top tree's signature over its public key is made with it. -/
def execLowerTreeBuild (s : State) : Answer :=
  let q := match s.store.attest with
    | some (_, q, _) => q
    | none => s.store.sigIdx
  let t := q / 32768
  .next (if !(s.host.state == .mgmt || s.host.state == .ready) then s
    else if s.store.tree != some t && s.store.treeNext != some t then
      ({ s with store := { s.store with
          tree := some t, topSig := topSignature t, treeNext := none, topSigNext := [] } } : State).signReport
    else if s.store.treeNext.isNone && s.store.treeUsed == some t && t + 1 < 1024 then
      { s with store := { s.store with treeNext := some (t + 1), topSigNext := topSignature (t + 1) } }
    else s)

/-! ## The journal (R427 to R429) -/

/-- A record as it stands in the flash: header, body, commit block (R427). Its CRC is that of `crc32c` (log 132). -/
def JournalRecord.bytes (r : JournalRecord) : List Byte :=
  let body := wordBytes r.body ++ List.replicate (8 * (r.body.length % 2)) 0
  let head := wordBytes [BitVec.ofNat 64 r.jseq, at64 0 16 r.kind.toNat ||| at64 32 32 body.length]
  head ++ wordBytes [at64 0 32 (crc32c (head ++ body)).toNat, 0] ++ body ++ wordBytes [~~~(BitVec.ofNat 64 r.jseq), 0]

/-- The active half as it stands in the flash: its 4 KiB header (R426), then its records. -/
def Store.half (st : Store) : List Byte :=
  let head := wordBytes [0x4A524E4C, BitVec.ofNat 64 st.gen]
  head ++ toBytes 4 (crc32c head).toNat ++ List.replicate 4076 0 ++ st.journal.flatMap JournalRecord.bytes

/-- The entries of a CAL record's body: two words each. -/
def calEntries : List Word → List (Word × Word)
  | a :: b :: t => (a, b) :: calEntries t
  | _ => []

/-- The calibration value that an entry is of: kind × 2^32 + key. -/
def calKeyOf (e : Word × Word) : Nat := fld e.1 0 8 * 2 ^ 32 + fld e.1 32 32

/-- What of a record still is a present value, given the records after it: of a CAL record those entries that no later one
overwrites, of the EVENT records the newest 262,144 (R429). -/
def recordLive (r : JournalRecord) (later : List JournalRecord) : Option JournalRecord :=
  if r.kind = jkEvent then (if (later.filter (fun x => x.kind == jkEvent)).length < 262144 then some r else none)
  else if r.kind = jkCompacted then none
  else if r.kind = jkCal then
    let taken := later.flatMap (fun x => if x.kind = jkCal then (calEntries x.body).map calKeyOf else [])
    let es := (calEntries r.body).filter (fun e => !taken.contains (calKeyOf e))
    if es.isEmpty then none else some { r with body := es.flatMap (fun e => [e.1, e.2]) }
  else if later.any (fun x => x.kind == r.kind && x.key == r.key) then none
  else some r

/-- The records that compaction keeps, each with its JSEQ. -/
def liveRecords : List JournalRecord → List JournalRecord
  | [] => []
  | r :: t => (recordLive r t).toList ++ liveRecords t

/-- Step 1 of R429: the alternate half is erased, and the newest JSEQ noted. -/
def Store.startCompaction (st : Store) : Store :=
  { st with other := none, compaction := some { next := st.jseq } }

/-- Step 2: the live records of the snapshot. -/
def Store.copyLive (st : Store) (c : Compaction) : Store :=
  { st with compaction := some { c with
      records := liveRecords (st.journal.filter (fun r => r.jseq < c.next)), step := 2 } }

/-- Steps 3 and 4: the records committed since, COMPACTED, and the header with the next GEN make the alternate half the active
one, whose flash is sound; the old half stands until step 5. -/
def Store.switchHalf (st : Store) (c : Compaction) : Store :=
  let rs := c.records ++ st.journal.filter (fun r => c.next ≤ r.jseq) ++
    [⟨st.jseq, jkCompacted, 0, [BitVec.ofNat 64 (c.next - 1), 0]⟩]
  { st with
    journal := rs, jseq := st.jseq + 1, used := usedBy rs, gen := st.gen + 1, halfB := !st.halfB
    other := some ⟨st.gen, st.journal, st.used⟩, compaction := some { c with records := [], step := 4 }
    compactDue := false, verifyWeak := false, verifyFails := false }

/-- The records that have waited are written, and those of the fault map that failed. -/
def State.writeWaiting (s : State) : State :=
  let ws := s.store.waiting
  let ks := s.store.unrecorded
  let s := ws.foldl (fun (t : State) x => t.journalAppend x.1 x.2.1 x.2.2) { s with store := { s.store with waiting := [] } }
  ks.foldl (fun (t : State) k => t.recordFault k) s

/-- JOURNAL_COMPACTION (R429): the next step of a compaction; one starts once it is due. -/
def execJournalCompaction (s : State) : Answer :=
  .next (if !s.managed then s
    else match s.store.compaction with
    | none => if s.store.compactDue then { s with store := s.store.startCompaction } else s
    | some c =>
      if c.step = 1 then { s with store := s.store.copyLive c }
      else if c.step = 2 then ({ s with store := s.store.switchHalf c } : State).writeWaiting.advanceReplacements
      else { s with store := { s.store with other := none, compaction := none } })

/-- COUNTERS_RECORD (R427): every 60 s, once Nemar runs. -/
def execCountersRecord (s : State) : Answer :=
  .next (if s.plant.powerGood && 2 ≤ s.plant.bootStep then s.recordCounters else s)

end Sys2Proof.Machine
end

