-- ==== Sys2Proof/Machine/BringUp.lean ====
section
/-! DEFINITION. Machine/BringUp.lean: power-on and the bring-up sequence (R420 to R423, R426, R431, R461). -/

namespace Sys2Proof.Machine

/-- POWER_ON (R442, R461): power good. -/
def execPowerOn (s : State) : Answer :=
  .next (if s.plant.powerGood then s
    else { s with
      plant := { s.plant with powerGood := true, bootStep := 0 }
      store := { s.store with powerOns := s.store.powerOns + 1, sigIdx := s.store.sigNext } })

/-! ## Mounting the journal (R426, R427) -/

/-- A half as the ROM reads it: its scan stops at the record that the report names. -/
def JournalHalf.scanned (h : JournalHalf) (t : BootReport) : JournalHalf :=
  match t.badRecord with
  | none => h
  | some n => if h.records.length ≤ n then h else { h with records := h.records.take n, used := usedBy (h.records.take n) }

/-- The half taken as active, and the one left beside it: of the halves with a valid header the one with the higher GEN. -/
def Store.choose (st : Store) (t : BootReport) : Option (Bool × JournalHalf × Option JournalHalf) :=
  let bad := fun (b : Bool) => t.badHalves.any (fun x => x.toNat == b2n b)
  let a := if bad st.halfB then none else some (⟨st.gen, st.journal, st.used⟩ : JournalHalf)
  let o := st.other.filter (fun _ => !bad (!st.halfB))
  match a, o with
  | some x, some y => if x.gen < y.gen then some (!st.halfB, y, some x) else some (st.halfB, x, some y)
  | some x, none => some (st.halfB, x, none)
  | none, some y => some (!st.halfB, y, none)
  | none, none => none

/-- The slot that a SLOT record describes; the image's bytes lie in the flash beside the journal (R430). -/
def FwSlot.recorded (x : FwSlot) (ws : List Word) : FwSlot :=
  let w := fun (i : Nat) => ws.getD i 0
  { x with state := BitVec.ofNat 8 (fld (w 0) 0 8), version := BitVec.ofNat 32 (fld (w 0) 32 32), length := fld (w 1) 0 32,
           digest := (List.range 4).flatMap (fun i => toBytes 8 (w (4 + i)).toNat) }

/-- The row that an entry of the fault map describes: its third lasting fault marks it out (R18). -/
def rowOfEntry (w0 w1 : Word) : Row :=
  let faults := (List.range 34).filter (bit w0)
  { faults := faults, routers := (List.range 34).filter (bit w1), rowOut := decide (2 < faults.length) }

/-- A FAULT record's entry becomes the present one. -/
def State.replayFault (s : State) (r : JournalRecord) : State :=
  let w := fun (i : Nat) => r.body.getD i 0
  let s := { s with store := { s.store with faultJseq := r.jseq } }
  if r.key < 512 then { s with plant := { s.plant with rows := put s.plant.rows r.key (rowOfEntry (w 2) (w 3)) } }
  else
    let q := r.key - 512
    let s := s.setQuad q { s.quad q with slow := bit (w 2) 0 }
    if bit (w 2) 1 then { s with plant := { s.plant with dieOutMap := addNum s.plant.dieOutMap (q / 4) } } else s

/-- A record's values become the present ones: the newest record of each kind and key stands (R427). -/
def State.replay (s : State) (r : JournalRecord) : State :=
  let w := fun (i : Nat) => r.body.getD i 0
  if r.kind = jkCal then
    { s with store := { s.store with cal := (calEntries r.body).foldl (fun t e => put t (calKeyOf e) e.2) s.store.cal } }
  else if r.kind = jkFault then s.replayFault r
  else if r.kind = jkSlot then
    { s with store := { s.store with slots := s.store.slots.setIfInBounds r.key ((s.store.slot r.key).recorded r.body) } }
  else if r.kind = jkBootsel then
    { s with store := { s.store with active := BitVec.ofNat 4 (fld (w 0) 0 4), fallback := BitVec.ofNat 4 (fld (w 0) 4 4) } }
  else if r.kind = jkSigidx then { s with store := { s.store with sigNext := (w 0).toNat, sigIdx := (w 0).toNat } }
  else if r.kind = jkCounters then
    { s with store := { s.store with powerOns := (w 0).toNat + 1, minutes := (w 1).toNat, lifeTransient := (w 2).toNat,
                                     lifeLasting := (w 3).toNat } }
  else s

/-- A slot whose record the journal does not hold is as the factory left it, or empty. -/
def FwSlot.unrecorded (x : FwSlot) (i : Nat) : FwSlot :=
  { x with state := if i = 0 then 1 else 0, version := 0, length := 0, digest := [] }

/-- What the ROM mounts (R426): the active half's records give every value of the store over the factory's. Without a valid
half it mounts nothing. -/
def State.mount (s : State) (t : BootReport) : Option State :=
  (s.store.choose t).map (fun c =>
    let h := c.2.1.scanned t
    let next := (h.records.getLast?.map (fun r => r.jseq + 1)).getD (if h.records = c.2.1.records then s.store.jseq else 0)
    let st := { s.store with
      journal := h.records, jseq := next, used := h.used, gen := h.gen, halfB := c.1, other := c.2.2
      slots := Vector.ofFn (fun i => (s.store.slots[i]).unrecorded i), active := 0, fallback := 0
      sigNext := 0, sigIdx := 0, cal := [], powerOns := 1, minutes := 0, lifeTransient := 0, lifeLasting := 0
      faultJseq := 0 }
    h.records.foldl (fun (u : State) r => u.replay r)
      { s with store := st, plant := { s.plant with rows := [], quads := [], dieOutMap := [] } })

/-! ## Loading the firmware (R430, R431) -/

/-- Puts a slot into a list kept by falling version. -/
def Store.insertByVersion (st : Store) (i : Nat) : List Nat → List Nat
  | [] => [i]
  | k :: ks => if st.version k ≤ st.version i then i :: k :: ks else k :: st.insertByVersion i ks

/-- The order in which the ROM tries the slots: ACTIVE, then FALLBACK, whatever their records say, then the other VALID ones
in descending version. -/
def Store.bootOrder (st : Store) : List Nat :=
  let a := st.active.toNat
  let b := st.fallback.toNat
  let rest := ((List.range 4).filter (fun i => i != a && i != b && st.valid i)).foldr st.insertByVersion []
  a :: (if a = b then rest else b :: rest)

/-- The image that slot i holds verifies: digest and signature (R431, R437). The factory's image, whose bytes the manual does
not give, verifies unless it has spoilt (DESIGN CHOICE, log 47). -/
def Store.verifies (st : Store) (t : BootReport) (i : Nat) : Bool :=
  let x := st.slot i
  !t.spoilt.any (fun k => k.toNat == i) &&
    (x.factory || (imageVerified x.image && sha256 x.image == x.digest))

/-- The ROM tries slots in order and loads the first whose image verifies. A slot that fails is recorded BAD, and
logged under IMAGE_SIG (DESIGN CHOICE, log 47: R382 gives the boot no record code). -/
def State.tryBoot (t : BootReport) : List Nat → State → State × Option Nat
  | [], s => (s, none)
  | i :: is, s =>
    if s.store.verifies t i then (s, some i)
    else
      let s := s.writeSlot i { s.store.slot i with state := 2 }
      State.tryBoot t is (s.logEvent { code := stImageSig, srcKind := 9, srcId := 0 } (BitVec.ofNat 64 i) 0 0 0)

/-- Row 1: the journal is mounted, and the firmware loaded; where either fails the sequence goes no further (R423). -/
def State.romBoot (s : State) (t : BootReport) : State :=
  match s.mount t with
  | none => s
  | some s =>
    match s.tryBoot t s.store.bootOrder with
    | (s, some i) => { s with store := { s.store with loaded := BitVec.ofNat 4 i }, plant := { s.plant with bootStep := 1 } }
    | (s, none) => s

/-! ## One die (R421 to R423) -/

/-- The inner dies. -/
def innerDies : List Nat := [5, 6, 9, 10]

/-- Quadrants of a die in the order of its bring-up: nearest the edge die that serves it first (R421). -/
def quadOrder (d : Nat) : List Nat :=
  (if d < 4 || d = 5 || d = 6 then [0, 1, 2, 3]
   else if 12 ≤ d || d = 9 || d = 10 then [2, 3, 0, 1]
   else if d % 4 = 0 then [0, 2, 1, 3]
   else [1, 3, 0, 2]).map (4 * d + ·)

/-- A core or router that failed its self-test twice enters the fault map (R422). -/
def State.bootFault (s : State) (p : Nat) (router : Bool) : State :=
  let w := look s.plant.rows (rowOf p) ({} : Row)
  let c := physColOf p
  if w.faults.contains c && (!router || w.routers.contains c) then s
  else
    let s := s.failSelfTest p
    s.writeRow (rowOf p) { w with faults := addNum w.faults c,
                                  routers := if router then addNum w.routers c else w.routers }

/-- Row k's map from the fault map (R32); a row's third lasting fault marks it out (R18). A fault that no record holds yet waits
for its record (R428). -/
def State.loadRow (s : State) (k : Nat) : State :=
  match find? s.plant.rows k with
  | none => s
  | some w =>
    let out := w.rowOut || decide (2 < w.faults.length)
    let s := if out && !w.rowOut then s.writeRow k { w with rowOut := true } else s
    let w := { w with rowOut := out, inForce := if out then [] else w.faults, inForceOut := out }
    if s.store.faultOwed k then s else { s with plant := { s.plant with rows := put s.plant.rows k w } }

/-- Routers of faulty cores pass traffic through, or are isolated when they failed themselves (R17, R394). -/
def State.loadRouters (s : State) (k : Nat) : State :=
  let w := look s.plant.rows k ({} : Row)
  w.faults.foldl (fun (t : State) c =>
    let p := k / 32 * 1088 + k % 32 * 34 + c
    t.setRouter p { t.router p with pass := true, isolated := w.routers.contains c }) s

/-- A quadrant below R45: SLOW in the fault map, and at each bring-up that finds it so a LASTING record of the die (R392,
R422). -/
def State.markSlow (s : State) (q : Nat) : State :=
  let t := s.setQuad q { s.quad q with slow := true }
  (if (s.quad q).slow then t else t.recordFault (512 + q)).logError true 2 (q / 4) errSelfTest q 0 none

/-- A die that cannot be brought up: every row of it is marked out in the fault map, which the row maps show, its routers
are dark, and the cause is logged (R423). On a later power-on the die is tried again, so a row's own ROW_OUT stays what R18
makes it. -/
def State.dieFails (s : State) (d : Nat) : State :=
  let known := s.plant.dieOutMap.contains d
  let s := { s with plant := { s.plant with dieOut := addNum s.plant.dieOut d, dieOutMap := addNum s.plant.dieOutMap d } }
  let s := s.logError true 2 d errSelfTest (4 * d) 0 none
  let s := (rangeFrom (d * 32) 32).foldl (fun (t : State) k =>
    let w := look t.plant.rows k ({} : Row)
    let t := { t with plant := { t.plant with rows := put t.plant.rows k { w with inForce := [], inForceOut := true } } }
    if known then t else t.recordFault k) s
  let s := if known then s else (rangeFrom (512 + 4 * d) 4).foldl (fun (t : State) k => t.recordFault k) s
  (rangeFrom (d * 1088) 1088).foldl (fun (t : State) p => t.setRouter p { t.router p with isolated := true }) s

/-- A quadrant comes up, or with fewer than 18 working phases stays without power as one that is ebbed (R453). -/
def State.bootQuad (s : State) (q : Nat) : State :=
  if 18 ≤ (s.quad q).phases then s.startQuad q
  else
    let s := s.setQuad q { s.quad q with ebbed := true }
    (quadPhys q).foldl (fun (t : State) p => t.setRouter p { t.router p with
      pass := true, isolated := (t.router p).isolated || !keptRouter q p }) s

/-- An entry of a router's table in the bank that its epoch uses; a table has 136 entries in X and 128 in Y. -/
def Router.writeActive (r : Router) (e : RouteEntry) : Router :=
  if (if e.isY then 128 else 136) ≤ e.index.toNat then r else
  { r with table := put r.table (b2n r.active * 512 + b2n e.isY * 256 + e.index.toNat) e.entry }

/-- The routes planned for die d go into its routers (R296, R421). -/
def State.routeDie (s : State) (t : BootReport) (d : Nat) : State :=
  (t.entries.filter (fun e => physDie e.router.toNat == d)).foldl (fun (u : State) e =>
    u.setRouter e.router.toNat ((u.router e.router.toNat).writeActive e)) s

/-- The die's two stacks are trained with their calibrated timing (R421, R434). -/
def State.trainStacks (s : State) (d : Nat) : State :=
  [2 * d, 2 * d + 1].foldl (fun (t : State) k =>
    if stackExists t.grade k then
      let x := look t.plant.dram k ({} : Stack)
      { t with plant := { t.plant with dram := put t.plant.dram k { x with timing := t.calRun 4 (8 * k) 8 } } }
    else t) s

/-- Powers and tests the quadrants of a die that the grade has. -/
def State.bootCores (s : State) (t : BootReport) (d : Nat) : State :=
  let here := fun (ps : List PhysId) => (ps.map BitVec.toNat).filter (fun p => physDie p == d && p < 17408 &&
    !(look s.plant.rows (rowOf p) ({} : Row)).faults.contains (physColOf p))
  let s := (here t.retried).foldl (fun (u : State) p => u.logCoreError false p errSelfTest none) s
  (here t.failed).foldl (fun (u : State) p => u.bootFault p false) s

/-- Brings up die d (R421, R422). Of a die absent in the grade only the routers are powered and tested. -/
def State.bringUpDie (s : State) (t : BootReport) (d : Nat) : State :=
  if t.diesOut.any (fun x => x.toNat == d) then s.dieFails d
  else
    let alive := dieExists s.grade d
    let s := if alive then ((quadOrder d).foldl (fun (u : State) q => u.bootQuad q) s).relaxRails else s.fusedRails d
    let s := ((t.routers.map BitVec.toNat).filter (fun p => physDie p == d && p < 17408)).foldl
      (fun (u : State) p => u.bootFault p true) s
    let s := if alive then s.bootCores t d else s
    let s := (rangeFrom (d * 32) 32).foldl (fun (u : State) k => (u.loadRow k).loadRouters k) s
    let s := if alive then
        ((t.slow.filter (fun q => q.toNat / 4 == d)).foldl (fun (u : State) q => u.markSlow q.toNat) s).trainStacks d
      else s
    let s := s.routeDie t d
    { s with plant := { s.plant with meshUp := addNum s.plant.meshUp d, dieOut := dropNum s.plant.dieOut d } }

/-! ## The sequence (R420) -/

/-- A row of R420 is done. -/
def State.bootRow (s : State) (n : Nat) : State := { s with plant := { s.plant with bootStep := n } }

/-- Harts start from the loaded image. -/
def State.startHarts (s : State) (is : List Nat) : State := is.foldl (fun (t : State) i => t.setHart i .running) s

/-- The CXL ports that train: those the grade has, of edge dies that are not lost. -/
def State.cxlTraining (s : State) (t : BootReport) : List Nat :=
  (t.cxlUp.map BitVec.toNat).filter (fun p => cxlExists s.grade p && !s.cxlLost p)

/-- Trains the CXL ports that come up, with their calibrated presets: 64 GT/s, 16 lanes (R343; DESIGN CHOICE, log 48). -/
def State.trainCxl (s : State) (ps : List Nat) : State :=
  ps.foldl (fun (t : State) p =>
    t.portChange p { t.cxl p with up := true, speed := 6, width := 4, presets := t.calRun 3 (256 + 16 * p) 16 }) s

/-- Row 3: the deputies start and the CXL ports train. It fails where a deputy does not start, or no port comes up. -/
def State.bootDeputies (s : State) (t : BootReport) : State :=
  if t.deputyFails || s.plant.edgeLost.toList.any id || (s.cxlTraining t).isEmpty then s
  else (((s.startHarts [4, 5, 6]).trainCxl (s.cxlTraining t)).bootRow 3).releaseHeld

/-- Row 7: the module's routes are planned (R296), and the placement table is unmapped. -/
def State.bootRoutes (s : State) (t : BootReport) : State :=
  let p : RoutePlan := { trigger := .bringUp, entries := t.entries, unreachable := t.unreached }
  if !s.planMeets p then s
  else
    let un := t.unreached.foldl (fun u l => addNum u l.toNat) []
    let s := t.entries.foldl (fun (u : State) e =>
      u.setRouter e.router.toNat ((u.router e.router.toNat).writeActive e)) s
    (({ s with tiers := { s.tiers with pt := [] }, nemar := { s.nemar with unreached := un } } : State).bootRow
      7).setHState .ready

/-- BRING_UP (R420 to R423): carries out the next row of the sequence; row 1, 3 or 7 that fails leaves it where it is. The report
says what the flash does from then on (R428), also once the module is READY. -/
def execBringUp (t : BootReport) (s : State) : Answer :=
  .next (if !s.managed then s
    else
      let s := { s with store := { s.store with verifyWeak := t.verifyWeak, verifyFails := t.verifyFails } }
      match s.plant.bootStep with
      | 0 => s.romBoot t
      | 1 => ((s.startHarts [0, 1, 2, 3]).bootRow 2).recordCounters
      | 2 => s.bootDeputies t
      | 3 => (s.bootRow 4).setHState .mgmt
      | 4 =>
        let ds := (List.range 16).filter (fun d => !innerDies.contains d)
        (ds.foldl (fun (u : State) d => u.bringUpDie t d) s).bootRow 5
      | 5 => (innerDies.foldl (fun (u : State) d => u.bringUpDie t d) s).bootRow 6
      | 6 => s.bootRoutes t
      | _ => s)

end Sys2Proof.Machine
end

