-- ==== Sys2Proof/Machine/EngineIssue.lean ====
section
/-! DEFINITION. Machine/EngineIssue.lean: the issue of the engine instructions: their checks, what they read at issue, their
start slots (R104, R105), and the acceptance of fetch and DMA instructions by handshake (R107, R194, R201). -/

namespace Sys2Proof.Machine

/-! ## Matrix -/

/-- Start slot S = max(i + 1, E + DELAY) (R105). -/
def startSlot (slot tail : Nat) (delay : BitVec 4) : Nat := Nat.max (slot + 1) (tail + delay.toNat)

/-- Places an instruction in the matrix queue (R104, R105). -/
def Core.queueMat (c : Core) (delay : BitVec 4) (occ : Nat) (op : MatOp) : Core :=
  let st := startSlot c.slot c.matTail delay
  { c with matQ := c.matQ ++ [⟨c.iss, st, occ, op⟩], matTail := st + occ,
           matFrom := if c.matTail ≤ c.slot then c.slot + 1 else c.matFrom }

/-- The matrix queue is full (R104). -/
def Core.matFull (c : Core) : Bool := Config.eqMatrix ≤ c.matQ.length

/-- MXFP4 is absent in the grade (R136, R151). -/
def mx4Absent (g : Grade) (fmts : List (BitVec 4)) : Bool := g == .s && fmts.contains 9

/-- MLOAD (R135 to R137): load plane P over 32 groups. -/
def execMload (c : CoreId) (f : FmtMload) (s : State) : Answer :=
  let l := c.toNat
  .next (s.issueEngine l (encMload f) Core.matFull
    (fun t => [(mloadIllegal (t.core l) f, causeIllegal), (mx4Absent t.grade [f.ifmt], causeAbsent)])
    (fun t =>
      let k := t.core l
      t.setCore l (k.queueMat f.delay 32 (.load (f.p == 1) (planeLoad f.isrc.toNat f.ifmt (k.getS f.sKM))))))

/-- The stream an MSTR or MSTRL names, its registers read at issue (R137). -/
def streamOf (k : Core) (f : FmtMstr) : RowStream :=
  { n := fld (k.getS f.sN) 0 16, b := fld (k.getS f.sB) 0 16, wsrc := f.wsrc.toNat, wssrc := f.wssrc.toNat,
    wfmt := f.wfmt, tree := f.acc == 1, base := f.accBase.toNat, depth := f.depth.toNat, last := f.last == 1,
    p := f.p == 1 }

/-- MSTR (R135 to R137): stream N weight rows through plane P. -/
def execMstr (c : CoreId) (f : FmtMstr) (s : State) : Answer :=
  let l := c.toNat
  .next (s.issueEngine l (encMstr 0x81 f) Core.matFull
    (fun t => [(mstrIllegal (t.core l) false f, causeIllegal), (mx4Absent t.grade [f.wfmt], causeAbsent)])
    (fun t =>
      let k := t.core l
      let w := streamOf k f
      t.setCore l (k.queueMat f.delay (Nat.max w.n 1) (.stream w none))))

/-- MSTRL (R135 to R137): as MSTR, while loading plane 1 − P. -/
def execMstrl (c : CoreId) (f : FmtMstr) (s : State) : Answer :=
  let l := c.toNat
  .next (s.issueEngine l (encMstr 0x82 f) Core.matFull
    (fun t => [(mstrIllegal (t.core l) true f, causeIllegal), (mx4Absent t.grade [f.wfmt, f.ifmt], causeAbsent)])
    (fun t =>
      let k := t.core l
      let w := streamOf k f
      t.setCore l (k.queueMat f.delay (Nat.max w.n 32)
        (.stream w (some (planeLoad f.isrc.toNat f.ifmt (k.getS f.sKM)))))))

/-- MMA (R145, R146, R151, R152): the walk enters the matrix queue, and its exact cost is written to sC, visible at i + 1. -/
def execMma (c : CoreId) (f : FmtMma) (s : State) : Answer :=
  let l := c.toNat
  .next (s.issueEngine l (encMma f) Core.matFull
    (fun t => [(mmaIllegal (t.core l) f, causeIllegal), (mx4Absent t.grade [f.wfmt, f.ifmt], causeAbsent)])
    (fun t =>
      let k := t.core l
      let w := walkOf f (k.getS f.sX) (k.getS f.sL)
      let cost := startSlot k.slot k.matTail f.delay + w.occ + w.extra - k.slot - 1
      t.setCore l ((k.queueMat f.delay w.occ (.walk w)).addPending
        ⟨k.slot + 1, k.iss, .sreg f.sC (BitVec.ofNat 64 cost)⟩)))

/-! ## Vector -/

/-- The vector queue is full (R104). -/
def Core.vecFull (c : Core) : Bool := Config.eqVector ≤ c.vecQ.length

/-- Issues a vector instruction by opcode: the causes of R165, R170, R182 and R183, then the vector queue (R105, R163). -/
def State.issueVec (s : State) (l op : Nat) (f : FmtV) : State :=
  s.issueEngine l (encV (BitVec.ofNat 8 op) f) Core.vecFull
    (fun t => [(vecIllegal (t.core l) op f, causeIllegal), (vecAbsent t.grade op f, causeAbsent),
               (vecRange (t.core l) op f, causeLdst)])
    (fun t =>
      let k := t.core l
      let o := vecOpOf k op f
      let st := startSlot k.slot k.vecTail f.delay
      let occ := Nat.max o.groups 1
      t.setCore l { k with vecQ := k.vecQ ++ [⟨k.iss, st, occ, o⟩], vecTail := st + occ,
                           vecFrom := if k.vecTail ≤ k.slot then k.slot + 1 else k.vecFrom })

/-- VADD: d = a + b. -/
def execVadd (c : CoreId) (f : FmtV) (s : State) : Answer := .next (s.issueVec c.toNat 0xA0 f)

/-- VSUB: d = a − b. -/
def execVsub (c : CoreId) (f : FmtV) (s : State) : Answer := .next (s.issueVec c.toNat 0xA1 f)

/-- VMUL: d = a × b. -/
def execVmul (c : CoreId) (f : FmtV) (s : State) : Answer := .next (s.issueVec c.toNat 0xA2 f)

/-- VFMA: d = a × b + c, rounded once. -/
def execVfma (c : CoreId) (f : FmtV) (s : State) : Answer := .next (s.issueVec c.toNat 0xA3 f)

/-- VDIV: d = a ÷ b. -/
def execVdiv (c : CoreId) (f : FmtV) (s : State) : Answer := .next (s.issueVec c.toNat 0xA4 f)

/-- VSQRT: d = √a. -/
def execVsqrt (c : CoreId) (f : FmtV) (s : State) : Answer := .next (s.issueVec c.toNat 0xA5 f)

/-- VRSQRT: d = 1 ÷ √a. -/
def execVrsqrt (c : CoreId) (f : FmtV) (s : State) : Answer := .next (s.issueVec c.toNat 0xA6 f)

/-- VEXP: d = e^a. -/
def execVexp (c : CoreId) (f : FmtV) (s : State) : Answer := .next (s.issueVec c.toNat 0xA7 f)

/-- VEXP2: d = 2^a. -/
def execVexp2 (c : CoreId) (f : FmtV) (s : State) : Answer := .next (s.issueVec c.toNat 0xA8 f)

/-- VLOG2: d = log₂ a. -/
def execVlog2 (c : CoreId) (f : FmtV) (s : State) : Answer := .next (s.issueVec c.toNat 0xA9 f)

/-- VTANH: d = tanh a. -/
def execVtanh (c : CoreId) (f : FmtV) (s : State) : Answer := .next (s.issueVec c.toNat 0xAA f)

/-- VMAX: d = max(a, b). -/
def execVmax (c : CoreId) (f : FmtV) (s : State) : Answer := .next (s.issueVec c.toNat 0xAB f)

/-- VMIN: d = min(a, b). -/
def execVmin (c : CoreId) (f : FmtV) (s : State) : Answer := .next (s.issueVec c.toNat 0xAC f)

/-- VABS: d = |a|. -/
def execVabs (c : CoreId) (f : FmtV) (s : State) : Answer := .next (s.issueVec c.toNat 0xAD f)

/-- VNEG: d = −a. -/
def execVneg (c : CoreId) (f : FmtV) (s : State) : Answer := .next (s.issueVec c.toNat 0xAE f)

/-- VCMPLT: d = 1 if a < b. -/
def execVcmplt (c : CoreId) (f : FmtV) (s : State) : Answer := .next (s.issueVec c.toNat 0xAF f)

/-- VCMPLE: d = 1 if a ≤ b. -/
def execVcmple (c : CoreId) (f : FmtV) (s : State) : Answer := .next (s.issueVec c.toNat 0xB0 f)

/-- VCMPEQ: d = 1 if a = b. -/
def execVcmpeq (c : CoreId) (f : FmtV) (s : State) : Answer := .next (s.issueVec c.toNat 0xB1 f)

/-- VISFIN: d = 1 if a is finite. -/
def execVisfin (c : CoreId) (f : FmtV) (s : State) : Answer := .next (s.issueVec c.toNat 0xB2 f)

/-- VSEL: d = a where c is active, else b. -/
def execVsel (c : CoreId) (f : FmtV) (s : State) : Answer := .next (s.issueVec c.toNat 0xB3 f)

/-- VMOV: d = a, bit for bit. -/
def execVmov (c : CoreId) (f : FmtV) (s : State) : Answer := .next (s.issueVec c.toNat 0xB4 f)

/-- VCVT: d = a converted from FMT to AUX (R169). -/
def execVcvt (c : CoreId) (f : FmtV) (s : State) : Answer := .next (s.issueVec c.toNat 0xB5 f)

/-- VSPLAT: d = the low bits of sS. -/
def execVsplat (c : CoreId) (f : FmtV) (s : State) : Answer := .next (s.issueVec c.toNat 0xB6 f)

/-- VIOTA: d = sS + e. -/
def execViota (c : CoreId) (f : FmtV) (s : State) : Answer := .next (s.issueVec c.toNat 0xB7 f)

/-- VRAND: d = a uniform draw. -/
def execVrand (c : CoreId) (f : FmtV) (s : State) : Answer := .next (s.issueVec c.toNat 0xB8 f)

/-- VPLD: d = pool-slice elements (R170). -/
def execVpld (c : CoreId) (f : FmtV) (s : State) : Answer := .next (s.issueVec c.toNat 0xB9 f)

/-- VPST: pool-slice elements = a (R170). -/
def execVpst (c : CoreId) (f : FmtV) (s : State) : Answer := .next (s.issueVec c.toNat 0xBA f)

/-- VFXADD: FX48 master plus FP32 delta (R171). -/
def execVfxadd (c : CoreId) (f : FmtV) (s : State) : Answer := .next (s.issueVec c.toNat 0xBB f)

/-- VBCR: a tile with a row vector (R173). -/
def execVbcr (c : CoreId) (f : FmtV) (s : State) : Answer := .next (s.issueVec c.toNat 0xC0 f)

/-- VBCC: a tile with a column vector (R173). -/
def execVbcc (c : CoreId) (f : FmtV) (s : State) : Answer := .next (s.issueVec c.toNat 0xC1 f)

/-- VRROW: each tile row reduced (R174). -/
def execVrrow (c : CoreId) (f : FmtV) (s : State) : Answer := .next (s.issueVec c.toNat 0xC2 f)

/-- VCOMPRESS: the active elements packed (R175). -/
def execVcompress (c : CoreId) (f : FmtV) (s : State) : Answer := .next (s.issueVec c.toNat 0xC4 f)

/-- VEXPAND: packed elements scattered (R176). -/
def execVexpand (c : CoreId) (f : FmtV) (s : State) : Answer := .next (s.issueVec c.toNat 0xC5 f)

/-- VRED: n elements reduced to sS (R177). -/
def execVred (c : CoreId) (f : FmtV) (s : State) : Answer := .next (s.issueVec c.toNat 0xC8 f)

/-- HFLUSH: the tap's counters added to a pool record (R182). -/
def execHflush (c : CoreId) (f : FmtV) (s : State) : Answer := .next (s.issueVec c.toNat 0xCC f)

/-! ## Fetch and DMA -/

/-- The pass in progress ends after the tiles already generated: the last of them is the last of its pass (R194). -/
def AddrGen.endPass (a : AddrGen) : AddrGen :=
  let a := { a with gated := false, indices := [], replay := [], dropIdx := if a.dropIdx = 0 then 0 else 32 }
  match a.left.reverse with
  | [] => { a with cur := none, told := 0, deq := 0 }
  | x :: t => { a with cur := none, left := (({ x with last := true } : GenTile) :: t).reverse }

/-- After a flood, the tile that was partly dequeued is the one a generator is generating: an FSTOP lets it finish (R194,
R210). -/
def AddrGen.finishTile (a : AddrGen) (p : Pass) (t : Nat) : AddrGen :=
  { a with cur := some ({ p with limit := some (t + 1) }, t), gated := false
           replay := a.replay.take (if a.indexed then a.tileRuns p.cnt else 0) }

/-- FSTOP's effect on a generator (R194): pending passes go, and it stops after the present tile; a WRITE generator in
the middle of a tile finishes it. A pass that it ends drops the rest of its present index entry (R190). -/
def AddrGen.fstop (a : AddrGen) : AddrGen :=
  let a := { a with passes := [], gated := a.gated && a.cur.isSome }
  if a.writes && 0 < a.wentries then { a with stopping := a.cur.isSome }
  else match a.cur with
  | none => a
  | some (p, t) =>
    if a.writes then { a with cur := none, told := 0, indices := [] }
    else if a.left.isEmpty && 0 < a.skip then a.finishTile p t else a.endPass

/-- The fetch engine accepts its instructions in issue order (R194): an FGO while its generator holds fewer than four
passes; an FSTOP discards the pending passes and stops the generator after the tile in progress. -/
def acceptFetches : List (Nat × Option Pass) → Core → Core
  | [], c => { c with fetchQ := [] }
  | (g, x) :: t, c =>
    let a := c.gen g
    match x with
    | some p =>
      if a.passes.length < Config.agPending then acceptFetches t (c.setGen g { a with passes := a.passes ++ [p] })
      else { c with fetchQ := (g, some p) :: t }
    | none => acceptFetches t (c.setGen g a.fstop)

/-- Acceptance of the fetch queue as far as it goes. -/
def Core.acceptFetch (c : Core) : Core := acceptFetches c.fetchQ c

/-- The DMA queue accepts its head while the named channel holds fewer than four chains (R201). -/
def acceptDmas : List (Nat × Nat × Nat) → Core → Core
  | [], c => { c with dmaQ := [] }
  | (ch, x) :: t, c =>
    let d := c.chan ch
    if d.chains.length < Config.dmaChains then acceptDmas t (c.setChan ch { d with chains := d.chains ++ [x] })
    else { c with dmaQ := (ch, x) :: t }

/-- Acceptance of the DMA queue as far as it goes. -/
def Core.acceptDma (c : Core) : Core := acceptDmas c.dmaQ c

/-- FGO (R193): one pass of generator G, with offset sOFF and outer count sCNT[23:0]. -/
def execFgo (c : CoreId) (f : FmtFgo) (s : State) : Answer :=
  let l := c.toNat
  .next (s.issueEngine l (encFgo f) (fun k => Config.eqFetch ≤ k.fetchQ.length)
    (fun t => [(f.delay != 0 || f.z != 0 || !((t.core l).gen f.g.toNat).en, causeIllegal)])
    (fun t =>
      let k := t.core l
      let p : Pass := { off := (k.getS f.sOff).toInt, cnt := fld (k.getS f.sCnt) 0 24, due := (s.core l).nextIssue + 3 }
      t.setCore l ({ k with fetchQ := k.fetchQ ++ [(f.g.toNat, some p)] } : Core).acceptFetch))

/-- FSTOP (R193, R194). -/
def execFstop (c : CoreId) (f : FmtFstop) (s : State) : Answer :=
  let l := c.toNat
  .next (s.issueEngine l (encFstop f) (fun k => Config.eqFetch ≤ k.fetchQ.length)
    (fun t => [(f.delay != 0 || f.z != 0 || !((t.core l).gen f.g.toNat).en, causeIllegal)])
    (fun t =>
      let k := t.core l
      t.setCore l ({ k with fetchQ := k.fetchQ ++ [(f.g.toNat, none)] } : Core).acceptFetch))

/-- DMA (R201): hands the chain at the offset in sD to a channel. -/
def execDma (c : CoreId) (f : FmtDma) (s : State) : Answer :=
  let l := c.toNat
  .next (s.issueEngine l (encDma f) (fun k => Config.eqDma ≤ k.dmaQ.length)
    (fun t =>
      let off := ((t.core l).getS f.sD).toNat
      [(f.delay != 0 || f.z != 0, causeIllegal), (off % 64 != 0 || 0x3FFFC0 < off, causeLdst)])
    (fun t =>
      let k := t.core l
      t.setCore l ({ k with dmaQ := k.dmaQ ++ [(f.ch.toNat, (k.getS f.sD).toNat, (s.core l).nextIssue + 3)] } : Core).acceptDma))

end Sys2Proof.Machine
end

