-- ==== Sys2Proof/Machine/Engines.lean ====
section
/-! DEFINITION. Machine/Engines.lean: the engines at work: the frame of their events (R39 to R41, R105, R106), a matrix
group and a tile of a walk (R126 to R133, R138, R140, R149, R152, R153), and the commands of both engines. -/

namespace Sys2Proof.Machine

/-! ## The frame of an engine event -/

/-- The slot of an engine's next event. -/
def Core.engineDue (c : Core) : Engine → Option Nat
  | .matrix => c.matDue
  | .vector => c.vecDue

/-- The other engine. -/
def otherEngine : Engine → Engine
  | .matrix => .vector
  | .vector => .matrix

/-- The slot at which engine e's next event may happen now: the other engine has none before it, and the control core
issues nothing before it. -/
def State.eventSlot (s : State) (l : Nat) (e : Engine) : Option Nat :=
  let c := s.core l
  match c.engineDue e with
  | some d =>
    let first := match c.engineDue (otherEngine e) with
      | some o => d ≤ o
      | none => true
    if s.live l && first && c.idleTo d then some d else none
  | none => none

/-! ## Dequeues of a matrix group (R129, R130, R138) -/

/-- What a dequeue of a matrix group fills. -/
inductive MatEntry where
  | weight
  | scale
  | row
  | planeScale
  deriving DecidableEq, Repr

/-- The dequeues of group g in order, each with its source code (R138). -/
def MatActive.needs (a : MatActive) : List (MatEntry × Nat) :=
  let g := a.g
  let w := match a.str with
    | some r =>
      if g < r.n then
        (if g % rowsPerEntry r.wfmt.toNat = 0 then [(MatEntry.weight, r.wsrc)] else []) ++
          (if isMx r.wfmt.toNat && g % 128 == 0 then [(MatEntry.scale, r.wssrc)] else [])
      else []
    | none => []
  let p := match a.ld with
    | some (_, q) =>
      (if g < q.kLen && g % 2 == 0 then [(MatEntry.row, q.src)] else []) ++
        (if g = 31 && isMx q.fmt.toNat then [(MatEntry.planeScale, q.src)] else [])
    | none => []
  w ++ p

/-- Stores a dequeued entry. -/
def MatActive.hold (a : MatActive) (k : MatEntry) (e : Entry) : MatActive :=
  match k with
  | .weight => { a with got := a.got + 1, wEnt := e }
  | .scale => { a with got := a.got + 1, sEnt := e }
  | .row => { a with got := a.got + 1, iEnt := e }
  | .planeScale => { a with got := a.got + 1, cEnt := e }

/-- Makes the dequeues of the present group in order as far as their sources go. -/
def takeNeeds : List (MatEntry × Nat) → Core → MatActive → Core × MatActive
  | [], c, a => (c, a)
  | (k, src) :: t, c, a =>
    match c.takeFrom src with
    | some (e, d) => takeNeeds t d (a.hold k e)
    | none => (c, a)

/-- The sources a matrix group waits on, for the stall counters (R41, R141). -/
def Core.matWaits (c : Core) : List (Nat × Nat) :=
  match c.matA with
  | some a =>
    if a.g < a.groups && a.start + a.g ≤ c.slot then
      ((a.needs.drop a.got).filter (fun n => !c.sourceReady n.2)).map (fun n => (1, n.2))
    else []
  | none => []

/-! ## A streamed row (R126, R133, R140) -/

/-- Bits [lo + n − 1 : lo] of an entry's data. -/
def Entry.bits (e : Entry) (lo n : Nat) : Nat := (e.data.toNat >>> lo) % 2 ^ n

/-- Any 128-bit sector that n bits at lo touch is marked (R197). -/
def Entry.badRange (e : Entry) (lo n : Nat) : Bool :=
  (rangeFrom (lo / 128) ((lo + n - 1) / 128 + 1 - lo / 128)).any (fun k => bit e.marks k)

/-- A weight row of a stream: its 32 elements, its scale, and its poison. -/
structure WeightRow where
  elems : List Fv
  scale : Nat
  bad : Bool
  deriving DecidableEq, Repr

/-- Weight row g of a stream from the entries held (R128, R130). -/
def MatActive.weightRow (a : MatActive) (r : RowStream) : WeightRow :=
  let code := r.wfmt.toNat
  let eb := elemBits code
  let j := a.g % rowsPerEntry code
  let q := a.g % 128
  { elems := (List.range 32).map (fun k => decodeElem code (a.wEnt.bits (j * 32 * eb + k * eb) eb)),
    scale := if isMx code then a.sEnt.bits (8 * q) 8 else 127,
    bad := a.wEnt.badRange (j * 32 * eb) (32 * eb) || (isMx code && a.sEnt.badRange (q / 32 * 256) 256) }

/-- The scale of a plane's column (R125). -/
def Plane.scale (p : Plane) (m : Nat) : Nat :=
  if isMx p.fmt.toNat then fld p.scales (8 * m) 8 else 127

/-- The poison of 32 columns of a plane for every row streamed through it (R140). -/
def Plane.bad (p : Plane) (j : Nat) : Bool :=
  (List.range p.kLen).any (fun k => p.rowMarks.contains (k * 4 + j)) ||
    (isMx p.fmt.toNat && (bit p.scaleMarks (2 * j) || bit p.scaleMarks (2 * j + 1)))

/-- Element (k, m) of a plane. -/
def Plane.elem (p : Plane) (k m : Nat) : Fv :=
  let eb := elemBits p.fmt.toNat
  decodeElem p.fmt.toNat (fld (look p.rows k 0) (m * eb) eb)

/-- The block sum of column m (R126), masked rows taking no part (R127). -/
def blockSumAt (p : Plane) (w : WeightRow) (m : Nat) : Nat :=
  let prods := ((w.elems.take p.kLen).zipIdx).map (fun x => Fv.mul x.1 (p.elem x.2 m))
  if 0 < p.kLen && (w.scale = 0xFF || p.scale m = 0xFF) then 0x7FC00000
  else blockSum prods ((w.scale : Int) + p.scale m - 254)

/-- Line of level lv, row r, part j of a tree (R132, R133). -/
def RowStream.line (r : RowStream) (lv row j : Nat) : Nat :=
  (r.base + (lv * r.n + row) * linesPerRow r.wfmt.toNat + j) % Config.accLines

/-- Levels a block index carries through: its trailing ones, at most L. -/
def carryLevels (b : Nat) : Nat → Nat → Nat
  | 0, l => l
  | k + 1, l => if b / 2 ^ l % 2 = 1 then carryLevels b k (l + 1) else l

/-- The levels a row reads and the level it writes (R133). -/
def RowStream.treePlan (r : RowStream) : List Nat × Nat :=
  let lv := r.depth + 1
  let b := r.b % 2 ^ lv
  let l := carryLevels b lv 0
  if r.last then
    (List.range l ++ (rangeFrom (l + 1) (lv - (l + 1))).filter (fun j => b / 2 ^ j % 2 = 1), 0)
  else (List.range l, l)

/-- Result line j of a streamed row: where it is written, its active elements with their sums, and its poison. -/
def Core.rowLine (c : Core) (r : RowStream) (row : Nat) (p : Plane) (w : WeightRow) (j : Nat) : Effect :=
  let clash := fmtClass r.wfmt.toNat ≠ fmtClass p.fmt.toNat
  let ms := rangeFrom (32 * j) (Nat.min 32 (p.mLen - 32 * j))
  let plan := if r.tree then r.treePlan else ([], 0)
  let reads := plan.1.map (fun lv => r.line lv row j)
  let vals := ms.map (fun m =>
    let v := if clash then 0x7FC00000 else blockSumAt p w m
    (m - 32 * j, BitVec.ofNat 32 (reads.foldl (fun x ln => addFp32 (c.accElem ln (m - 32 * j)) x) v)))
  .accLine (r.line plan.2 row j) vals (w.bad || p.bad j || reads.any c.accBad)

/-- The results of group g of a stream (R133, R138, R153): its lines, and in QUEUE mode their entries. Where the classes of
weights and plane differ, w is that of the weights' format and the columns are the plane's (DESIGN CHOICE, log 121). -/
def Core.rowResults (c : Core) (a : MatActive) (r : RowStream) : List Pending :=
  if a.g < r.n then
    let p := if r.p then c.plane1 else c.plane0
    let w := a.weightRow r
    let n := linesPerRow r.wfmt.toNat
    let vis := a.start + a.g + 12
    let js := (List.range n).filter (fun j => 32 * j < p.mLen)
    js.map (fun j => ⟨vis, a.iss, c.rowLine r a.g p w j⟩) ++
      (match r.oq with
       | some q =>
         (List.range n).map (fun j => ⟨vis, a.iss, .enqueueLine (8 + q.toNat) (r.line 0 a.g j) (n - j)⟩)
       | none => [])
  else []

/-- The load half of group g: plane row g taken, and at group 31 the whole load made usable at S + 33 (R129, R138). -/
def MatActive.loadGroup (a : MatActive) : MatActive × List Pending :=
  match a.ld with
  | some (side, q) =>
    let code := q.fmt.toNat
    let b := mMax code * elemBits code
    let lo := a.g % 2 * b
    let blk := 32 * elemBits code
    let f := a.filling
    let f := if a.g < q.kLen then
        { f with
          rows := put f.rows a.g (BitVec.ofNat 512 (a.iEnt.bits lo b)),
          rowMarks := (List.range (mMax code / 32)).foldl (fun t j =>
            if a.iEnt.badRange (lo + j * blk) blk then addNum t (a.g * 4 + j) else t) f.rowMarks }
      else f
    if a.g = 31 then
      let mx := isMx code
      let f := { f with fmt := q.fmt, kLen := q.kLen, mLen := q.mLen, scales := if mx then a.cEnt.data else 0,
                        scaleMarks := if mx then a.cEnt.marks else 0 }
      ({ a with filling := f }, [⟨a.start + 33, a.iss, .plane side f⟩])
    else ({ a with filling := f }, [])
  | none => (a, [])

/-- The matrix instruction in hand is complete. -/
def MatActive.complete (a : MatActive) : Bool := a.groups ≤ a.g && a.walk.isNone

/-- One matrix group at the open slot: its dequeues, then its results; one that waits stretches the slot by a beat. -/
def Core.matGroup (c : Core) (a : MatActive) : Core :=
  let r := takeNeeds (a.needs.drop a.got) c a
  let c := if r.2.got = a.got then r.1 else { r.1 with starvedTicks := 0, starved := false }
  let a := r.2
  if a.got < a.needs.length then { c with matA := some a }
  else
    let p := match a.str with
      | some st => c.rowResults a st
      | none => []
    let clash := match a.str with
      | some st => a.g < st.n && fmtClass st.wfmt.toNat ≠ fmtClass (if st.p then c.plane1 else c.plane0).fmt.toNat
      | none => false
    let ld := a.loadGroup
    let b : MatActive := { ld.1 with g := a.g + 1, got := 0 }
    let c := { c with matA := if b.complete then none else some b, classErr := c.classErr || clash }
    c.addPendings (p ++ ld.2)

/-! ## Tiles of a walk (R147 to R152) -/

/-- Tile t of a walk as (mt, ci, kt) (R148). -/
def Walk.at (w : Walk) (t : Nat) : Nat × Nat × Nat :=
  (t / (w.nnMax * w.nkMax), t / w.nkMax % w.nnMax, t % w.nkMax)

/-- A tile is computed. -/
def Walk.isComputed (w : Walk) (t : Nat) : Bool :=
  let p := w.at t
  t < w.tiles && p.1 < w.nm && p.2.1 < w.nn && p.2.2 < w.nk

/-- The next computed tile after t, from the walk's order. -/
def Walk.nextComputed (w : Walk) (t : Nat) : Option Nat :=
  let p := w.at t
  if p.2.2 + 1 < w.nk then some (t + 1)
  else if p.2.1 + 1 < w.nn then some ((p.1 * w.nnMax + p.2.1 + 1) * w.nkMax)
  else if p.1 + 1 < w.nm then some ((p.1 + 1) * w.nnMax * w.nkMax)
  else none

/-- The plane load of a computed tile (R149). -/
def Walk.loadOf (w : Walk) (t : Nat) : PlaneLoad :=
  let p := w.at t
  { src := w.isrc, fmt := w.ifmt, kLen := Nat.min 32 (w.k - 32 * p.2.2), mLen := Nat.min w.mw (w.m - w.mw * p.1) }

/-- The stream of a computed tile through a plane (R149). -/
def Walk.streamOf (w : Walk) (t : Nat) (plane : Bool) : RowStream :=
  let p := w.at t
  let last := p.2.2 + 1 == w.nk
  { n := w.rows p.2.1, b := p.2.2, wsrc := w.wsrc, wssrc := w.wssrc, wfmt := w.wfmt, tree := true, base := w.base,
    depth := w.levels - 1, last := last, p := plane, oq := if last then w.oq else none }

/-- CORE_SEQ_POS at the start of a tile (R157), ACTIVE apart. -/
def Walk.pos (w : Walk) (t : Nat) : Word :=
  let p := w.at t
  at64 50 10 w.chunk ||| at64 46 4 w.levels ||| at64 32 12 p.2.2 ||| at64 18 13 p.2.1 ||| at64 0 12 p.1

/-- A tile starts at the open slot (R149, R150, R152). -/
def Core.startTile (c : Core) (a : MatActive) (p : WalkPos) : Core :=
  let w := p.w
  let t := p.tile
  let more := t + 1 < w.tiles
  let c := { c with seqPos := w.pos t }
  if w.isComputed t then
    let st := w.streamOf t p.plane
    let next := w.nextComputed t
    let ld := next.map (fun k => (!p.plane, w.loadOf k))
    let b : MatActive :=
      { iss := a.iss, start := p.due, groups := if ld.isSome then Nat.max st.n 32 else st.n, str := some st, ld := ld,
        walk := if more then
            some { p with tile := t + 1, due := p.due + (if next.isSome then Nat.max st.n 33 else st.n),
                          plane := !p.plane }
          else none }
    { c with matA := some b }
  else
    let b : MatActive := { a with walk := if more then some { p with tile := t + 1, due := p.due + 1 } else none }
    { c with matA := if b.complete then none else some b }

/-- A matrix instruction starts at the open slot (R105). -/
def Core.startMat (c : Core) (q : Queued MatOp) (rest : List (Queued MatOp)) : Core :=
  let c := { c with matQ := rest }
  let a : MatActive := match q.op with
    | .load p l => { iss := q.iss, start := q.start, groups := 32, ld := some (p, l) }
    | .stream r l =>
      { iss := q.iss, start := q.start, groups := if l.isSome then Nat.max r.n 32 else r.n, str := some r,
        ld := l.map (fun x => (!r.p, x)) }
    | .walk w =>
      let pos := fun (d : Nat) => if 0 < w.tiles then some { w := w, tile := 0, due := d, plane := false } else none
      if w.computed = 0 then { iss := q.iss, start := q.start, groups := 0, walk := pos q.start }
      else { iss := q.iss, start := q.start, groups := 32, ld := some (false, w.loadOf 0), walk := pos (q.start + 33) }
  let c := match q.op with
    | .walk w => { c with walkEnd := q.start + w.occ }
    | _ => c
  { c with matA := if a.complete then none else some a }

end Sys2Proof.Machine
end

