-- ==== Sys2Proof/Machine/Tiers.lean ====
section
/-! DEFINITION. Machine/Tiers.lean: the placement table, the translation caches, the frame pools, the steeps, the migration
engine and the tier errors (R261 to R285), with the commands PLACE, TIER_POOL, STEEP_SET and PAGE_RESTORE (R376). -/

namespace Sys2Proof.Machine

/-! ## Locations and pages -/

/-- Bytes of a page. -/
def pageBytes : Nat := 0x200000

/-- The location a location word names. -/
def Location.ofWord (w : Word) : Location :=
  ⟨BitVec.ofNat 2 (locTier w), BitVec.ofNat 12 (locNode w), BitVec.ofNat 27 (locFrame w)⟩

/-- What the first byte of a location reaches. -/
def State.placeOf (s : State) (l : Location) : Where := s.locationAt l.tier.toNat l.node.toNat l.frame.toNat 0

/-- The lines of another node that a page at a location takes. -/
def Location.lines (l : Location) : List (Nat × Nat) :=
  if l.tier.toNat = 2 then fabricLines [(fabricKey l.node.toNat (l.frame.toNat * pageBytes), pageBytes)] else []

/-- Word 0 with its present location replaced. -/
def Location.into (l : Location) (w : Word) : Word :=
  setFld (setFld (setFld w 61 2 l.tier.toNat) 27 12 l.node.toNat) 0 27 l.frame.toNat

/-- A tier-0 or tier-1 location uses a frame of that tier. -/
def Location.uses (l : Location) (tier frame : Nat) : Bool := l.tier.toNat == tier && l.frame.toNat == frame

/-- The locations a valid entry names. -/
def PtEntry.locations (e : PtEntry) : List Location :=
  if bit e.w0 63 then
    [Location.ofWord e.w0] ++ (if bit e.w1 63 then [Location.ofWord e.w1] else []) ++
      (if bit e.w2 63 then [Location.ofWord e.w2] else [])
  else []

/-- A valid entry of another page than `p` uses a frame. -/
def State.frameUsed (s : State) (tier frame : Nat) (p : Option Nat) : Bool :=
  s.tiers.pt.any (fun e => p != some e.1 && e.2.locations.any (fun l => l.uses tier frame))

/-- The marks of a page copied to a destination key: a granule of the destination with one mark is marked whole (R198). -/
def widenedMarks (src dst : Nat) (ms : NumSet) : NumSet :=
  let g := granule dst
  (ms.filter (fun k => src / 16 ≤ k && k < (src + pageBytes) / 16)).foldl
    (fun t k => setGranule g t ((16 * k - src + dst) / g) true) []

/-- Copies a page between two keys, with its marks, or with them cleared. -/
def State.copyPage (s : State) (src dst : Nat) (marks : Bool) : State :=
  let cells := (s.mem.filter (fun e => src ≤ e.1 && e.1 < src + pageBytes)).map (fun e => (e.1 - src + dst, e.2))
  let ks := if marks then widenedMarks src dst s.marks else []
  { s with mem := setSpan s.mem dst pageBytes cells
           marks := setSpanNum s.marks (dst / 16) (pageBytes / 16) ks
           host := (s.snoopData src pageBytes).host.unsnoop dst pageBytes }

/-! ## Frame pools (R268) -/

/-- A pool's free frames replaced. -/
def Tiers.setPool (t : Tiers) (tier : Nat) (fs : NumSet) : Tiers :=
  if tier = 0 then { t with pool0 := fs } else { t with pool1 := fs }

/-- Frames of a tier that promotions have taken. -/
def Tiers.granted (t : Tiers) (tier : Nat) : NumSet := if tier = 0 then t.granted0 else t.granted1

/-- The frames that promotions have taken, replaced. -/
def Tiers.setGranted (t : Tiers) (tier : Nat) (fs : NumSet) : Tiers :=
  if tier = 0 then { t with granted0 := fs } else { t with granted1 := fs }

/-- A frame returns to its pool, when a promotion had taken it from there. -/
def State.returnFrame (s : State) (l : Location) : State :=
  let tier := l.tier.toNat
  let t := s.tiers
  if tier < 2 && (t.granted tier).contains l.frame.toNat then
    { s with tiers := ((t.setGranted tier (dropNum (t.granted tier) l.frame.toNat)).setPool tier
        (addNum (s.poolOf tier) l.frame.toNat)) }
  else s

/-- A promotion takes the lowest free frame of a tier's pool (DESIGN CHOICE, log 36). -/
def State.takeFrame (s : State) (tier : Nat) : Option (Nat × State) :=
  match s.poolOf tier with
  | [] => none
  | f :: fs => some (f, { s with tiers := (s.tiers.setPool tier fs).setGranted tier (addNum (s.tiers.granted tier) f) })

/-! ## Translation cache (R266) -/

/-- PT_MISS_WALK (R266). -/
def execPtMissWalk (c : CoreId) (p : PageId) (s : State) : Answer :=
  .next (if s.available c.toNat then (s.translate c.toNat p.toNat).2 else s)

/-- No MU still has to acknowledge an invalidation of a page. -/
def State.acked (s : State) (p : Nat) : Bool := !(s.tiers.inval.any (fun x => x.1 == p))

/-- A read of a page's old location that an MU made before it had the new one has not returned (R275): of a generator's run,
of a DMA channel over the mesh or the fabric. -/
def State.readsOld (s : State) (m : Move) : Bool :=
  let old := fun (key : Nat) => match s.placeOf m.src with
    | .mem a => a ≤ key && key < a + pageBytes
    | _ => false
  s.cores.any (fun e => e.2.ag.toList.any (fun a => a.tiles.any (fun rs => rs.any (fun r =>
    r.got.isNone && r.pages.any (fun x => x.1 == m.page && Location.ofWord x.2 == m.src))))) ||
  s.mesh.flits.any (fun x => !x.2.delivered && match x.2.kind with
    | .read _ _ key => old key
    | .back _ _ key => old key
    | _ => false) ||
  s.fabric.reads.any (fun r => !r.failed && r.gen < 6 && old (fabricKey r.node.toNat (128 * r.line)))

/-- Step 7 of R275 for a move whose second invalidation is acknowledged everywhere; a page demoted serves no steep any more
(R272). -/
def State.endMove (s : State) (m : Move) : State :=
  let s := if m.src = m.dst then s else s.returnFrame m.src
  { s with tiers := { s.tiers with
      moves := s.tiers.moves.filter (fun x => x.page != m.page), movesDone := s.tiers.movesDone + 1
      forSteep := if m.demotion then drop s.tiers.forSteep m.page else s.tiers.forSteep
      against := if m.against then s.tiers.against + 1 else s.tiers.against } }

/-- Ends the moves and the commands that waited only for acknowledgements (R267, R275, R285). -/
def State.settleInval (s : State) : State :=
  let s := (s.tiers.moves.filter (fun m => m.copied && s.acked m.page && !s.readsOld m)).foldl (fun (t : State) m => t.endMove m) s
  let past := s.tiers.waits.filter (fun w => w.pages.all s.acked)
  let s := { s with tiers := { s.tiers with waits := s.tiers.waits.filter (fun w => !w.pages.all s.acked) } }
  past.foldl (fun (t : State) w => t.succeed w.ref w.result 0) s

/-- Reads have come back: a move that waited for them ends (R275). -/
def State.settleMoves (s : State) : State := if s.tiers.moves.isEmpty then s else s.settleInval

/-- An MU no longer has to acknowledge a page. -/
def State.dropInval (s : State) (l p : Nat) : State :=
  let xs := s.tiers.inval.filterMap (fun (x : Nat × NumSet) =>
    if x.1 = p then (let h := dropNum x.2 l; if h.isEmpty then none else some (x.1, h)) else some x)
  { s with tiers := { s.tiers with inval := xs } }

/-- PT_INVALIDATE (R266): the message is at the MU, which drops the entry and acknowledges; where it is the first of several,
the last one's acknowledgement is awaited. -/
def execPtInvalidate (c : CoreId) (p : PageId) (s : State) : Answer :=
  let l := c.toNat
  let n := p.toNat
  .next (if s.tiers.inval.any (fun x => x.1 == n && x.2.contains l) && !s.underWay .invalidate l n then
      let s := s.takeMessage .invalidate l n
      let k := s.core l
      let s := s.setCore l { k with ptCache := k.ptCache.filter (fun x => x.1 != n) }
      if (s.message .invalidate l n).isSome then s else (s.dropInval l n).settleInval
    else s)

/-! ## PLACE (R267, R327, R329, R376) -/

/-- The stack a tier-1 location lies in. -/
def Location.stack (l : Location) : Nat := (l.frame.toNat * pageBytes - 0x040000000000) / 0x2000000000

/-- The frame lies in the stack range of R24. -/
def Location.inStacks (l : Location) : Bool :=
  0x040000000000 ≤ l.frame.toNat * pageBytes && l.frame.toNat * pageBytes < 0x080000000000

/-- The absent stack that a location names, if it names one. -/
def State.absentStack (s : State) (l : Location) : Option Nat :=
  if l.tier.toNat = 1 && l.inStacks && !stackExists s.grade l.stack then some l.stack else none

/-- A location that PLACE must refuse, frames in use apart. -/
def State.badLocation (s : State) (l : Location) : Bool :=
  let a := l.frame.toNat * pageBytes
  let n := l.node.toNat
  match l.tier.toNat with
  | 0 => n != 0 || 0x1000000000 ≤ a || s.whereIs a == .absent
  | 1 => n != 0 || !l.inStacks || s.whereIs a == .absent
  | 2 => !bit (s.route n) 63 || n == s.fabric.node.toNat || (match s.caddyCapacity n with
      | some c => c ≤ a
      | none => reservedThere a)
  | _ => n != 0 || !(hostBase ≤ a && a < 0x200000000000)

/-- The entry that PLACE writes for page i of its run: the fields Nemar writes on the run-time's behalf (R264, R267) from
the arguments, the rest as they were (DEDUCED, log 37); none where a stepped FRAME leaves its field. -/
def placedEntry (old : PtEntry) (b : Submission) (i : Nat) : Option PtEntry :=
  let d := if bit (b.arg 5) 0 then i else 0
  let step := fun (w : Word) => setFld w 0 27 (locFrame w + d)
  let past := fun (w : Word) => bit w 63 && 2 ^ 27 ≤ locFrame w + d
  if past (b.arg 2) || past (b.arg 3) || past (b.arg 4) then none
  else
    let w0 := setFld (setFld (step (b.arg 2)) 56 1 (fld old.w0 56 1)) 55 1 0
    some { old with w0 := setFld w0 54 1 (fld old.w0 54 1), w1 := step (b.arg 3), w2 := step (b.arg 4) }

/-- The first page of a run that must be refused, by its offset: `used` are the frames of the run's earlier pages. -/
def State.placeFails (s : State) (b : Submission) (first n : Nat) : Nat → Nat → List (Nat × Nat) → Option Nat
  | 0, _, _ => none
  | fuel + 1, i, used =>
    if n ≤ i then none
    else match placedEntry (s.ptEntry (first + i)) b i with
    | none => some i
    | some e =>
      let ls := e.locations
      let taken := fun (l : Location) => l.tier.toNat < 2 &&
        (used.contains (l.tier.toNat, l.frame.toNat) ||
          s.tiers.pt.any (fun x => !(first ≤ x.1 && x.1 < first + n) &&
            x.2.locations.any (fun k => k.uses l.tier.toNat l.frame.toNat)))
      if ls.any s.badLocation || ls.any taken then some i
      else s.placeFails b first n fuel (i + 1)
        (used ++ (ls.filter (fun l => l.tier.toNat < 2)).map (fun l => (l.tier.toNat, l.frame.toNat)))

/-- The first absent stack a run names. -/
def State.placeAbsent (s : State) (b : Submission) (first n : Nat) : Option Nat :=
  (List.range n).findSome? (fun i => match placedEntry (s.ptEntry (first + i)) b i with
    | some e => e.locations.findSome? s.absentStack
    | none => none)

/-- A frame leaves the record of promotion frames: the run-time has placed the page that held it, or placed a page in it. -/
def State.forgetFrame (s : State) (l : Location) : State :=
  let tier := l.tier.toNat
  if tier < 2 then
    { s with tiers := s.tiers.setGranted tier (dropNum (s.tiers.granted tier) l.frame.toNat) }
  else s

/-- Writes one page's entry for PLACE. -/
def State.placePage (s : State) (b : Submission) (first i : Nat) : State :=
  let p := first + i
  let old := s.ptEntry p
  match placedEntry old b i with
  | none => s
  | some e =>
    let s := (old.locations ++ e.locations).foldl (fun (t : State) l => t.forgetFrame l) s
    let s := { s with tiers := { s.tiers with forSteep := drop s.tiers.forSteep p } }
    s.changeEntry p e

/-- A command waits until every MU has acknowledged the entries of its pages. -/
def State.waitPages (s : State) (k : CmdRef) (pages : NumSet) (result : Word) : State :=
  ({ s with tiers := { s.tiers with waits := s.tiers.waits ++ [⟨k, pages, result⟩] } } : State).settleInval

/-- Pages of a run are busy with an earlier PLACE or PAGE_RESTORE: one whose acknowledgements or lines are awaited, or one that
waits for another page of its run to have moved (R366). -/
def State.pagesBusy (s : State) (k : CmdRef) (first n : Nat) : Bool :=
  s.tiers.waits.any (fun w => w.pages.any (fun p => first ≤ p && p < first + n)) ||
  s.tiers.restores.any (fun j => first ≤ j.page && j.page < first + n) ||
  (s.nemar.cmds.takeWhile (fun d => d.ref != k)).any (fun d => s.waitsMove d && match cmdObject d.sub with
    | some (_, lo, m) => (rangeFrom lo m).any (fun p => first ≤ p && p < first + n && !bit (s.ptEntry p).w0 55)
    | none => false)

/-- PLACE (R267, R327, R329, R366, R376). A run with a page that moves waits: the row does nothing yet. -/
def execPlace (k : CmdRef) (s : State) : Answer :=
  .next (s.runCommand k 0x20 (fun c s =>
    let first := fld (c.sub.arg 0) 0 24
    let n := fld (c.sub.arg 1) 0 25
    match s.placeAbsent c.sub first n with
    | some st => s.refuse k stNotPresent (r1Word (16 + st))
    | none =>
      if s.pagesBusy k first n then s.refuse k stRegionBusy 0 else
      match s.placeFails c.sub first n (n + 1) 0 [] with
      | some i => s.refuseCheck c { reason := rsPlaceLoc, detail := i }
      | none =>
        if s.runMoves first n then s
        else
          let s := (List.range n).foldl (fun (t : State) i => t.placePage c.sub first i) (s.ack k)
          s.waitPages k (rangeFrom first n) (BitVec.ofNat 64 n)))

/-! ## TIER_POOL (R268, R376) -/

/-- A frame lies in its tier: an address of the pool or of a stack that the module has. -/
def State.tierFrame (s : State) (tier frame : Nat) : Bool :=
  let a := frame * pageBytes
  if tier = 0 then a < 0x1000000000 && dieExists s.grade (coreDie (a / 0x400000))
  else 0x040000000000 ≤ a && a < 0x080000000000 && !inTable a

/-- A grant of a frame is refused (R376). -/
def State.grantBad (s : State) (tier frame : Nat) : Bool :=
  !s.tierFrame tier frame || (s.poolOf tier).contains frame || s.frameUsed tier frame none ||
    s.tiers.moves.any (fun m => m.src.uses tier frame || m.dst.uses tier frame)

/-- TIER_POOL (R268, R376, R379). -/
def execTierPool (k : CmdRef) (s : State) : Answer :=
  .next (s.runCommand k 0x21 (fun c s =>
    let tier := fld (c.sub.arg 0) 0 1
    let grant := bit (c.sub.arg 0) 8
    let fs := rangeFrom (fld (c.sub.arg 1) 0 27) (fld (c.sub.arg 2) 0 27)
    match fs.findSome? (fun f => s.absentStack ⟨BitVec.ofNat 2 tier, 0, BitVec.ofNat 27 f⟩) with
    | some st => s.refuse k stNotPresent (r1Word (16 + st))
    | none =>
      if fs.any (fun f => if grant then s.grantBad tier f else !(s.poolOf tier).contains f) then
        s.refuseCheck c { reason := rsPoolFrame }
      else
        let pool := fs.foldl (fun t f => if grant then addNum t f else dropNum t f) (s.poolOf tier)
        let out := fs.foldl dropNum (s.tiers.granted tier)
        let s := { s with tiers := (s.tiers.setPool tier pool).setGranted tier out }
        s.succeed k (BitVec.ofNat 64 pool.length) 0))

/-! ## STEEP_SET (R270 to R272) -/

/-- An enabled steep that the check refuses (R271). -/
def steepBad (ext ctrl : Word) : Bool :=
  bit ctrl 63 && (16777216 < steepFirst ext + steepCount ext || 2 ≤ fld ctrl 60 2 || fld ctrl 32 13 = 0 ||
    4096 < fld ctrl 32 13 || 4096 < fld ctrl 16 13)

/-- FRONT as a commit sets it (R272). -/
def frontAt (ext ctrl : Word) (old : BitVec 24) : BitVec 24 :=
  if !bit ctrl 63 then old
  else if bit ctrl 62 then BitVec.ofNat 24 (steepFirst ext + steepCount ext - 1) else BitVec.ofNat 24 (steepFirst ext)

/-- The committed steep set of a region. -/
def Region.steeped (g : Region) (ext ctrl : Vector Word 4) : Region :=
  { g with steepExt := ext, steepCtrl := ctrl,
           steepFront := Vector.ofFn (fun (w : Fin 4) => frontAt ext[w] ctrl[w] g.steepFront[w]) }

/-- STEEP_SET (R270, R271, R272, R380). -/
def execSteepSet (k : CmdRef) (s : State) : Answer :=
  .next (s.runCommand k 0x22 (fun c s =>
    let ext : Vector Word 4 := Vector.ofFn (fun (w : Fin 4) => c.sub.arg (1 + 2 * w.val))
    let ctrl : Vector Word 4 := Vector.ofFn (fun (w : Fin 4) => c.sub.arg (2 + 2 * w.val))
    if (List.range 4).any (fun w => steepBad (ext.toList.getD w 0) (ctrl.toList.getD w 0)) then
      s.refuseCheck c { reason := rsSteepRange, detail := c.rgn }
    else (s.setRegion c.rgn ((s.region c.rgn).steeped ext ctrl)).succeed k 0 0))

/-! ## PAGE_RESTORE (R285) -/

/-- The locations that a page's source is written to: present, backing and replica where they exist. -/
def PtEntry.copies (e : PtEntry) : List Location :=
  [Location.ofWord e.w0] ++ (if bit e.w1 63 then [Location.ofWord e.w1] else []) ++
    (if bit e.w2 63 then [Location.ofWord e.w2] else [])

/-- Writes a source page, unmarked, to a location where it can be reached; of a poisoned source the bytes are free (R284). -/
def State.restoreTo (s : State) (src : Option Nat) (l : Location) : State :=
  match s.placeOf l with
  | .mem dst =>
    match src with
    | some a => s.copyPage a dst false
    | none => { s with mem := setSpan s.mem dst pageBytes (freeCells s.free dst pageBytes)
                       marks := setSpanNum s.marks (dst / 16) (pageBytes / 16) []
                       host := s.host.unsnoop dst pageBytes }
  | _ => s

/-- The end of a restore: POISON and DIRTY are cleared, the entry invalidated, and the acknowledgements awaited. -/
def State.endRestore (s : State) (k : CmdRef) (p : Nat) : State :=
  let s := { s with tiers := { s.tiers with restores := s.tiers.restores.filter (fun j => j.ref != k) } }
  let e := s.ptEntry p
  (s.changeEntry p { e with w0 := setFld (setFld e.w0 56 1 0) 54 1 0 }).waitPages k [p] 0

/-- The source of a restore is here: it is written, and the lines of other nodes are sent to them. -/
def State.writeRestore (s : State) (j : PageRestore) : State :=
  let ls := (s.ptEntry j.page).copies
  let t := ls.foldl (fun (t : State) l => t.restoreTo j.src l) s
  let t := { t with free := if j.src.isNone then t.free + pageBytes else t.free }
  match (ls.filter (fun l => l.tier.toNat = 2)).flatMap Location.lines with
  | [] => t.endRestore j.ref j.page
  | far => { t with tiers := { t.tiers with
      restores := t.tiers.restores.map (fun (i : PageRestore) => if i.ref == j.ref then { j with lines := far, written := true } else i) } }

/-- Lines of a source that could not be read are free (R326). -/
def State.freeFailed (s : State) (xs : List FabRead) : State :=
  xs.foldl (fun (t : State) r =>
    let b := t.freeBytes 128
    b.2.writeMem (fabricKey r.node.toNat (128 * r.line)) (clean b.1)) s

/-- A restore goes on once the lines it has sent are answered: it sends the next ones, writes its source, or ends. -/
def State.goOnRestore (s : State) (j : PageRestore) : State :=
  if s.onFabric j.page ownRestore || s.host.state == .halted then s
  else if !j.lines.isEmpty then
    let now := j.lines.take fabricBatch
    let s := { s with tiers := { s.tiers with restores := s.tiers.restores.map (fun (i : PageRestore) =>
      if i.ref == j.ref then { j with lines := j.lines.drop fabricBatch } else i) } }
    if j.written then s.sendWrites j.page ownRestore 0 0 now else s.sendReads j.page ownRestore now
  else if j.written then s.endRestore j.ref j.page
  else
    let rs := s.readsOf j.page ownRestore
    ((s.freeFailed rs).dropReads rs).writeRestore j

/-- PAGE_RESTORE (R285, R366). A page that moves waits: the row does nothing yet. A source, or a page, on another node takes
the row again once its lines are answered. -/
def execPageRestore (k : CmdRef) (s : State) : Answer :=
  .next (match s.tiers.restores.find? (fun j => j.ref == k) with
  | some j => s.goOnRestore j
  | none => s.runCommand k 0x23 (fun c s =>
    let p := fld (c.sub.arg 0) 0 24
    let a := fld (c.sub.arg 1) 0 48
    let e := s.ptEntry p
    if let some st := absentStackAt s.grade a then s.refuse k stNotPresent (r1Word (16 + st)) else
    match s.nemarAt a with
    | .mem src =>
      if !bit e.w0 63 then s.refuse k stAddrAbsent (r1Word 4)
      else if s.pagesBusy k p 1 then s.refuse k stRegionBusy 0
      else if bit e.w0 55 then s
      else
        let bad := s.poisonedAt a
        let j : PageRestore := { ref := k, page := p, src := if bad then none else some src
                                 lines := if bad || src < 2 ^ 60 then [] else fabricLines [(src, pageBytes)] }
        let s := s.ack k
        (({ s with tiers := { s.tiers with restores := s.tiers.restores ++ [j] } } : State).goOnRestore j)
    | _ => s.refuse k stAddrAbsent (r1Word 5)))

/-! ## The migration engine (R273 to R277) -/

/-- BW, PERIOD, PROMOTE and DEMOTE of MOD_MIG_BOUNDS. -/
def Tiers.bw (t : Tiers) : Nat := fld t.bounds 36 12
/-- PERIOD. -/
def Tiers.period (t : Tiers) : Nat := fld t.bounds 28 8
/-- PROMOTE. -/
def Tiers.promoteAt (t : Tiers) : Nat := fld t.bounds 16 12
/-- DEMOTE. -/
def Tiers.demoteBelow (t : Tiers) : Nat := fld t.bounds 4 12

/-- HINT of an entry's word 0, as the tier it prefers. -/
def PtEntry.hint (e : PtEntry) : Option Nat :=
  let h := fld e.w0 57 3
  if h = 0 then none else some (h - 1)

/-- The engine may move the page: valid, not pinned, not poisoned, not moving (R269, R284). One without a backing location
can be promoted, and has none to be demoted to (log 38). -/
def PtEntry.movable (e : PtEntry) : Bool := bit e.w0 63 && !bit e.w0 60 && !bit e.w0 56 && !bit e.w0 55

/-- An enabled steep: its region and number as one key, extent, control and front. -/
structure Steep where
  key : Nat
  ext : Word
  ctrl : Word
  front : Nat
  deriving DecidableEq, Repr

/-- The enabled steeps, by region and w. -/
def State.steeps (s : State) : List Steep :=
  s.regions.flatMap (fun e => (List.range 4).filterMap (fun w =>
    let ctrl := e.2.steepCtrl.toList.getD w 0
    if bit ctrl 63 then
      some ⟨4 * e.1 + w, e.2.steepExt.toList.getD w 0, ctrl, (e.2.steepFront.toList.getD w 0).toNat⟩
    else none))

/-- The page lies in the steep's window. -/
def Steep.holds (x : Steep) (p : Nat) : Bool :=
  let w := steepWindow x.ext x.ctrl x.front
  w.1 ≤ p && p < w.2

/-- TIER of a steep. -/
def Steep.tier (x : Steep) : Nat := fld x.ctrl 60 2

/-- The pages of a window from FRONT outward; of two at one distance the one ahead comes first (DESIGN CHOICE, log 36). -/
def Steep.pages (x : Steep) : List Nat :=
  let n := Nat.max (fld x.ctrl 32 13) (fld x.ctrl 16 13 + 1)
  let at_ := fun (up : Bool) (d : Nat) =>
    if up then [x.front + d] else if d ≤ x.front then [x.front - d] else []
  ((List.range n).flatMap (fun d =>
    if d = 0 then [x.front] else at_ (!bit x.ctrl 62) d ++ at_ (bit x.ctrl 62) d)).filter x.holds

/-- The moves an evaluation may still start. -/
structure Eval where
  s : State
  left : Nat
  /-- keys of the steeps whose target pool was empty. -/
  short : NumSet := []

/-- Bytes that BW allows in this period, with what the last one left over. -/
def Tiers.moveBytes (t : Tiers) : Nat := if t.bw = 0 then 0 else t.carry + t.bw * t.period * 1000000

/-- Moves of one period at BW, less those in progress (DESIGN CHOICE, log 36). -/
def State.moveBudget (s : State) : Nat :=
  s.tiers.moveBytes / pageBytes - (s.tiers.moves.filter (fun m => !m.copied)).length

/-- The part of a move that this period's bytes leave over is carried to the next. -/
def State.carryBudget (s : State) : State :=
  { s with tiers := { s.tiers with carry := s.tiers.moveBytes % pageBytes } }

/-- Starts a move: step 1 of R275. -/
def State.startMove (s : State) (p : Nat) (dst : Location) (demotion : Bool) (steep : Option Nat) : State :=
  let e := s.ptEntry p
  let m : Move :=
    { page := p, src := Location.ofWord e.w0, dst := dst, demotion := demotion, steep := steep,
      against := (match e.hint with
        | some h => h != dst.tier.toNat
        | none => false) }
  let s := { s with tiers := { s.tiers with
      moves := s.tiers.moves ++ [m]
      forSteep := (match steep with
        | some k => put s.tiers.forSteep p k
        | none => s.tiers.forSteep) } }
  s.changeEntry p { e with w0 := setFld e.w0 55 1 1 }

/-- Starts a demotion to the backing location, while moves are left; a clean page takes none of BW. -/
def Eval.demote (v : Eval) (p : Nat) : Eval :=
  let e := v.s.ptEntry p
  let cost := if bit e.w0 54 then 1 else 0
  if v.left < cost || v.s.tiers.bw = 0 then v
  else { v with s := v.s.startMove p (Location.ofWord e.w1) true none, left := v.left - cost }

/-- Starts a promotion into a tier, while its pool has a frame and moves are left. -/
def Eval.promote (v : Eval) (p tier : Nat) (steep : Option Nat) : Eval :=
  match v.s.takeFrame tier with
  | none => { v with short := (match steep with
      | some k => addNum v.short k
      | none => v.short) }
  | some (f, t) =>
    if v.left = 0 then v
    else { v with s := t.startMove p ⟨BitVec.ofNat 2 tier, 0, BitVec.ofNat 27 f⟩ false steep, left := v.left - 1 }

/-- 1: demotions out of steep windows (R272). -/
def Eval.leaveWindows (v : Eval) (steeps : List Steep) : Eval :=
  v.s.tiers.forSteep.foldl (fun (v : Eval) x =>
    let e := v.s.ptEntry x.1
    if e.promoted && e.movable && !(steeps.any (fun w => w.holds x.1)) then v.demote x.1 else v) v

/-- 2: promotions into steep windows. -/
def Eval.enterWindows (v : Eval) (steeps : List Steep) : Eval :=
  steeps.foldl (fun (v : Eval) x =>
    x.pages.foldl (fun (v : Eval) p =>
      let e := v.s.ptEntry p
      if e.movable && x.tier < locTier e.w0 then v.promote p x.tier (some x.key) else v) v) v

/-- The tier a heat promotion goes to (R274). -/
def PtEntry.heatTier (e : PtEntry) : Nat :=
  match e.hint with
  | some h => if h < locTier e.w0 then h else 1
  | none => 1

/-- 3: promotions by heat. -/
def Eval.heatUp (v : Eval) : Eval :=
  v.s.tiers.pt.foldl (fun (v : Eval) x =>
    let e := v.s.ptEntry x.1
    let at_ := v.s.tiers.promoteAt
    let need := match e.hint with
      | some h => if e.heatTier < h then 4 * at_ else at_
      | none => at_
    if e.movable && !e.promoted && e.heatTier < 2 && e.heatTier < locTier e.w0 && need ≤ e.heat.toNat then
      v.promote x.1 e.heatTier none
    else v) v

/-- 4: demotions by heat of pages in no window. -/
def Eval.heatDown (v : Eval) (steeps : List Steep) : Eval :=
  v.s.tiers.pt.foldl (fun (v : Eval) x =>
    let e := v.s.ptEntry x.1
    let allowed := match e.hint with
      | some h => locTier e.w1 ≤ h || 2 ≤ h || (v.s.poolOf h).isEmpty
      | none => true
    if e.movable && e.promoted && !(steeps.any (fun w => w.holds x.1)) && e.heat.toNat < v.s.tiers.demoteBelow && allowed then
      v.demote x.1
    else v) v

/-- A region's conflict state after an evaluation (R277): whether a steep raises POLICY_CONFLICT now. -/
def Region.steepEnd (g : Region) (w : Nat) (poolShort : Bool) : Region × Bool :=
  let was := g.steepConflict.toList.getD w false
  if poolShort || g.steepShort.toList.getD w false then
    ({ g with steepConflict := g.steepConflict.setIfInBounds w true, steepQuiet := g.steepQuiet.setIfInBounds w 0,
              steepShort := g.steepShort.setIfInBounds w false }, !was)
  else
    let q := g.steepQuiet.toList.getD w 0 + 1
    ({ g with steepConflict := if 10 ≤ q then g.steepConflict.setIfInBounds w false else g.steepConflict,
              steepQuiet := g.steepQuiet.setIfInBounds w (Nat.min q 10) }, false)

/-- R277 for one steep: the record of R59. -/
def State.steepConflict (s : State) (r w : Nat) (poolShort : Bool) : State :=
  let x := (s.region r).steepEnd w poolShort
  let s := s.setRegion r x.1
  if x.2 then
    s.logEvent { code := rcPolicyConflict, srcKind := 8, srcId := r, region := r }
      2 (at64 8 8 r ||| at64 0 2 w) 0x07 (if poolShort then 0x08 else 0x09)
  else s

/-- The reads that the MUs have made over the period are added to their pages' HEAT, in units of 8 KiB; bytes short of a
unit count in the next period. -/
def State.addHeat (s : State) : State :=
  let pt := s.tiers.readBytes.foldl (fun (t : Table PtEntry) h =>
    match find? t h.1 with
    | some e => put t h.1 { e with heat := BitVec.ofNat 16 (satAdd 16 e.heat.toNat (h.2 / 8192)) }
    | none => t) s.tiers.pt
  let rest := (s.tiers.readBytes.map (fun h => (h.1, h.2 % 8192))).filter (fun h => h.2 != 0)
  { s with tiers := { s.tiers with pt := pt, readBytes := rest } }

/-- Every page's HEAT is halved. -/
def State.halveHeat (s : State) : State :=
  { s with tiers := { s.tiers with pt := s.tiers.pt.map (fun e => (e.1, { e.2 with heat := e.2.heat >>> 1 })) } }

/-- MIG_EVAL (R272, R274, R277). HEAT counts the reads that the MUs have made in this state; the row's operand has no part. -/
def execMigEval (_ : List (PageId × BitVec 16)) (s : State) : Answer :=
  let s := s.addHeat.settleInval
  let steeps := s.steeps
  let v := ((({ s := s, left := s.moveBudget : Eval }.leaveWindows steeps).enterWindows steeps).heatUp).heatDown steeps
  .next ((v.s.regions.map Prod.fst).foldl (fun (t : State) r =>
    (List.range 4).foldl (fun (t : State) w => t.steepConflict r w (v.short.contains (4 * r + w))) t) v.s).halveHeat.carryBudget

/-! ## The end of a move (R275, R276) -/

/-- The entry after a move, at its new location or still at its old one. -/
def State.closeEntry (s : State) (p : Nat) (dst : Option Location) : State :=
  let e := s.ptEntry p
  let w := setFld e.w0 55 1 0
  s.changeEntry p { e with w0 := match dst with
    | some l => l.into (setFld w 54 1 0)
    | none => w }

/-- A move is abandoned: the page stays, the frame a promotion had taken returns, and the failure is counted. -/
def State.abandonMove (s : State) (m : Move) : State :=
  let s := if m.demotion then s else s.returnFrame m.dst
  let s := (s.dropReads (s.readsOf m.page 6)).dropWrites (s.writesOf m.page 6)
  let s := { s with tiers := { s.tiers with
      moves := s.tiers.moves.filter (fun x => x.page != m.page), fail := s.tiers.fail + 1
      forSteep := if m.demotion then s.tiers.forSteep else drop s.tiers.forSteep m.page } }
  (s.closeEntry m.page none).settleInval

/-- The copy of steps 3 and 4; none where the destination or the source cannot be reached. -/
def State.moveBytes (s : State) (m : Move) : Option State :=
  let e := s.ptEntry m.page
  if m.demotion && !bit e.w0 54 then some s
  else match s.placeOf m.src, s.placeOf m.dst with
  | .mem a, .mem b =>
    let s := s.copyPage a b true
    if m.demotion && bit e.w2 63 then
      (match s.placeOf (Location.ofWord e.w2) with
      | .mem c => some (s.copyPage a c true)
      | _ => some s)
    else some s
  | _, _ => none

/-- A move in progress, replaced. -/
def State.setMove (s : State) (m : Move) : State :=
  { s with tiers := { s.tiers with moves := s.tiers.moves.map (fun (x : Move) => if x.page = m.page then m else x) } }

/-- The lines of other nodes that steps 3 and 4 write. -/
def State.moveTargets (s : State) (m : Move) : List (Nat × Nat) :=
  let e := s.ptEntry m.page
  if m.demotion && !bit e.w0 54 then []
  else m.dst.lines ++ (if m.demotion && bit e.w2 63 then (Location.ofWord e.w2).lines else [])

/-- The mover sends the next lines of a move, as READs of the old location and then as WRITEs of the new (R264, R325). -/
def State.sendMove (s : State) (m : Move) : State :=
  let now := m.lines.take fabricBatch
  let s := s.setMove { m with lines := m.lines.drop fabricBatch }
  if m.writing then s.sendWrites m.page 6 0 0 now else s.sendReads m.page 6 now

/-- Step 5 of R275. -/
def State.finishMove (s : State) (m : Move) : State :=
  ((s.setMove { m with copied := true }).closeEntry m.page (some m.dst)).settleInval

/-- A mover whose copy has gone well so far goes on with it: the lines of another node are asked for, the copy is made, the
lines of another node that it writes are sent and acknowledged; a line that fails ends the move. -/
def State.goOnMove (s : State) (m : Move) : State :=
  if s.onFabric m.page 6 then s
  else if (s.readsOf m.page 6).any (fun x => x.failed) || (s.writesOf m.page 6).any (fun x => x.failed) then s.abandonMove m
  else if !m.lines.isEmpty then s.sendMove m
  else if !m.asked && !(m.demotion && !bit (s.ptEntry m.page).w0 54) && !m.src.lines.isEmpty then
    s.sendMove { m with asked := true, lines := m.src.lines }
  else if m.writing then s.finishMove m
  else match s.moveBytes m with
  | none => s.abandonMove m
  | some t =>
    match s.moveTargets m with
    | [] => t.finishMove m
    | ls => t.sendMove { m with asked := true, writing := true, lines := ls }

/-- PAGE_MOVE_COMPLETE (R275, R276): once every MU has acknowledged the first invalidation. An uncorrectable read poisons
the page at a line the event does not name: a free value (log 2). -/
def execPageMoveComplete (p : PageId) (o : MoveOutcome) (s : State) : Answer :=
  let n := p.toNat
  .next (match s.tiers.moves.find? (fun m => m.page == n && !m.copied) with
    | none => s
    | some m =>
      if !s.acked n then s
      else if bit (s.ptEntry n).w0 56 then s.abandonMove m
      else match o with
      | .sourceUncorrectable =>
        let line := fld (Config.freeWord s.free) 0 14
        (({ s with free := s.free + 1 } : State).poisonPage n (128 * line) 128).abandonMove m
      | .destinationFailed => s.abandonMove m
      | .copied => s.goOnMove m)

/-! ## Tier errors (R279 to R282) -/

/-- RGN_TIER counts a report (R281). -/
def Region.countTier (g : Region) (status : Code) (idle : Bool) : Region :=
  let inc := fun (b : Bool) (v : BitVec 16) => if b then BitVec.ofNat 16 (satInc 16 v.toNat) else v
  { g with tierTimeout := inc (status == stTierTimeout) g.tierTimeout
           tierPoison := inc (status == stTierPoison) g.tierPoison
           tierFail := inc (status == stTierFail) g.tierFail
           tierIdle := inc idle g.tierIdle }

/-- The first report of a region that has arrived, and the rest. -/
def takeReport (r : Nat) (here : TierReport → Bool) : List TierReport → Option (TierReport × List TierReport)
  | [] => none
  | x :: t => if x.region = r && here x then some (x, t) else (takeReport r here t).map (fun y => (y.1, x :: y.2))

/-- TIER_REPORT (R280, R281, R392): a report that concerns an ended request is logged only. -/
def execTierReport (r : RegionId) (s : State) : Answer :=
  let n := r.toNat
  .next (match takeReport n (fun x => !s.underWay .report x.sender n) s.nemar.tierReports with
    | none => s
    | some (x, rest) =>
      let s := ({ s with nemar := { s.nemar with tierReports := rest } } : State).takeMessage .report x.sender n
      let g := s.region n
      let opt := fun (v : Option Nat) => match v with
        | some k => BitVec.ofNat 64 k
        | none => allOnes
      let s := s.setRegion n (g.countTier x.status (!g.reqValid))
      let s := s.logEvent { code := rcTier, srcKind := 8, srcId := n, region := n,
                            tag := if x.past then x.tag else if g.reqValid then some g.reqTag else none }
        (opt x.core) (BitVec.ofNat 64 x.status.toNat) (BitVec.ofNat 64 x.page) (opt x.src)
      if g.reqValid && !x.past then (s.endRequest n x.status 0 (r1Core x.core 0 x.page 0)).resetRegion n else s)

/-- The source queue code of the empty WSRC or WSSRC that a matrix group waits on (R280, R282). -/
def Core.starvedSource (c : Core) : Option Nat :=
  match c.matA with
  | some a => if a.g < a.groups && a.start + a.g ≤ c.slot then
      ((a.needs.drop a.got).find? (fun n => (n.1 == .weight || n.1 == .scale) && !c.sourceReady n.2)).map Prod.snd
    else none
  | none => none

/-- A matrix group waits on an empty WSRC or WSSRC (R282). -/
def Core.weightStarved (c : Core) : Bool := c.starvedSource.isSome

/-- The watchdog of a region runs (R282). -/
def Region.watched (g : Region) : Bool := (g.state == .running || g.state == .tideline) && g.reqValid

/-- A core at a watch tick: a wait seen at one tick has lasted one more at each tick after. -/
def Core.ticked (c : Core) (watched : Bool) : Core :=
  if watched && c.weightStarved then
    (if c.starved then { c with starvedTicks := c.starvedTicks + 1 } else { c with starved := true, starvedTicks := 0 })
  else { c with starved := false, starvedTicks := 0 }

/-- WATCH_TICK (R282). -/
def execWatchTick (s : State) : Answer :=
  .next { s with cores := s.cores.map (fun (e : Nat × Core) =>
    (e.1, e.2.ticked (match s.regionOf e.1 with
      | some r => (s.region r).watched
      | none => false))) }

/-- WDOG_EXPIRE (R279, R282): the wait has lasted MS milliseconds. -/
def execWdogExpire (c : CoreId) (s : State) : Answer :=
  let l := c.toNat
  let k := s.core l
  .next (match s.regionOf l with
    | none => s
    | some r =>
      let g := s.region r
      if g.watched && k.starved && k.weightStarved && g.wdog.toNat * 1000 ≤ k.starvedTicks * 250 then
        (s.setCore l { k with starved := false, starvedTicks := 0 }).reportTier l r none stTierTimeout 0 k.starvedSource
      else s)

end Sys2Proof.Machine
end

