-- ==== Sys2Proof/Machine/VectorEngine.lean ====
section
/-! DEFINITION. Machine/VectorEngine.lean: a vector group: its operands, its element results, its poison and its visible
effects (R106, R164 to R185), the histogram tap, and the start of a vector instruction. -/

namespace Sys2Proof.Machine

/-! ## Operand elements -/

/-- The elements of a queue entry in a format, with their blocks' poison (R164, R197). 1,024 is no multiple of the 6 bits of an
MXFP6 element: an entry holds 170 whole ones, its last 4 bits are unused, and no element lies in two entries; a block is poisoned
by any of its entry's sectors, those past the operand's count with them (DESIGN CHOICE, log 145). -/
def unpackEntry (fmt : Nat) (e : Entry) : List (Nat × Bool) :=
  let b := elemBits fmt
  (List.range (1024 / b)).map (fun j =>
    (e.bits (j * b) b, if b = 6 then e.badRange (j * b) b else e.badRange (j / 32 * 32 * b) (32 * b)))

/-- Element e of an operand that is no queue, and its block's poison; n is the operand's count (R159, R160, R170, R179,
R180). -/
def State.elemAt (s : State) (l : Nat) (p : Place) (fmt n e : Nat) : Nat × Bool :=
  let c := s.core l
  let b := elemBits fmt
  let lo := e / 32 * 32
  let cnt := Nat.min n (lo + 32) - lo
  match p with
  | .vreg r => ((look c.vregs (r * 4096 + e) (0 : BitVec 32)).toNat % 2 ^ b, c.vregBad (r * 128 + e / 32))
  | .cache base =>
    let first := (base * 8 + lo * b) / 256
    let last := (base * 8 + (lo + cnt) * b - 1) / 256
    (getBits c.cache (base * 8 + e * b) b,
     (rangeFrom first (last + 1 - first)).any c.cacheBad)
  | .acc line => (c.accElem (line + e / 32) (e % 32), c.accBad ((line + e / 32) % Config.accLines))
  | .pool off =>
    let pos := (sliceBase l + off) * 8
    let first := (pos + lo * b) / 128
    let last := (pos + (lo + cnt) * b - 1) / 128
    (getBits s.mem (pos + e * b) b, (rangeFrom first (last + 1 - first)).any (fun k => s.marks.contains k))
  | _ => (0, false)

/-- The elements lo, …, hi − 1 of an operand: those held from its queue, or those read in place. -/
def State.elemsOf (s : State) (l : Nat) (p : Place) (fmt n lo hi : Nat) (held : List (Nat × Bool)) :
    List (Nat × Bool) :=
  match p with
  | .queue _ => held.take (hi - lo)
  | .none => []
  | p => (rangeFrom lo (hi - lo)).map (s.elemAt l p fmt n)

/-- Dequeues entries of a source until `need` elements are held; `fuel` bounds the entries of one group. -/
def Core.fillHeld (code fmt need : Nat) : Nat → Core → List (Nat × Bool) → Core × List (Nat × Bool)
  | 0, c, h => (c, h)
  | k + 1, c, h =>
    if need ≤ h.length then (c, h)
    else match c.takeFrom code with
      | some (e, d) => Core.fillHeld code fmt need k d (h ++ unpackEntry fmt e)
      | none => (c, h)

/-- Fills the held elements of one operand. -/
def Core.fillOperand (c : Core) (p : Place) (fmt need : Nat) (h : List (Nat × Bool)) : Core × List (Nat × Bool) :=
  match p with
  | .queue code => Core.fillHeld code fmt need 8 c h
  | _ => (c, h)

/-- An operand still lacks elements: its source. -/
def lacks (p : Place) (need : Nat) (h : List (Nat × Bool)) : List (Nat × Nat) :=
  match p with
  | .queue code => if h.length < need then [(2, code)] else []
  | _ => []

/-! ## What a group reads -/

/-- First and last element of the present group. -/
def VecActive.lo (a : VecActive) : Nat := a.g * a.op.w
/-- One past the last element of the present group. -/
def VecActive.hi (a : VecActive) : Nat := Nat.min a.op.n (a.lo + a.op.w)
/-- The present group is the last. -/
def VecActive.last (a : VecActive) : Bool := a.g + 1 == a.groups
/-- The uses of its fields. -/
def VecActive.use (a : VecActive) : VecUse := vecUse a.op.op a.op.fmt a.op.aux a.op.n a.op.cols
/-- Format of a used operand. -/
def useFmt (u : Option OperandUse) : Nat :=
  match u with
  | some x => x.fmt
  | none => 0
/-- Count of a used operand. -/
def useN (u : Option OperandUse) : Nat :=
  match u with
  | some x => x.n
  | none => 0
/-- A used source operand, or none. -/
def srcPlace (p : Place) (u : Option OperandUse) : Place :=
  match u with
  | some x => if x.dest then .none else p
  | none => .none

/-- Range of elements of B the group uses: scales are one per block (R169). -/
def VecActive.rangeB (a : VecActive) : Nat × Nat :=
  if a.op.op = 0xB5 then (a.lo / 32, ceilDiv a.hi 32) else (a.lo, a.hi)

/-- The held elements after the dequeues the group can make now, and the sources it still lacks. -/
def State.gather (s : State) (l : Nat) (a : VecActive) : Core × VecActive × List (Nat × Nat) :=
  let c := s.core l
  let u := a.use
  let n := a.hi - a.lo
  let rb := a.rangeB
  let pb := srcPlace a.op.b u.b
  let pc := srcPlace a.op.c u.c
  let pa := srcPlace a.op.a u.a
  let b := c.fillOperand pb (useFmt u.b) (rb.2 - rb.1) a.hb
  let k := b.1.fillOperand pc (useFmt u.c) n a.hc
  let lackB := lacks pb (rb.2 - rb.1) b.2
  let need := if a.op.op = 0xC5 then
      (if lackB.isEmpty then
        ((s.elemsOf l pb (useFmt u.b) (useN u.b) rb.1 rb.2 b.2).filter (fun v => activeElem a.op.fmt v.1)).length
       else 0)
    else n
  let x := k.1.fillOperand pa (useFmt u.a) need a.ha
  (x.1, { a with ha := x.2, hb := b.2, hc := k.2 },
    lacks pa need x.2 ++ lackB ++ lacks pc n k.2)

/-- The sources a vector group waits on at the open slot (R41, R185). -/
def State.vecWaits (s : State) (l : Nat) : List (Nat × Nat) :=
  match (s.core l).vecA with
  | some a => if a.g < a.groups && a.start + a.g ≤ (s.core l).slot then (s.gather l a).2.2 else []
  | none => []

/-! ## Element results -/

/-- A result element: its index in the destination, its bits, and poison. -/
structure OutElem where
  e : Nat
  v : Nat
  bad : Bool
  deriving DecidableEq, Repr

/-- What a group produces: elements of OPD and of the second destination, flags, the tap's element lists at its four
points, and the instruction in hand afterwards. -/
structure GroupOut where
  d : List OutElem := []
  d2 : List OutElem := []
  flags : BitVec 8 := 0
  a : VecActive
  deriving DecidableEq, Repr

/-- The rounding of element e (R169, R225 to R227). -/
def VecActive.rounding (a : VecActive) (e : Nat) : Rounding :=
  if a.op.rnd then
    .draw (philoxDraw a.seed (rngCounter a.ctx (fld a.op.sS 40 24) 0 (fld a.op.sS 0 40 + e)))
  else .nearest

/-- The key of the fallback free value of an element operation (log 3). -/
def VecActive.key (a : VecActive) (e v : Nat) : Nat :=
  (v * 256 + a.op.op) * 2 ^ 25 +
    (match a.rounding e with
     | .nearest => 0
     | .draw u => u + 1)

/-- A float or integer element operation by opcode. -/
def VecActive.calc (a : VecActive) (op e x y z : Nat) : Nat × BitVec 8 :=
  if a.op.fmt = 0xC then (intOp op x y, 0) else floatOp op a.op.fmt (a.key e x) (a.rounding e) x y z

/-- Result bits of an element-wise opcode for element e (R167). -/
def VecActive.elemResult (a : VecActive) (e x y z : Nat) : Nat × BitVec 8 :=
  let o := a.op
  if o.op = 0xB3 then (if activeElem o.fmt z then x else y, 0)
  else if o.op = 0xB4 || o.op = 0xB9 || o.op = 0xBA then (x, 0)
  else if o.op = 0xB6 then (o.sS.toNat % 2 ^ elemBits o.fmt, 0)
  else if o.op = 0xB7 then
    let k := o.sS.toInt + (e : Int)
    if o.fmt = 0xC then ((k % (2 ^ 32 : Nat)).toNat, 0)
    else (toFp32 (.fin (k < 0) k.natAbs 0), 0)
  else if o.op = 0xB8 then
    (toFp32 (.fin false (philoxDraw a.seed (rngCounter a.ctx (fld o.sS 40 24) 1 (fld o.sS 0 40 + e))) (-24)), 0)
  else a.calc o.op e x y z

/-- The opcode of a broadcast operation (R173). -/
def broadcastOp (aux : Nat) : Nat :=
  match aux with
  | 0 => 0xA0
  | 1 => 0xA1
  | 2 => 0xA2
  | 3 => 0xAB
  | 4 => 0xAC
  | _ => 0xA4

/-- Elements with their 32-element blocks' poison made common (R179). -/
def shareBlocks (xs : List OutElem) : List OutElem :=
  let bad := xs.foldl (fun t x => if x.bad then addNum t (x.e / 32) else t) []
  xs.map (fun x => { x with bad := bad.contains (x.e / 32) })

/-- An operand element at an index of a list, or zero. -/
def pick (xs : List (Nat × Bool)) (i : Nat) : Nat × Bool := xs.getD i (0, false)

/-- Element-wise group (R167, R168, R179). -/
def VecActive.elemGroup (a : VecActive) (xa xb xc : List (Nat × Bool)) : GroupOut :=
  let rs := (rangeFrom 0 (a.hi - a.lo)).map (fun i =>
    let x := pick xa i
    let y := pick xb i
    let z := pick xc i
    let r := a.elemResult (a.lo + i) x.1 y.1 z.1
    ((⟨a.lo + i, r.1, x.2 || y.2 || z.2⟩ : OutElem), r.2))
  { d := shareBlocks (rs.map Prod.fst), flags := rs.foldl (fun f r => f ||| r.2) 0, a := a }

/-- Broadcast group (R173); `xb` is the vector's element for each element of the group. -/
def VecActive.castGroup (a : VecActive) (xa xb : List (Nat × Bool)) : GroupOut :=
  let rs := (rangeFrom 0 (a.hi - a.lo)).map (fun i =>
    let e := a.lo + i
    let x := pick xa i
    let y := pick xb i
    let r := a.calc (broadcastOp a.op.aux) e x.1 y.1 0
    ((⟨e, r.1, x.2 || y.2⟩ : OutElem), r.2))
  { d := shareBlocks (rs.map Prod.fst), flags := rs.foldl (fun f r => f ||| r.2) 0, a := a }

/-- One block of a conversion (R169, R221 to R224): result codes, the scale if AUX is MX, flags. -/
def VecActive.cvtBlock (a : VecActive) (j : Nat) (xs : List Nat) (scale : Nat) : List Nat × Nat × BitVec 8 :=
  let o := a.op
  let vs := xs.map (fun x => if isMx o.fmt then decodeScaled o.fmt scale x else decodeElem o.fmt x)
  let round := fun (i : Nat) => a.rounding (32 * j + i)
  if isMx o.aux then
    let sc := chooseScale o.aux vs
    let rs := (vs.zipIdx).map (fun v => encodeScaled o.aux sc (round v.2) v.1)
    (rs.map Prod.fst, sc, rs.foldl (fun f r => f ||| r.2) (snanFlag vs))
  else
    let rs := (vs.zipIdx).map (fun v => convertTo o.aux (round v.2) v.1)
    (rs.map Prod.fst, 0, rs.foldl (fun f r => f ||| r.2) 0)

/-- Conversion group (R169). -/
def VecActive.cvtGroup (a : VecActive) (xa xb : List (Nat × Bool)) : GroupOut :=
  let j0 := a.lo / 32
  let rs := ((blocks32 (xa.length + 1) xa).zipIdx).map (fun b =>
    let sc := pick xb b.2
    let bad := b.1.any Prod.snd || sc.2
    let r := a.cvtBlock (j0 + b.2) (b.1.map Prod.fst) sc.1
    (((r.1.zipIdx).map (fun v => (⟨32 * (j0 + b.2) + v.2, v.1, bad⟩ : OutElem))),
     (⟨j0 + b.2, r.2.1, bad⟩ : OutElem), r.2.2))
  { d := rs.flatMap (fun r => r.1), d2 := if isMx a.op.aux then rs.map (fun r => r.2.1) else [],
    flags := rs.foldl (fun f r => f ||| r.2.2) 0, a := a }

/-- FX48 group (R171): OPD takes the FP32 words, OPB the low words. -/
def VecActive.fxGroup (a : VecActive) (xa xb xc : List (Nat × Bool)) : GroupOut :=
  let rs := (rangeFrom 0 (a.hi - a.lo)).map (fun i =>
    let x := pick xa i
    let y := pick xb i
    let z := pick xc i
    (a.lo + i, fxAdd x.1 y.1 z.1, x.2 || y.2 || z.2))
  { d := shareBlocks (rs.map (fun r => ⟨r.1, r.2.1.1, r.2.2⟩)),
    d2 := shareBlocks (rs.map (fun r => ⟨r.1, r.2.1.2.1, r.2.2⟩)),
    flags := rs.foldl (fun f r => f ||| r.2.1.2.2) 0, a := a }

/-- The rows of a tile that end in the group: elements are gathered in `seen`, one result a row (R174). -/
def rowsEnding (a : VecActive) : List (Nat × Bool) → Nat → List (Nat × Bool) → List OutElem × BitVec 8 × List (Nat × Bool)
  | [], _, seen => ([], 0, seen)
  | x :: t, e, seen =>
    let seen := seen ++ [x]
    if (e + 1) % a.op.cols = 0 then
      let r := reduceKind a.op.aux a.op.fmt seen
      let rest := rowsEnding a t (e + 1) []
      ((⟨e / a.op.cols, r.1.toNat % 2 ^ 32, seen.any Prod.snd⟩ : OutElem) :: rest.1, r.2 ||| rest.2.1, rest.2.2)
    else rowsEnding a t (e + 1) seen

/-- Row-statistic group. -/
def VecActive.rowGroup (a : VecActive) (xa : List (Nat × Bool)) : GroupOut :=
  let r := rowsEnding a xa a.lo a.seen
  { d := r.1, flags := r.2.1, a := { a with seen := r.2.2 } }

/-- COMPRESS group (R175, R179). -/
def VecActive.packGroup (a : VecActive) (xa xb : List (Nat × Bool)) : GroupOut :=
  let bad := a.maskBad || xb.any Prod.snd
  let act := (xa.zip xb).filter (fun p => activeElem a.op.fmt p.2.1)
  { d := (act.zipIdx).map (fun p => ⟨a.cnt + p.2, p.1.1.1, p.1.1.2 || bad⟩),
    flags := if xb.any Prod.snd then 0x40 else 0,
    a := { a with cnt := a.cnt + act.length, maskBad := bad } }

/-- Scatters packed elements to the active positions (R176): a result for each element, none where nothing is written. -/
def scatter (fmt : Nat) : List (Nat × Bool) → List (Nat × Bool) → List (Option (Nat × Bool))
  | [], _ => []
  | m :: t, xs =>
    if activeElem fmt m.1 then
      match xs with
      | x :: r => some x :: scatter fmt t r
      | [] => some (0, false) :: scatter fmt t []
    else none :: scatter fmt t xs

/-- EXPAND group (R176, R179): on a queue, and with AUX = 1, the other positions are zero. -/
def VecActive.expandGroup (a : VecActive) (xa xb : List (Nat × Bool)) : GroupOut :=
  let bad := a.maskBad || xb.any Prod.snd
  let fill := a.op.aux = 1 || (match a.op.d with
    | .queue _ => true
    | _ => false)
  let rs := ((scatter a.op.fmt xb xa).zipIdx).filterMap (fun r =>
    match r.1 with
    | some x => some (⟨a.lo + r.2, x.1, x.2 || bad⟩ : OutElem)
    | none => if fill then some ⟨a.lo + r.2, 0, bad⟩ else none)
  { d := shareBlocks rs, flags := if xb.any Prod.snd then 0x40 else 0,
    a := { a with cnt := a.cnt + (xb.filter (fun m => activeElem a.op.fmt m.1)).length, maskBad := bad } }

/-- Reduction group (R177): the elements read so far. -/
def VecActive.redGroup (a : VecActive) (xa : List (Nat × Bool)) : GroupOut :=
  { flags := if xa.any Prod.snd then 0x80 else 0, a := { a with seen := a.seen ++ xa } }

/-! ## Effects -/

/-- An entry from elements in a format, its sectors marked where they hold elements of a poisoned block (R164, R197). -/
def packEntry (fmt : Nat) (xs : List (Nat × Bool)) : Entry :=
  let b := elemBits fmt
  let blk := fun (j : Nat) => if b = 6 then (pick xs j).2 else ((xs.drop (j / 32 * 32)).take 32).any Prod.snd
  { data := BitVec.ofNat 1024 (xs.foldr (fun x w => w * 2 ^ b + x.1 % 2 ^ b) 0),
    marks := (xs.zipIdx).foldl (fun (m : BitVec 8) x =>
      if blk x.2 then
        (rangeFrom (x.2 * b / 128) (((x.2 + 1) * b - 1) / 128 + 1 - x.2 * b / 128)).foldl
          (fun m k => m ||| BitVec.ofNat 8 (2 ^ k)) m
      else m) 0 }

/-- Splits the elements of a queue destination into whole entries and the rest; at the end the rest fills one more. -/
def splitEntries (fmt : Nat) (flush : Bool) : Nat → List (Nat × Bool) → List Entry × List (Nat × Bool)
  | 0, xs => ([], xs)
  | k + 1, xs =>
    let per := 1024 / elemBits fmt
    if per ≤ xs.length then
      let r := splitEntries fmt flush k (xs.drop per)
      (packEntry fmt (xs.take per) :: r.1, r.2)
    else if flush && !xs.isEmpty then ([packEntry fmt xs], [])
    else ([], xs)

/-- The effects of writing result elements to a destination, with the blocks poisoned so far and the elements of an
unfinished queue entry before and after. -/
def writeOut (p : Place) (fmt : Nat) (packed flush : Bool) (xs : List OutElem) (bad : NumSet)
    (out : List (Nat × Bool)) : List Effect × NumSet × List (Nat × Bool) :=
  let bad := xs.foldl (fun t x => if x.bad then addNum t (x.e / 32) else t) bad
  match p with
  | .queue q =>
    let r := splitEntries fmt flush 8 (out ++ xs.map (fun x => (x.v, x.bad)))
    (r.1.map (fun e => .enqueue q e 1), bad, r.2)
  | .pool off =>
    match xs with
    | [] => ([], bad, out)
    | x :: _ => ([.poolElems off fmt x.e (xs.map (fun y => (y.v, y.bad)))], bad, out)
  | .none => ([], bad, out)
  | p =>
    if xs.isEmpty then ([], bad, out)
    else ([.elems p fmt { vals := xs.map (fun x => (x.e, x.v)), pois := bad, packed := packed }], bad, out)

/-! ## The histogram tap (R181) -/

/-- The FP32 value of an E8M0 scale: 2^(s - 127), and NaN for 0xFF (R213, R219). -/
def scaleFp32 (s : Nat) : Nat := if s = 0xFF then 0x7FC00000 else if s = 0 then 2 ^ 22 else s * 2 ^ 23

/-- The code that stands for a vector of E8M0 scales, beside the formats of R161. -/
def scaleFmt : Nat := 0x10

/-- The format in which the tap reads OPB, or OPC, of a format: those of an MX VCVT are scales (R169). -/
def VecActive.tapFmt (a : VecActive) (u : Option OperandUse) : Nat := if a.op.op = 0xB5 then scaleFmt else useFmt u

/-- The bin of an element of a format by its value (R181, R233): a float, of an MX format without its block's scale, by its
FP32 value; an INT32 by the exponent of its magnitude (DEDUCED, log 154); a scale by its own value. -/
def tapBin (cfg : Word) (fmt v : Nat) : Nat :=
  let mag := if 2 ^ 31 ≤ v then 2 ^ 32 - v else v
  histBin (fld cfg 4 4)
    (if fmt = scaleFmt then scaleFp32 v
     else if fmt ≠ 0xC then toFp32 (decodeElem fmt v) else if mag = 0 then 0 else (Nat.log2 mag + 127) * 2 ^ 23)

/-- The tap's effect of a group at its chosen point: elements with their block's poison, `bad` and `bad2` being the blocks of
OPD and of the second destination poisoned so far, and whether the point carries a vector. Three readings are the model's
(DEDUCED, log 144): an element of a VBCR's or VBCC's OPB is binned each time a tile element uses it; the low words of a VFXADD at
OPB are binned as BF16 values; the zeros that a VEXPAND to a queue writes for inactive elements are binned as zeros. -/
def VecActive.tapEffect (a : VecActive) (xa xb xc : List (Nat × Bool)) (o : GroupOut) (bad bad2 : NumSet) : List Effect :=
  let u := a.use
  let outs := fun (xs : List OutElem) (t : NumSet) => xs.map (fun x => (x.v, t.contains (x.e / 32)))
  let point := fld a.tapCfg 0 2
  let pt : Bool × Nat × List (Nat × Bool) :=
    match point with
    | 0 => (u.a.isSome || u.poolA, if u.a.isSome then useFmt u.a else a.op.fmt, xa)
    | 1 => (u.b.isSome, a.tapFmt u.b, xb)
    | 2 => (u.c.isSome, a.tapFmt u.c, if a.op.op = 0xB5 then outs o.d2 bad2 else xc)
    | _ => (u.d.isSome || u.poolD, if u.d.isSome then useFmt u.d else a.op.fmt, outs o.d bad)
  if a.op.tap && pt.1 then
    [.tapCount (a.start + a.g + a.depth) (((pt.2.2).filter (fun x => !x.2)).map (fun x => tapBin a.tapCfg pt.2.1 x.1))
      ((pt.2.2).filter (fun x => x.2)).length (if a.g = 0 then 1 else 0)]
  else []

/-! ## A group -/

/-- The group's results by opcode from its operand elements. -/
def VecActive.groupOut (a : VecActive) (xa xb xc : List (Nat × Bool)) : GroupOut :=
  let o := a.op
  if o.op = 0xC0 || o.op = 0xC1 then a.castGroup xa xb
  else if o.op = 0xB5 then a.cvtGroup xa xb
  else if o.op = 0xBB then a.fxGroup xa xb xc
  else if o.op = 0xC2 then a.rowGroup xa
  else if o.op = 0xC4 then a.packGroup xa xb
  else if o.op = 0xC5 then a.expandGroup xa xb
  else if o.op = 0xC8 then a.redGroup xa
  else a.elemGroup xa xb xc

/-- The scalar an instruction writes at its end: the count of COMPRESS, the value of a reduction (R175, R177). -/
def VecActive.scalar (a : VecActive) : Option (Word × BitVec 8) :=
  if a.op.op = 0xC4 then some (BitVec.ofNat 64 a.cnt, 0)
  else if a.op.op = 0xC8 then some (reduceKind a.op.aux a.op.fmt a.seen)
  else none

/-- HFLUSH's group g (R182): words 8g to 8g + 7 of the record, each the record's word plus the counter, saturating. -/
def State.flushGroup (s : State) (l : Nat) (a : VecActive) : Effect :=
  let off := a.op.sS.toNat
  let ws := (rangeFrom a.lo (a.hi - a.lo)).map (fun k =>
    BitVec.ofNat 64 (satAdd 64 (getWord s.mem (sliceBase l + off + 8 * k)).toNat (pick a.seen k).1))
  .poolWords (off + 8 * a.lo) ws

/-- Elements an operand has used are no longer held. -/
def VecActive.usedUp (a : VecActive) (na nb nc : Nat) : VecActive :=
  { a with ha := a.ha.drop na, hb := a.hb.drop nb, hc := a.hc.drop nc }

/-- One vector group at the open slot, its operands being at hand. -/
def State.runVecGroup (s : State) (l : Nat) (a : VecActive) : State :=
  let c := s.core l
  let u := a.use
  let vis := a.start + a.g + a.depth
  let pend := fun (es : List Effect) => es.map (fun e => (⟨vis, a.iss, e⟩ : Pending))
  if a.op.op = 0xCC then
    let c := c.addPendings (pend [s.flushGroup l a])
    s.setCore l { c with vecA := if a.last then none else some { a with g := a.g + 1 } }
  else
    let rb := a.rangeB
    let xb := if a.op.op = 0xC0 || a.op.op = 0xC1 then
        (rangeFrom a.lo (a.hi - a.lo)).map (fun e =>
          s.elemAt l a.op.b a.op.fmt (useN u.b) (if a.op.op = 0xC0 then e % a.op.cols else e / a.op.cols))
      else s.elemsOf l (srcPlace a.op.b u.b) (useFmt u.b) (useN u.b) rb.1 rb.2 a.hb
    let na := if a.op.op = 0xC5 then (xb.filter (fun m => activeElem a.op.fmt m.1)).length else a.hi - a.lo
    let la := if a.op.op = 0xC5 then a.cnt else a.lo
    let pa := if u.poolA then a.op.a else srcPlace a.op.a u.a
    let xa := s.elemsOf l pa (if u.poolA then a.op.fmt else useFmt u.a) a.op.n la (la + na) a.ha
    let xc := s.elemsOf l (srcPlace a.op.c u.c) (useFmt u.c) (useN u.c) a.lo a.hi a.hc
    let o := a.groupOut xa xb xc
    let packed := a.op.op = 0xC4 || a.op.op = 0xC2
    let d := writeOut a.op.d (if u.poolD then a.op.fmt else useFmt u.d) packed a.last o.d a.bad a.out
    let d2 := writeOut (if a.op.op = 0xBB then a.op.b else a.op.c)
      (if a.op.op = 0xBB then 0 else 8) (a.op.op = 0xB5) a.last o.d2 a.bad2 a.out2
    let b := o.a.usedUp na (rb.2 - rb.1) (a.hi - a.lo)
    let b := { b with g := a.g + 1, bad := d.2.1, out := d.2.2, bad2 := d2.2.1, out2 := d2.2.2 }
    let fin := if a.last then
        match b.scalar with
        | some v => [.sreg a.op.sDst v.1] ++ (if v.2 = 0 then [] else [Effect.vecFlags v.2])
        | none => []
      else []
    let c := c.addPendings (pend (d.1 ++ d2.1 ++ (if o.flags = 0 then [] else [Effect.vecFlags o.flags]) ++
      a.tapEffect xa xb xc o d.2.1 d2.2.1 ++ fin))
    s.setCore l { c with vecA := if a.last then none else some b }

/-- A vector instruction starts at the open slot (R105, R184): HFLUSH takes the tap's counters and clears them; one of
n = 0 ends at once, a reduction writing its empty value (R165). -/
def Core.startVec (c : Core) (q : Queued VecOp) (rest : List (Queued VecOp)) : Core :=
  let c := { c with vecQ := rest }
  let o := q.op
  let u := vecUse o.op o.fmt o.aux o.n o.cols
  let a : VecActive :=
    { iss := q.iss, start := q.start, groups := o.groups, depth := vecDepth u o, op := o, seed := c.rngSeed,
      ctx := c.rngCtx, tapCfg := c.htapCfg }
  if o.op = 0xCC then
    let words := (List.range 64).map (fun k => (look c.htapBins k 0, false)) ++ [(c.htapPois, false), (c.htapInstr, false)]
    { c with vecA := some { a with seen := words }, htapBins := [], htapPois := 0, htapInstr := 0 }
  else if o.n = 0 then
    if o.op = 0xC8 then
      c.addPending ⟨q.start + 12, q.iss, .sreg o.sDst (reduceKind o.aux o.fmt []).1⟩
    else c
  else { c with vecA := some a }

/-! ## The commands of the engines -/

/-- One stretch beat of the open slot of core l, with every cause (R41); `banks` are the units that an arbiter has just turned
away. -/
def State.stretchCore (s : State) (l : Nat) (banks : List Nat := []) : State :=
  let c := s.core l
  s.setCore l (c.stretch (c.matWaits ++ s.vecWaits l) banks)

/-- Opens slot d of core l for an engine event; if an entry for a full output queue holds an earlier slot or this one,
that slot stretches by a beat instead (R41). -/
def State.openFor (s : State) (l d : Nat) (body : State → State) : State :=
  let s := s.advance l d
  if (s.core l).slot = d && (s.core l).heldEnqueues.isEmpty then (body s).settle l else s.stretchCore l

/-- The pool access of the present group, as its class at the operand port, first byte of the slice and bytes (R170, R182,
R310): of VPLD and VPST their elements, of HFLUSH its words. -/
def VecActive.poolAccess (a : VecActive) : Option (Nat × Nat × Nat) :=
  let span := fun (off : Nat) =>
    let b := elemBits a.op.fmt
    let lo := (off * 8 + a.lo * b) / 8
    some (1, lo, (off * 8 + a.hi * b + 7) / 8 - lo)
  if a.op.op = 0xCC then some (2, a.op.sS.toNat + 8 * a.lo, 8 * (a.hi - a.lo))
  else match a.op.a, a.op.d with
    | .pool off, _ => span off
    | _, .pool off => span off
    | _, _ => none

/-- A vector group at the open slot: its dequeues as far as they go, then its turn at the arbiters of its pool access (R311,
R313), then its work; where it waits, a stretch beat. The access is made at the group's own slot (DESIGN CHOICE, log 122). -/
def State.vecGroup (s : State) (l : Nat) (a : VecActive) : State :=
  let g := s.gather l a
  let s := s.setCore l { g.1 with vecA := some g.2.1 }
  if !g.2.2.isEmpty then s.stretchCore l
  else match a.poolAccess with
    | none => s.runVecGroup l g.2.1
    | some (k, lo, n) =>
      let c := s.core l
      let x := c.cuAccess 2 k lo n
      let s := s.setCore l { c.arbitrated x with vecBeat := if x.ok then c.refbeats + 1 else c.vecBeat }
      if x.ok then s.runVecGroup l g.2.1 else s.stretchCore l [2]

/-- A matrix group at the open slot. -/
def State.matGroup (s : State) (l : Nat) (a : MatActive) : State :=
  let c := (s.core l).matGroup a
  let s := s.setCore l c
  match c.matA with
  | some b => if b.g = a.g && b.start = a.start then s.stretchCore l else s
  | none => s

/-- ENGINE_INSTR_START (R105): the instruction at the head of an engine's queue starts at its start slot. -/
def execEngineInstrStart (c : CoreId) (e : Engine) (s : State) : Answer :=
  let l := c.toNat
  .next (match s.eventSlot l e with
  | some d =>
    let k := s.core l
    match e with
    | .matrix =>
      match k.matA, k.matQ with
      | none, q :: rest => s.openFor l d (fun t => t.setCore l ((t.core l).startMat q rest))
      | _, _ => s
    | .vector =>
      match k.vecA, k.vecQ with
      | none, q :: rest => s.openFor l d (fun t => t.setCore l ((t.core l).startVec q rest))
      | _, _ => s
  | none => s)

/-- ENGINE_GROUP (R106, R138, R164): one group of the instruction in hand at its slot. Where no group is due
before the core next issues, and an entry for a full queue holds a slot before then, that slot stretches; of a core that has
retired or faulted, one ended beat passes (R117, R119; DEDUCED, log 123: no row of the table stands for a beat). -/
def execEngineGroup (c : CoreId) (e : Engine) (s : State) : Answer :=
  let l := c.toNat
  .next (match s.eventSlot l e with
  | some d =>
    let k := s.core l
    match e with
    | .matrix =>
      match k.matA with
      | some a => if a.g < a.groups then s.openFor l d (fun t => t.landing l (fun t => t.matGroup l a)) else s
      | none => s
    | .vector =>
      match k.vecA with
      | some a => s.openFor l d (fun t => t.landing l (fun t => t.vecGroup l a))
      | none => s
  | none =>
    let k := s.core l
    if s.idlesEnded l then s.setCore l (k.endedBeats 1)
    else
      let t := s.advance l k.quietTo
      if s.live l && !(t.core l).heldEnqueues.isEmpty then t.stretchCore l else s.settle l)

/-- MMA_TILE (R148 to R150, R152, R157): the next tile of the walk starts, computed or skipped. -/
def execMmaTile (c : CoreId) (s : State) : Answer :=
  let l := c.toNat
  .next (match s.eventSlot l .matrix with
  | some d =>
    match (s.core l).matA with
    | some a =>
      match a.walk with
      | some p => if a.groups ≤ a.g then s.openFor l d (fun t => t.setCore l ((t.core l).startTile a p)) else s
      | none => s
    | none => s
  | none => s)

end Sys2Proof.Machine
end

