-- ==== Sys2Proof/Machine/Streams.lean ====
section
/-! DEFINITION. Machine/Streams.lean: address generators, fetch queues and the activation packer at work (R188 to R200,
R209 to R212, R237 to R241). -/

namespace Sys2Proof.Machine

/-! ## Indices (R190) -/

/-- The 32-bit words of an index entry, with the poison of their sectors. -/
def Entry.indices (e : Entry) : List (BitVec 32 × Bool) :=
  (List.range 32).map (fun i => (BitVec.ofNat 32 (e.bits (32 * i) 32), e.badRange (32 * i) 32))

/-- Takes index entries for generator g until it holds `need` indices, as far as its source goes. -/
def Core.takeIndices (g need : Nat) : Nat → Core → Core
  | 0, c => c
  | n + 1, c =>
    let a := c.gen g
    if need ≤ a.replay.length + a.indices.length then c
    else
      let src := if a.isrc < 4 then a.isrc + 8 else a.isrc - 8
      match c.takeFrom src with
      | some (e, d) =>
        let b := d.gen g
        takeIndices g need n (d.setGen g { b with indices := b.indices ++ e.indices.drop b.dropIdx, dropIdx := 0 })
      | none => c

/-- Entries a generator's fetch queue has given since the region's enable, those of `hist` with them. -/
def AddrGen.given (a : AddrGen) : Nat := a.histFrom + (a.hist.map (fun t => t.n)).sum + a.deq

/-- Where generator g takes its next index from the indexer that feeds it: the number of the index entry, and the indices of
it used before (R210). -/
def Core.indexAt (c : Core) (g : Nat) : Nat × Nat :=
  let a := c.gen g
  if a.indexed && a.isrc < 4 then
    let k := (c.gen a.isrc).given
    let m := ceilDiv a.indices.length 32
    if m = 0 then (k, a.dropIdx) else (k - m, 32 * m - a.indices.length)
  else (0, 0)

/-- Drops the first tiles that end at or before an entry number; `from_` is the number the tiles begin at. -/
def dropTiles (want : Nat) : Nat → List GenTile → Nat × List GenTile
  | from_, [] => (from_, [])
  | from_, t :: ts => if from_ + t.n ≤ want then dropTiles want (from_ + t.n) ts else (from_, t :: ts)

/-- The indexer of generator g keeps no tile that g cannot need again. -/
def Core.pruneIndexer (c : Core) (g : Nat) : Core :=
  let a := c.gen g
  if a.indexed && a.isrc < 4 then
    let want := match a.left with
      | t :: _ => t.ent
      | [] => (c.indexAt g).1
    let i := c.gen a.isrc
    let x := dropTiles want i.histFrom i.hist
    c.setGen a.isrc { i with hist := x.2, histFrom := x.1 }
  else c

/-- An index is refused: poisoned, or at or above a nonzero LIMIT (R190). -/
def AddrGen.refuses (a : AddrGen) (x : BitVec 32 × Bool) : Bool := x.2 || (a.limit != 0 && a.limit ≤ x.1.toNat)

/-- Uses the first `n` indices held; at the end of a pass the rest of the present index entry goes, unless the tile was
run again from indices kept for it. -/
def AddrGen.useIndices (a : AddrGen) (n : Nat) (passOver : Bool) : AddrGen :=
  let again := n ≤ a.replay.length && !a.replay.isEmpty
  let b := { a with replay := a.replay.drop n, indices := a.indices.drop (n - a.replay.length) }
  if passOver && !again then { b with indices := [] } else b

/-! ## Passes -/

/-- Tiles of a pass, cut where an FSTOP had ended it. -/
def AddrGen.tilesIn (a : AddrGen) (p : Pass) : Nat :=
  match p.limit with
  | some n => Nat.min n (a.passTiles p.cnt)
  | none => a.passTiles p.cnt

/-- The pass and tile a generator generates next: of the pass in progress, or the first of the next pending pass. -/
def AddrGen.next (a : AddrGen) : Option (Pass × Nat) :=
  match a.cur with
  | some x => some x
  | none => a.passes.head?.map (fun p => (p, 0))

/-- The entry gate holds the next tile (R211): it begins a pass or a new iteration of the outermost dimension, and had not
begun before a scan-out. -/
def AddrGen.atGate (a : AddrGen) (p : Pass) (t : Nat) : Bool :=
  a.entryStream && t % a.outerTiles p.cnt == 0 && a.begun = 0

/-- The tile after (p, t), taken from a generator that has taken its pass out of the pending ones. -/
def AddrGen.step (a : AddrGen) (p : Pass) (t : Nat) : AddrGen :=
  let a := if a.cur.isNone then { a with passes := a.passes.drop 1 } else a
  { a with cur := if t + 1 < a.tilesIn p then some (p, t + 1) else none }

/-! ## Reading (R188, R189, R195, R199) -/

/-- Run k of tile t. -/
def AddrGen.makeRun (a : AddrGen) (p : Pass) (t k : Nat) (x : Option (BitVec 32 × Bool)) : Run :=
  { addr := a.runAddr p t k (x.map (fun i => i.1.toNat)), len := a.run, slot := k,
    withheld := match x with
      | some i => a.refuses i
      | none => false }

/-- Entries of a fetch queue in use: tiles generated and not wholly dequeued. -/
def AddrGen.held (a : AddrGen) : Nat := (a.left.map (fun t => t.n)).sum

/-- Effective run-ahead (R190, R195). -/
def AddrGen.reach (a : AddrGen) : Nat := if a.indexed && 8 ≤ a.isrc then 1 else a.ahead

/-- Bytes of a run in its slot. -/
def AddrGen.slotOf (a : AddrGen) (r : Run) : List (Byte × Bool) :=
  (r.got.getD []) ++ List.replicate (a.slotBytes - r.len) (0, false)

/-- An entry of up to 128 bytes, zero beyond them. -/
def entryOf (bs : List (Byte × Bool)) : Entry :=
  { data := BitVec.ofNat 1024 (ofBytes (bs.map Prod.fst)),
    marks := (List.range 8).foldl (fun (m : BitVec 8) j =>
      if anyBad ((bs.drop (16 * j)).take 16) then m ||| BitVec.ofNat 8 (2 ^ j) else m) 0 }

/-- Entries enter the fetch queue, those a flood has to drop apart (R210). -/
def AddrGen.deliver (a : AddrGen) (es : List Entry) : AddrGen :=
  let k := Nat.min a.skip es.length
  { a with fq := a.fq ++ es.drop k, fresh := a.fresh + (es.length - k), skip := a.skip - k, emitted := a.emitted + es.length }

/-- Delivers the entries whose runs have all returned, strictly in generation order (R195); `n` bounds the tiles. -/
def AddrGen.emit : Nat → AddrGen → AddrGen
  | 0, a => a
  | n + 1, a =>
    match a.tiles with
    | [] => a
    | rs :: ts =>
      let ready := rs.takeWhile (fun r => r.got.isSome)
      let bs := ready.flatMap a.slotOf
      let whole := ready.length == rs.length
      let avail := if whole then ceilDiv bs.length 128 else bs.length / 128
      let es := (rangeFrom a.emitted (avail - a.emitted)).map (fun i => entryOf ((bs.drop (128 * i)).take 128))
      let b := a.deliver es
      if whole then emit n { b with tiles := ts, emitted := 0 } else b

/-- Delivery of generator g, but for one that feeds the unpack channel. -/
def Core.emitGen (c : Core) (g : Nat) : Core :=
  if c.unpacks g then c
  else
    let a := c.gen g
    c.setGen g (AddrGen.emit (a.tiles.length + 1) a)

/-- The MU translates the pages of a tile's runs as their reads leave (R266), and sends the reads over the mesh (R290). -/
def State.walkRuns (s : State) (l g : Nat) (rs : List Run) : List Run × State :=
  rs.foldl (fun (x : List Run × State) r =>
    if r.withheld then (x.1 ++ [r], x.2)
    else
      let w := x.2.walkRead l r.addr r.len
      let y := w.2.askMesh l g (w.2.keyParts l w.1 r.addr r.len)
      (x.1 ++ [{ r with pages := w.1, net := y.1 }], y.2)) ([], s)

/-- AG_TILE_READ (R188 to R190, R193 to R195, R211): the next tile's reads leave once run-ahead, free entries, the entry
gate and the indices allow. -/
def execAgTileRead (c : CoreId) (g : BitVec 2) (s : State) : Answer :=
  let l := c.toNat
  let n := g.toNat
  .next (s.landing l (fun s =>
    let a := (s.core l).gen n
    match a.next with
    | none => s
    | some (p, t) =>
      let e := (s.core l).tileEntries n p.cnt
      if !s.queuesMove l || !(s.core l).reached p.due || !a.en || a.writes || a.reach ≤ a.left.length ||
          16 + a.lsize < a.held + e then s
      else if a.atGate p t && !s.gateOpen l then s.setCore l ((s.core l).setGen n { a with gated := true })
      else
        let need := if a.indexed then a.tileRuns p.cnt else 0
        let pos := (s.core l).indexAt n
        let k := Core.takeIndices n need (need + 1) (s.core l)
        let a := { k.gen n with gated := false }
        let xs := (a.replay ++ a.indices).take need
        if xs.length < need then s.setCore l (k.setGen n a)
        else
          let rs := (List.range (a.tileRuns p.cnt)).map (fun i => a.makeRun p t i (xs[i]?))
          let bad := (rs.filter (fun r => r.withheld)).length
          let s := s.setCore l k
          let f := s.free
          let rs := rs.map (fun r =>
            if r.withheld then
              { r with got := some (((rangeFrom (f + r.slot * a.run) a.run).map Config.freeByte).map (fun b => (b, true))) }
            else r)
          let b := a.step p t
          let b := (({ b with errs := b.errs + BitVec.ofNat 64 bad } : AddrGen).useIndices need b.cur.isNone)
          let tile : GenTile :=
            { n := e - b.skip, last := b.cur.isNone, pass := p, tile := t, idxs := xs, ent := pos.1, used := pos.2 }
          let w := s.walkRuns l n rs
          let b := { b with
            tiles := b.tiles ++ [w.1], left := b.left ++ [tile], begun := b.begun - 1
            told := if b.left.isEmpty && b.deq = 0 then t else b.told }
          let k := w.2.core l
          let k := (((k.setGen n b).pruneIndexer n).emitGen n).acceptFetch
          let s := { w.2.setCore l k with free := f + rs.length * a.run }
          let parts := (w.1.filter (fun r => !r.withheld)).flatMap (fun r => s.fabricParts l r.pages r.addr r.len)
          s.sendReads l n (fabricLines parts)))

/-- The k-th run of a generator that is read and has not returned. -/
def AddrGen.outstanding (a : AddrGen) (k : Nat) : Option Run :=
  ((a.tiles.flatMap id).filter (fun r => r.got.isNone))[k]?

/-- Gives the k-th outstanding run of a list of runs its bytes. -/
def returnRun : List Run → Nat → List (Byte × Bool) → List Run
  | [], _, _ => []
  | r :: t, k, bs =>
    if r.got.isSome then r :: returnRun t k bs
    else match k with
      | 0 => { r with got := some bs } :: t
      | n + 1 => r :: returnRun t n bs

/-- Gives the k-th outstanding run of a generator its bytes. -/
def returnTiles : List (List Run) → Nat → List (Byte × Bool) → List (List Run)
  | [], _, _ => []
  | rs :: ts, k, bs =>
    let n := (rs.filter (fun r => r.got.isNone)).length
    if k < n then returnRun rs k bs :: ts else rs :: returnTiles ts (k - n) bs

/-- A run's bytes are placed (R195), with what the generator counts. -/
def State.placeRun (s : State) (l g k : Nat) (bs : List (Byte × Bool)) (errs late : Nat) : State :=
  let c := s.core l
  let a := c.gen g
  s.setCore l ((c.setGen g { a with
    tiles := returnTiles a.tiles k bs, errs := a.errs + BitVec.ofNat 64 errs
    late := a.late + BitVec.ofNat 64 late }).emitGen g)

/-- The fabric reads of a run of generator g. -/
def State.runReads (s : State) (l g : Nat) (r : Run) : List FabRead :=
  let ls := fabricLines (s.fabricParts l r.pages r.addr r.len)
  s.fabric.reads.filter (fun x => x.core == l && x.gen == g && ls.contains (x.node.toNat, x.line))

/-- FETCH_READ_RETURN (R195, R199): the response of the generator's k-th outstanding run arrives; a run read over the
mesh or the fabric has all its lines first. -/
def execFetchReadReturn (c : CoreId) (g : BitVec 2) (k : Nat) (o : ReadOutcome) (s : State) : Answer :=
  let l := c.toNat
  let n := g.toNat
  .next (s.landing l (fun s => match ((s.core l).gen n).outstanding k with
    | none => s
    | some r =>
      let fs := s.runReads l n r
      if !s.queuesMove l || fs.any (fun x => !x.failed) || !s.arrived r.net then s
      else
        let s := (s.dropReads fs).dropFlits r.net
        let x := s.readRange l r.addr r.len r.pages (some (8 + n)) (if fs.isEmpty then o else .targetFailed)
        let got := x.1
        let bad := got.absent || got.failed || got.error
        let bs := if got.absent || got.failed then got.bytes.map (fun b => (b.1, true)) else got.bytes
        let s := (x.2.placeRun l n k bs (b2n bad) 0).settleInval
        if (lowerPage r.pages).isSome then s.inTime l else s))

/-- READ_DEADLINE_EXPIRE (R199, R200, R279): the run is delivered wholly poisoned and its response will be discarded; the
second miss in succession of a lower tier that no replica serves is a TIER_FAIL. -/
def execReadDeadlineExpire (c : CoreId) (g : BitVec 2) (k : Nat) (s : State) : Answer :=
  let l := c.toNat
  let n := g.toNat
  .next (s.landing l (fun s => match ((s.core l).gen n).outstanding k with
    | none => s
    | some r =>
      if !s.queuesMove l then s
      else
        let s := s.dropReads (s.runReads l n r)
        let x := s.poisonRun r.len
        let s := (x.2.placeRun l n k x.1 1 1).settleInval
        match lowerPage r.pages with
        | none => s
        | some p => s.lateMiss l p (some (8 + n))))

/-! ## Writing (R191) -/

/-- The end of a tile of a WRITE generator: the rest of its last entry is dropped; its pass goes on, ends, or stops
(R189, R194). A tile whose writes are all accepted counts at once (R212). -/
def AddrGen.endTile (a : AddrGen) (p : Pass) (t : Nat) (waits : Bool) : AddrGen :=
  let b := { a.step p t with wbytes := [], wentries := 0, tileSeq := a.tileSeq + 1 }
  let b := if waits then { b with openTiles := b.openTiles ++ [a.tileSeq] } else { b with tilesDone := b.tilesDone + 1 }
  let b := if b.stopping then { b with cur := none, stopping := false } else b
  { b with told := match b.cur with
      | some (_, u) => u
      | none => 0 }

/-- A run of core l's MU reaches host memory, by the host window or a page of tier 3. -/
def State.runToHost (s : State) (l : Nat) (r : Run) : Bool :=
  (s.keyParts l [] r.addr r.len).any (fun q => inHostWindow q.1)

/-- Writes run i of the tile in hand of generator g, its bytes given; a run withheld, or refused by its target, is counted
(R190, R199). The host may end a write with an error or a snoop conflict (R348): a free value says whether (log 139). -/
def State.writeRun (s : State) (l g : Nat) (p : Pass) (t i : Nat) (x : Option (BitVec 32 × Bool))
    (bs : List (Byte × Bool)) : State :=
  let a := (s.core l).gen g
  let r := a.makeRun p t i x
  let toHost := !r.withheld && s.runToHost l r
  let refused := toHost && bit (Config.freeByte s.free) 0
  let s := if toHost then { s with free := s.free + 1 } else s
  let count := fun (s : State) =>
    let c := s.core l
    let b := c.gen g
    s.setCore l (c.setGen g { b with errs := b.errs + 1 })
  if r.withheld then count s
  else if refused then count (s.walkWrite l r.addr r.len)
  else
    let y := s.writeRange l r.addr (bs.take a.run)
    match y.1 with
    | .done =>
      let z := y.2.writeMesh l g a.tileSeq i (y.2.keyParts l [] r.addr r.len)
      z.2.sendWrites l g a.tileSeq i (fabricLines (z.2.fabricParts l [] r.addr r.len))
    | _ => count y.2

/-- The MU translates the pages that run i of the tile in hand writes (R266). -/
def State.walkRun (s : State) (l g : Nat) (p : Pass) (t i : Nat) (x : Option (BitVec 32 × Bool)) : State :=
  let r := ((s.core l).gen g).makeRun p t i x
  if r.withheld then s else s.walkWrite l r.addr r.len

/-- Run i of the tile in hand would be held at the MU: its page moves (R275). -/
def State.runHeld (s : State) (l g : Nat) (p : Pass) (t i : Nat) (x : Option (BitVec 32 × Bool)) : Bool :=
  let a := (s.core l).gen g
  let r := a.makeRun p t i x
  !r.withheld && s.writeHeld l r.addr r.len

/-- A write of a tile of the generator is not yet accepted. -/
def State.tileWaits (s : State) (l g : Nat) : Bool := s.tileOpen l g ((s.core l).gen g).tileSeq

/-- Ends the tile in hand of a WRITE generator; the fetch queue is accepted on. -/
def State.endWriteTile (s : State) (l g : Nat) (p : Pass) (t need : Nat) : State :=
  let c := s.core l
  let a := c.gen g
  let b := a.endTile p t (s.tileWaits l g)
  s.setCore l (c.setGen g (b.useIndices need b.cur.isNone)).acceptFetch

/-- Whole runs of the tile in hand are written from the bytes at hand, from run i on; `n` bounds them. -/
def State.writeRuns (l g : Nat) (p : Pass) (t : Nat) (xs : List (BitVec 32 × Bool)) : Nat → Nat → State → State
  | 0, _, s => s
  | n + 1, i, s =>
    let a := (s.core l).gen g
    if a.wbytes.length < a.slotBytes || a.tileRuns p.cnt ≤ i then s
    else
      let s := s.writeRun l g p t i (xs[i]?) (a.wbytes.take a.slotBytes)
      let c := s.core l
      let b := c.gen g
      writeRuns l g p t xs n (i + 1) (s.setCore l (c.setGen g { b with wbytes := b.wbytes.drop b.slotBytes }))

/-- AG_WRITE_ENTRY (R189 to R191, R237): a WRITE generator takes the next entry of WQ and writes the runs it completes; one
fed by the pack channel hands the entry to that channel. -/
def execAgWriteEntry (c : CoreId) (g : BitVec 2) (s : State) : Answer :=
  let l := c.toNat
  let n := g.toNat
  .next (s.landing l (fun s =>
    let a := (s.core l).gen n
    match a.next with
    | none => s
    | some (p, t) =>
      if !s.queuesMove l || !(s.core l).reached p.due || !a.en || !a.writes || !((s.core l).queue a.wq).ready (s.core l).phase then s
      else if (s.core l).packs n then
        (if frameEntries (s.core l).pk.pFp32 ≤ (s.core l).pk.packIn.length then s
         else match (s.core l).takeFrom a.wq with
          | none => s
          | some (e, k) =>
            let b := k.gen n
            let b := if b.cur.isNone then { b with passes := b.passes.drop 1, cur := some (p, t) } else b
            s.setCore l (({ k with pk := { k.pk with packIn := k.pk.packIn ++ [e] } } : Core).setGen n
              { b with wentries := b.wentries + 1 }).acceptFetch)
      else
        let need := if a.indexed then a.tileRuns p.cnt else 0
        let k := Core.takeIndices n need (need + 1) (s.core l)
        let a := k.gen n
        let xs := (a.replay ++ a.indices).take need
        let s := s.setCore l k
        let i := (a.wentries * 128 - a.wbytes.length) / a.slotBytes
        let whole := Nat.min (a.tileRuns p.cnt - i) ((a.wbytes.length + 128) / a.slotBytes)
        let s := if xs.length < need then s else
          (rangeFrom i whole).foldl (fun (u : State) j => u.walkRun l n p t j (xs[j]?)) s
        if xs.length < need || (rangeFrom i whole).any (fun j => s.runHeld l n p t j (xs[j]?)) then s
        else match (s.core l).takeFrom a.wq with
          | none => s
          | some (e, k) =>
            let b := k.gen n
            let b := if b.cur.isNone then { b with passes := b.passes.drop 1, cur := some (p, t) } else b
            let b := { b with wbytes := b.wbytes ++ e.bytes, wentries := b.wentries + 1 }
            let s := s.setCore l (((k.setGen n b).pruneIndexer n).acceptFetch)
            let s := State.writeRuns l n p t xs (whole + 1) i s
            if k.tileEntries n p.cnt ≤ b.wentries then s.endWriteTile l n p t need else s))

/-! ## The activation packer (R236 to R241) -/

/-- Element format of an MX kind (R241). -/
def kindFmt (kind : Nat) : Nat := if kind = 0 then 5 else 4

/-- The format of unpacked elements. -/
def unpackedFmt (fp32 : Bool) : Nat := if fp32 then 0xA else 0

/-- One block packed in an MX kind: scale, 32 codes, its poison (R238, R240). -/
def packBlock (kind : Nat) (fp32 : Bool) (xs : List (Nat × Bool)) : Nat × List Nat × Bool :=
  let vs := xs.map (fun x => decodeElem (unpackedFmt fp32) x.1)
  let sc := chooseScale (kindFmt kind) vs
  (sc, vs.map (fun v => (encodeScaled (kindFmt kind) sc .nearest v).1), xs.any Prod.snd)

/-- Frame bytes of 4,096 elements, and the blocks packed with scale 0xFF. -/
def packFrame (kind : Nat) (fp32 : Bool) (xs : List (Nat × Bool)) : List (Byte × Bool) × Nat :=
  if kind = 2 then
    let bits := fun (ys : List (Nat × Bool)) =>
      toBytes 4 (ys.foldr (fun x w => 2 * w + b2n (activeElem (unpackedFmt fp32) x.1)) 0)
    ((blocks32 129 xs).flatMap (fun b => (bits b).map (fun v => (v, b.any Prod.snd))), 0)
  else
    let bs := (blocks32 129 xs).map (packBlock kind fp32)
    (bs.map (fun b => (BitVec.ofNat 8 b.1, false)) ++
      bs.flatMap (fun b => b.2.1.map (fun v => (BitVec.ofNat 8 v, b.2.2))),
     (bs.filter (fun b => b.1 == 0xFF)).length)

/-- PACK_FRAME (R237, R238, R240): a whole frame in the pack channel is converted and written as one run, which its target
may refuse. -/
def execPackFrame (c : CoreId) (s : State) : Answer :=
  let l := c.toNat
  .next (s.landing l (fun s =>
    let k := s.core l
    let n := k.pk.pGen
    let a := k.gen n
    let fe := frameEntries k.pk.pFp32
    match a.cur with
    | none => s
    | some (p, t) =>
      if !s.queuesMove l || !k.pk.pEn || k.pk.packIn.length < fe then s
      else
        let need := if a.indexed then a.tileRuns p.cnt else 0
        let k := Core.takeIndices n need (need + 1) k
        let a := k.gen n
        let xs := (a.replay ++ a.indices).take need
        let s := s.setCore l k
        let i := (a.wentries - fe) / fe
        let s := if xs.length < need then s else s.walkRun l n p t i (xs[i]?)
        if xs.length < need || s.runHeld l n p t i (xs[i]?) then s
        else
          let k := s.core l
          let els := (k.pk.packIn.take fe).flatMap (unpackEntry (unpackedFmt k.pk.pFp32))
          let f := packFrame k.pk.pKind k.pk.pFp32 els
          let s := s.setCore l { k with pk := { k.pk with
            packIn := k.pk.packIn.drop fe, pframes := k.pk.pframes + 1
            nanblk := k.pk.nanblk + BitVec.ofNat 32 f.2 } }
          let s := s.writeRun l n p t i (xs[i]?) f.1
          if a.tileRuns p.cnt ≤ i + 1 then s.endWriteTile l n p t need else s))

/-- An unpacked element of a frame: code of element e, with its block's poison (R239, R240). -/
def unpackElem (kind : Nat) (fp32 : Bool) (bs : List (Byte × Bool)) (e : Nat) : Nat × Bool :=
  let fmt := unpackedFmt fp32
  let at_ := fun (i : Nat) => bs.getD i (0, false)
  let badSector := fun (i : Nat) => anyBad ((bs.drop (i / 16 * 16)).take 16)
  if kind = 2 then
    (if bit (at_ (e / 8)).1 (e % 8) then (if fp32 then 0x3F800000 else 0x3F80) else 0, badSector (e / 8))
  else
    let j := e / 32
    let v := decodeScaled (kindFmt kind) (at_ j).1.toNat (at_ (128 + e)).1.toNat
    ((convertTo fmt .nearest v).1, badSector (128 + 32 * j) || badSector (144 + 32 * j) || badSector j)

/-- The entries a frame unpacks to. -/
def unpackFrame (kind : Nat) (fp32 : Bool) (bs : List (Byte × Bool)) : List Entry :=
  let per := 4096 / frameEntries fp32
  (List.range (frameEntries fp32)).map (fun i =>
    packEntry (unpackedFmt fp32) ((rangeFrom (per * i) per).map (unpackElem kind fp32 bs)))

/-- UNPACK_FRAME (R237, R239, R240): the next frame of the oldest tile that has returned is decoded and delivered. -/
def execUnpackFrame (c : CoreId) (s : State) : Answer :=
  let l := c.toNat
  .next (s.landing l (fun s =>
    let k := s.core l
    let n := k.pk.uGen
    let a := k.gen n
    let fe := frameEntries k.pk.uFp32
    match a.tiles with
    | [] => s
    | rs :: ts =>
      let i := a.emitted / fe
      match rs[i]? with
      | none => s
      | some r =>
        match r.got with
        | none => s
        | some bs =>
          if !s.queuesMove l || !k.pk.uEn then s
          else
            let b := a.deliver (unpackFrame k.pk.uKind k.pk.uFp32 bs)
            let b := if rs.length ≤ i + 1 then { b with tiles := ts, emitted := 0 } else b
            s.setCore l (({ k with pk := { k.pk with uframes := k.pk.uframes + 1 } } : Core).setGen n b)))

end Sys2Proof.Machine
end

