-- ==== Sys2Proof/Machine/Dma.lean ====
section
/-! DEFINITION. Machine/Dma.lean: a DMA channel carries out the next descriptor of its chain (R115, R200 to R208). One
descriptor is one step (log 35). -/

namespace Sys2Proof.Machine

/-! ## Checks (R205) -/

/-- ADDR_ABSENT, ADDR_ALIGN, ADDR_PROT, IMEM_ACTIVE, DESC_FORMAT, OP_RESERVED, BUS_ERROR, DESC_POISON. -/
def dcAbsent : Nat := 1
/-- ADDR_ALIGN. -/
def dcAlign : Nat := 2
/-- ADDR_PROT. -/
def dcProt : Nat := 3
/-- IMEM_ACTIVE. -/
def dcImemActive : Nat := 4
/-- DESC_FORMAT. -/
def dcFormat : Nat := 5
/-- OP_RESERVED. -/
def dcOp : Nat := 6
/-- BUS_ERROR. -/
def dcBus : Nat := 7
/-- DESC_POISON. -/
def dcPoison : Nat := 8

/-- A zero field is nonzero, or LEN is 0. -/
def Desc.formatBad (d : Desc) : Bool :=
  fld d.w0 60 2 != 0 || fld d.w0 0 56 != 0 || fld d.w1 17 47 != 0 || fld d.w2 48 16 != 0 || fld d.w3 48 16 != 0 ||
    fld d.w4 48 16 != 0 || d.len = 0

/-- The rows of one side: address and length. -/
def Desc.spans (d : Desc) (dst : Bool) : List (Nat × Nat) :=
  (List.range d.rows).map (fun r => (if dst then rowAddr d.dst d.dstride r else rowAddr d.src d.sstride r, d.len))

/-- CSR words that n bytes at an address touch. -/
def csrWords (a n : Nat) : List CsrTarget :=
  (rangeFrom (a / 8) ((a + n - 1) / 8 + 1 - a / 8)).map (fun k => csrTarget (8 * k))

/-- CSR words of a span. -/
def State.spanWords (s : State) (x : Nat × Nat) : List CsrTarget :=
  (partsOf x.1 x.2).flatMap (fun q => match s.whereIs q.1 with
    | .csr _ => csrWords q.1 q.2
    | _ => [])

/-- A byte of a span lies in a reserved range, or in a page that the table does not map. -/
def State.spanAbsent (s : State) (l : Nat) (x : Nat × Nat) : Bool :=
  (partsOf x.1 x.2).any (fun q => match s.whereIs q.1 with
    | .absent => true
    | .object p _ => !bit (s.translate l p).1 63
    | _ => false) || (s.spanWords x).any s.csrAbsent

/-- A CSR access of a span breaks R27. -/
def State.spanAlign (s : State) (x : Nat × Nat) : Bool :=
  (partsOf x.1 x.2).any (fun q => match s.whereIs q.1 with
    | .csr _ => q.1 % 8 != 0 || q.2 % 8 != 0
    | _ => false)

/-- A CSR access of a span breaks R28 or R29. -/
def State.spanProt (s : State) (l : Nat) (wr : Bool) (x : Nat × Nat) : Bool :=
  (s.spanWords x).any (fun t => s.progCsr l wr t == some stAddrProt)

/-- The MU translates the pages of ranges in order, up to and with the first that is absent: a check's translations are cached and
their misses counted like any other (R266). -/
def State.walkSpans (s : State) (l : Nat) (xs : List (Nat × Nat)) : State :=
  ((xs.flatMap (fun x => partsOf x.1 x.2)).foldl (fun (y : Bool × State) q =>
    if y.1 then y else match y.2.whereIs q.1 with
      | .absent => (true, y.2)
      | .csr _ => ((csrWords q.1 q.2).any y.2.csrAbsent, y.2)
      | .object p _ =>
        let t := y.2.translate l p
        (!bit t.1 63, t.2)
      | _ => y) (false, s)).2

/-- The first cause a descriptor of core l meets before any byte moves, in the order of R205, and none otherwise. -/
def State.descCause (s : State) (l : Nat) (d : Desc) (poisoned : Bool) : Option Nat :=
  let src := if d.op = 0 then d.spans false else []
  let dst := d.spans true
  if poisoned then some dcPoison
  else if d.formatBad then some dcFormat
  else if 2 ≤ d.op then some dcOp
  else if src.any (s.spanAbsent l) || dst.any (s.spanAbsent l) then some dcAbsent
  else if src.any s.spanAlign || dst.any s.spanAlign then some dcAlign
  else if src.any (s.spanProt l false) || dst.any (s.spanProt l true) then some dcProt
  else if dst.any (fun x => (s.spanWords x).any s.imemActive) then some dcImemActive
  else none

/-- What the checks of a refused descriptor have translated: a cause of its own words comes before any address. -/
def State.walkChecked (s : State) (l : Nat) (d : Desc) (cause : Nat) : State :=
  if cause = dcPoison || cause = dcFormat || cause = dcOp then s
  else s.walkSpans l ((if d.op = 0 then d.spans false else []) ++ d.spans true)

/-! ## Moving (R203, R206): writes leave in 128-byte pieces from the start of each row (log 82) -/

/-- Pieces of a row. -/
def Desc.rowPieces (d : Desc) : Nat := ceilDiv d.len 128

/-- Bytes of CSR words. -/
def State.csrBytes (s : State) (a n : Nat) : List (Byte × Bool) :=
  clean (((csrWords a n).flatMap (fun t => toBytes 8 (s.csrRead t).toNat)).take n)

/-- Reads a piece, its pages translated as it is read: its bytes, and whether its target or path failed. A lower-tier read
that comes in time ends a row of missed ones (R279). -/
def State.dmaRead (s : State) (l a n : Nat) (o : ReadOutcome) : Got × State :=
  let w := s.walkRead l a n
  let x := (partsOf a n).foldl (fun (x : Got × State) q =>
    match x.2.whereIs q.1 with
    | .csr _ => ({ x.1 with bytes := x.1.bytes ++ x.2.csrBytes q.1 q.2 }, x.2)
    | _ =>
      let y := x.2.readPart l q.1 q.2 w.1 none o
      ({ bytes := x.1.bytes ++ y.1.bytes, failed := x.1.failed || y.1.failed || y.1.absent, error := false }, y.2))
    (({ bytes := [] } : Got), w.2)
  (x.1, if (lowerPage w.1).isSome then x.2.inTime l else x.2)

/-- A piece whose read has missed its deadline: its bytes are free and marked; a lower tier's second miss in succession is a
TIER_FAIL (R205, R279). -/
def State.dmaLate (s : State) (l a n : Nat) : Got × State :=
  let w := s.walkRead l a n
  let x := w.2.poisonRun n
  ({ bytes := x.1 }, match lowerPage w.1 with
    | some p => x.2.lateMiss l p none
    | none => x.2)

/-- Reads a piece of a descriptor's source as its outcome says. -/
def State.dmaPiece (s : State) (l a n : Nat) (o : PieceRead) : Got × State :=
  match o with
  | .met r => s.dmaRead l a n r
  | .late => s.dmaLate l a n

/-- Writes CSR words from bytes. -/
def State.csrFill (s : State) (a : Nat) (bs : List Byte) : State :=
  ((csrWords a bs.length).zipIdx).foldl (fun (t : State) x =>
    t.csrPut x.1 (BitVec.ofNat 64 (ofBytes ((bs.drop (8 * x.2)).take 8)))) s

/-- One part of a write; whether it was accepted. -/
def State.dmaPut (s : State) (l a : Nat) (bs : List (Byte × Bool)) : Bool × State :=
  match s.whereIs a with
  | .csr _ => (true, s.csrFill a (bs.map Prod.fst))
  | _ =>
    let y := s.writePart l a bs
    (y.1 == .done, y.2)

/-- Writes bytes at an address up to the first part that is refused; the bytes accepted. -/
def State.dmaWrite (s : State) (l a : Nat) (bs : List (Byte × Bool)) : Nat × State :=
  let x := (partsOf a bs.length).foldl (fun (x : Bool × Nat × State) q =>
    if x.1 then
      let y := x.2.2.dmaPut l q.1 ((bs.drop (q.1 - a)).take q.2)
      (y.1, if y.1 then x.2.1 + q.2 else x.2.1, y.2)
    else x) (true, 0, s)
  x.2

/-- The bytes of a FILL at an offset of its row. -/
def fillBytes (pattern : Word) (off n : Nat) : List (Byte × Bool) :=
  (List.range n).map (fun i => (BitVec.ofNat 8 (fld pattern (8 * ((off + i) % 8)) 8), false))

/-- Destination bytes that are undefined take free values (R206). -/
def State.undefinedPiece (s : State) (l a n : Nat) : State :=
  let f := s.free
  let bs := (List.range n).map (fun i => (Config.freeByte (f + i), bit (Config.freeByte (f + n + i / 16)) 0))
  (({ s with free := f + 2 * n } : State).dmaWrite l a bs).2

/-- How far a descriptor has come. -/
structure Moved where
  s : State
  bytes : Nat := 0
  poisoned : Bool := false
  failed : Bool := false

/-- The bytes of row r from its pieces, in order, up to the first that fails: its read, or its write where `limit` says so. -/
def State.rowBytes (s : State) (l : Nat) (d : Desc) (o : DmaOutcome) (limit : Option Nat) (r : Nat) : Got × State :=
  (List.range d.rowPieces).foldl (fun (x : Got × State) k =>
    let i := r * d.rowPieces + k
    if x.1.failed then x
    else if limit == some i then ({ x.1 with failed := true }, x.2)
    else
      let n := Nat.min 128 (d.len - 128 * k)
      let g := if d.op = 0 then x.2.dmaPiece l (rowAddr d.src d.sstride r + 128 * k) n (o.read i)
        else (({ bytes := fillBytes d.w6 (128 * k) n } : Got), x.2)
      if g.1.failed then ({ x.1 with failed := true }, g.2)
      else ({ x.1 with bytes := x.1.bytes ++ g.1.bytes }, g.2)) (({ bytes := [] } : Got), s)

/-- Row r: the pieces before the first that fails are written; from there on the destination is undefined. -/
def Moved.row (l : Nat) (d : Desc) (o : DmaOutcome) (limit : Option Nat) (m : Moved) (r : Nat) : Moved :=
  let dst := rowAddr d.dst d.dstride r
  if m.failed then { m with s := m.s.undefinedPiece l dst d.len }
  else
    let g := m.s.rowBytes l d o limit r
    let w := g.2.dmaWrite l dst g.1.bytes
    let whole := w.1 == g.1.bytes.length
    let n := if whole then w.1 else w.1 / 128 * 128
    let failed := g.1.failed || !whole
    { s := if failed then w.2.undefinedPiece l (dst + n) (d.len - n) else w.2
      bytes := m.bytes + n, poisoned := m.poisoned || anyBad (g.1.bytes.take n), failed := failed }

/-- The rows of a descriptor's destination together cover the n bytes at an address. -/
def Desc.covers (d : Desc) (a n : Nat) : Bool :=
  (rangeFrom a n).all (fun b => (d.spans true).any (fun x => x.1 ≤ b && b < x.1 + x.2))

/-- A FILL has cleared every sector that its rows together cover (R203): those that a row covers whole are clear already, and the
sectors at a row's two ends are looked at here. -/
def State.clearFilled (s : State) (d : Desc) : State :=
  if d.op = 1 then
    ((d.spans true).flatMap (fun x => [x.1 / 16 * 16, (x.1 + x.2 - 1) / 16 * 16])).foldl (fun (t : State) a =>
      if !d.covers a 16 then t else match t.objectAt a with
      | .mem k => if t.poisonedAt a then t else { t with marks := writeMarks t.marks k (List.replicate 16 false) }
      | _ => t) s
  else s

/-- The destination lies in an instruction bank: always confirmed (R115, R207). -/
def State.toImem (s : State) (d : Desc) : Bool :=
  (d.spans true).any (fun x => (s.spanWords x).any (fun t => match t with
    | .core _ o => o < 0x10000
    | _ => false))

/-- The descriptor is confirmed (R207). -/
def State.confirms (s : State) (d : Desc) : Bool := !d.isPosted || s.toImem d

/-- Carries out a descriptor without a cause. -/
def State.carryOut (s : State) (l : Nat) (d : Desc) (o : DmaOutcome) : Moved :=
  let limit := match o.writes with
    | .failedAfter k => some k
    | .readBackFailed => if s.confirms d then some (d.rows * d.rowPieces - 1) else none
    | .accepted => none
  let m := (List.range d.rows).foldl (Moved.row l d o limit) { s := s }
  if m.failed then m else { m with s := m.s.clearFilled d }

/-! ## Lines of other nodes (R264, R325, R326) -/

/-- The lines of other nodes that the first n bytes of one side of a descriptor touch, in order. -/
def State.descLines (s : State) (l : Nat) (d : Desc) (dst : Bool) (n : Nat) : List (Nat × Nat) :=
  fabricLines (((d.spans dst).zipIdx).flatMap (fun x => s.fabricParts l [] x.1.1 (Nat.min x.1.2 (n - x.2 * d.len))))

/-- Piece i of one side of a descriptor: its address and bytes. -/
def Desc.pieceAt (d : Desc) (dst : Bool) (i : Nat) : Nat × Nat :=
  let k := i % d.rowPieces
  let r := i / d.rowPieces
  ((if dst then rowAddr d.dst d.dstride r else rowAddr d.src d.sstride r) + 128 * k, Nat.min 128 (d.len - 128 * k))

/-- Piece i of one side of a descriptor reaches one of the bytes given by key and length. -/
def State.pieceMeets (s : State) (l : Nat) (d : Desc) (dst : Bool) (lost : List (Nat × Nat)) (i : Nat) : Bool :=
  let x := d.pieceAt dst i
  (s.keyParts l [] x.1 x.2).any (fun q => lost.any (fun y => q.1 < y.1 + y.2 && y.1 < q.1 + q.2))

/-- Bytes of a fabric line. -/
def fabricRun (node line : Nat) : Nat × Nat := (fabricKey node (128 * line), 128)

/-- What the reads of a descriptor met on their way: a line that another node failed, and one lost on the mesh, which misses
its deadline (R297). -/
def State.pieceFails (s : State) (l : Nat) (d : Desc) (failed lost : List (Nat × Nat)) : List (Nat × PieceRead) :=
  if failed.isEmpty && lost.isEmpty then [] else
  (List.range (d.rows * d.rowPieces)).filterMap (fun i =>
    if s.pieceMeets l d false failed i then some (i, .met .targetFailed)
    else if s.pieceMeets l d false lost i then some (i, .late) else none)

/-- Bytes of a descriptor's pieces before the first that reaches bytes that were refused or lost. -/
def State.bytesBefore (s : State) (l : Nat) (d : Desc) (lost : List (Nat × Nat)) : Nat :=
  match (List.range (d.rows * d.rowPieces)).find? (s.pieceMeets l d true lost) with
  | some i => i / d.rowPieces * d.len + i % d.rowPieces * 128
  | none => d.rows * d.len

/-- The destination from byte n of a descriptor on is undefined (R206). -/
def State.undefinedFrom (s : State) (l : Nat) (d : Desc) (n : Nat) : State :=
  ((d.spans true).zipIdx).foldl (fun (t : State) x =>
    let skip := Nat.min d.len (n - x.2 * d.len)
    if skip < d.len then t.undefinedPiece l (x.1.1 + skip) (d.len - skip) else t) s

/-! ## Status and chain (R203, R204, R207, R212) -/

/-- Word 7. -/
def statusWord (cause bytes : Nat) (poisoned prior : Bool) : Word :=
  flag64 63 true ||| flag64 62 (cause != 0) ||| flag64 61 poisoned ||| flag64 60 prior ||| at64 48 8 cause ||| at64 0 48 bytes

/-- Word 7 is written, then OWN is cleared, at a descriptor's offset of the core's slice. -/
def State.writeBack (s : State) (l off : Nat) (w : Word) : State :=
  let a := sliceBase l + off
  let s := s.writeMem (a + 56) (clean (toBytes 8 w.toNat))
  s.writeMem (a + 7) (clean [getByte s.mem (a + 7) &&& 0x7F])

/-- The chain in hand ends, or goes on at an offset. -/
def DmaChannel.go (d : DmaChannel) (next : Option Nat) (ownStop : Bool) : DmaChannel :=
  match next with
  | some off => { d with chains := (off, 0) :: d.chains.drop 1, busy := true, fab := none }
  | none => { d with chains := d.chains.drop 1, busy := false, ownStop := ownStop, abandoned := false, fab := none }

/-- A descriptor has completed: what the channel records. One whose cause was found before any byte moved wrote nothing, and
confirms nothing (DESIGN CHOICE, log 125). -/
def DmaChannel.completed (d : DmaChannel) (x : Desc) (confirmed : Bool) (cause : Nat) : DmaChannel :=
  let d := { d with ndone := d.ndone + 1, nbad := if cause = 0 then d.nbad else d.nbad + 1 }
  if cause != 0 && cause != dcBus then d
  else if confirmed then { d with posted := [], prior := false }
  else { d with posted := d.posted ++ [(x.dst, x.rows, x.len, x.dstride)] }

/-- Completes the descriptor at an offset with a cause, the bytes moved and whether poisoned data were copied. -/
def State.endDesc (s : State) (l ch off : Nat) (x : Desc) (cause bytes : Nat) (poisoned : Bool) : State :=
  let d := (s.core l).chan ch
  let confirmed := s.confirms x
  let prior := d.prior && confirmed && (cause = 0 || cause = dcBus)
  let cause := if prior then dcBus else cause
  let s := s.writeBack l off (statusWord cause bytes poisoned prior)
  let next := if x.link && cause != dcPoison then some x.next else none
  let c := s.core l
  let d := ((c.chan ch).completed x confirmed cause).go next false
  s.setCore l (c.setChan ch { d with desc := BitVec.ofNat 16 (off / 64) }).acceptDma

/-- Records what a channel waits for on the fabric, with the descriptor in hand. -/
def State.setFab (s : State) (l ch off : Nat) (f : DmaFab) : State :=
  let c := s.core l
  s.setCore l (c.setChan ch { c.chan ch with fab := some f, busy := true, desc := BitVec.ofNat 16 (off / 64) })

/-- Sends the next lines of a descriptor: as READs while it has not moved, then as WRITEs. -/
def State.sendFab (s : State) (l ch off : Nat) (x : Desc) (f : DmaFab) : State :=
  let now := f.lines.take fabricBatch
  let s := s.setFab l ch off { f with lines := f.lines.drop fabricBatch }
  if f.close.isNone then s.sendReads l (4 + ch) now
  else s.sendWrites l (4 + ch) (if s.confirms x then 0 else 1) ((s.core l).chan ch).ndone.toNat now

/-- The keys and bytes that the first n bytes of one side of a descriptor reach. -/
def State.descParts (s : State) (l : Nat) (d : Desc) (dst : Bool) (n : Nat) : List (Nat × Nat) :=
  ((d.spans dst).zipIdx).flatMap (fun x => s.keyParts l [] x.1.1 (Nat.min x.1.2 (n - x.2 * d.len)))

/-- A line that the channel has sent is not yet accepted or answered: over the fabric, or on the mesh. -/
def State.channelOut (s : State) (l ch : Nat) : Bool :=
  s.onFabric l (4 + ch) || s.mesh.flits.any (fun x => match x.2.kind with
    | .write c o _ _ _ _ _ => c == l && o == 4 + ch
    | _ => false)

/-- Moves a descriptor's bytes, once the lines of its source are here; the lines that its destination has elsewhere are then
sent over the mesh and the fabric, and with none it completes. -/
def State.moveDesc (s : State) (l ch off : Nat) (x : Desc) (o : DmaOutcome) (lost : List (Nat × Nat)) : State :=
  let failed := ((s.readsOf l (4 + ch)).filter (fun r => r.failed)).map (fun r => fabricRun r.node.toNat r.line)
  let fails := s.pieceFails l x failed lost
  let s := s.dropReads (s.readsOf l (4 + ch))
  let m := s.carryOut l x { o with reads := fails ++ o.reads }
  let cause := if m.failed then dcBus else 0
  let w := m.s.writeMesh l (4 + ch) (if m.s.confirms x then 0 else 1) ((s.core l).chan ch).ndone.toNat
    (m.s.descParts l x true m.bytes)
  let ls := w.2.descLines l x true m.bytes
  if w.1.isEmpty && ls.isEmpty && !(w.2.confirms x && w.2.channelOut l ch) then
    w.2.endDesc l ch off x cause m.bytes m.poisoned
  else w.2.sendFab l ch off x { lines := ls, close := some (cause, m.bytes, m.poisoned), net := w.1 }

/-- The last line of a CONFIRMED descriptor is read back over the mesh and the fabric (R207). -/
def State.readBack (s : State) (l ch off : Nat) (x : Desc) (f : DmaFab) (n : Nat) : State :=
  let w := s.askMesh l (4 + ch) ((cutLines (s.descParts l x true n)).reverse.take 1)
  (w.2.setFab l ch off { f with back := true, net := w.1 }).sendReads l (4 + ch) ((s.descLines l x true n).reverse.take 1)

/-- The bytes of a descriptor's writes that were refused, or lost, while it still moved data, and of a read back that failed. -/
def State.descLost (s : State) (l ch : Nat) (f : DmaFab) : List (Nat × Nat) :=
  f.lost ++ ((s.writesOf l (4 + ch)).filter (fun w => w.failed)).map (fun w => fabricRun w.node.toNat w.line) ++
    (s.readsOf l (4 + ch)).map (fun r => fabricRun r.node.toNat r.line)

/-- Ends a descriptor whose lines have all been sent, or one of whose lines has failed before: a POSTED one at once; a CONFIRMED
one once they are accepted and the last is read back (R206, R207). -/
def State.closeDesc (s : State) (l ch off : Nat) (x : Desc) (f : DmaFab) (e : Nat × Nat × Bool) : State :=
  let ws := (s.writesOf l (4 + ch)).filter (fun w => w.failed)
  let rs := s.readsOf l (4 + ch)
  let lost := s.descLost l ch f
  if !lost.isEmpty then
    let n := Nat.min e.2.1 (s.bytesBefore l x lost)
    let s := (s.dropReads rs).dropWrites ws
    (s.undefinedFrom l x n).endDesc l ch off x dcBus n e.2.2
  else if !s.confirms x || f.back || e.1 != 0 then s.endDesc l ch off x e.1 e.2.1 e.2.2
  else s.readBack l ch off x f e.2.1

/-- A flit that a channel waits for is still on the mesh. -/
def State.flitsOut (s : State) (ns : List Nat) : Bool :=
  ns.any (fun n => match find? s.mesh.flits n with
    | some f => !f.delivered
    | none => false)

/-- A descriptor in hand that waits for the mesh or the fabric: while a line of a CONFIRMED one, or of a source, is not answered
it waits on. With its source here, one whose instruction bank has become the active one ends as a descriptor taken up now
would (R113, R205), and one whose destination page has begun to move waits (R276). -/
def State.goOnFab (s : State) (l ch off : Nat) (x : Desc) (o : DmaOutcome) (f : DmaFab) : State :=
  if (s.onFabric l (4 + ch) || s.flitsOut f.net) && (f.close.isNone || !f.lines.isEmpty) then s
  else if f.close.isSome && s.confirms x && (s.channelOut l ch || s.flitsOut f.net) then s
  else if !f.lines.isEmpty && (f.close.isNone || (s.descLost l ch f).isEmpty) then s.sendFab l ch off x f
  else
    let t := if f.close.isNone || s.confirms x then s.dropFlits f.net else s
    match f.close with
    | some e => t.closeDesc l ch off x f e
    | none =>
      if (x.spans true).any (fun p => (s.spanWords p).any s.imemActive) then
        (t.dropReads (t.readsOf l (4 + ch))).endDesc l ch off x dcImemActive 0 false
      else if (x.spans true).any (fun p => s.writeHeld l p.1 p.2) then s
      else t.moveDesc l ch off x o f.lost

/-- The pages of a descriptor's destination are translated, in order (R266). -/
def State.walkDst (s : State) (l : Nat) (x : Desc) : State :=
  (x.spans true).foldl (fun (t : State) p => t.walkWrite l p.1 p.2) s

/-- Takes up a descriptor without a cause: one whose destination page moves waits (R275); the source's lines that lie
elsewhere are asked for first. -/
def State.takeDesc (s : State) (l ch off : Nat) (x : Desc) (o : DmaOutcome) : State :=
  let s := s.walkDst l x
  if (x.spans true).any (fun p => s.writeHeld l p.1 p.2) then s
  else
    let n := if x.op = 0 then x.rows * x.len else 0
    let w := s.askMesh l (4 + ch) (s.descParts l x false n)
    let ls := w.2.descLines l x false n
    if w.1.isEmpty && ls.isEmpty then w.2.moveDesc l ch off x o []
    else w.2.sendFab l ch off x { lines := ls, net := w.1 }

/-- DMA_DESCRIPTOR (R203): the channel reads the next descriptor of its chain, no earlier than 3 slots after its DMA's issue
(R201), and carries it out; one that waits for the mesh or the fabric goes on. -/
def execDmaDescriptor (c : CoreId) (ch : BitVec 1) (o : DmaOutcome) (s : State) : Answer :=
  let l := c.toNat
  let n := ch.toNat
  .next (match ((s.core l).chan n).chains with
    | [] => s
    | (off, due) :: _ =>
      let a := sliceBase l + off
      let x := readDesc s.mem a
      match ((s.core l).chan n).fab with
      | some f => s.goOnFab l n off x o f
      | none =>
        if !s.queuesMove l || !(s.core l).reached due then s
        else
          let bad := (List.range 4).any (fun j => marked s.marks (a + 16 * j))
          if !x.own && !bad then
            let k := s.core l
            s.setCore l (k.setChan n { (k.chan n).go none true with desc := BitVec.ofNat 16 (off / 64) }).acceptDma
          else match s.descCause l x bad with
            | some cause => (s.walkChecked l x cause).endDesc l n off x cause 0 false
            | none => s.takeDesc l n off x o).settleMoves

/-- Bytes that a POSTED descriptor wrote become undefined where a write was refused (R207): the event does not say where, so a
free value picks the 128-byte pieces of each row. -/
def State.undefinePosted (s : State) (l : Nat) (x : Nat × Nat × Nat × Int) : State :=
  (List.range x.2.1).foldl (fun (t : State) r => (List.range (ceilDiv x.2.2.1 128)).foldl (fun (t : State) k =>
    let u := { t with free := t.free + 1 }
    if bit (Config.freeByte t.free) 0 then
      u.undefinedPiece l (rowAddr x.1 x.2.2.2 r + 128 * k) (Nat.min 128 (x.2.2.1 - 128 * k))
    else u) t) s

/-- POSTED_WRITE_REFUSED (R207): PFAIL is set, and the channel's next CONFIRMED descriptor will report it. -/
def execPostedWriteRefused (c : CoreId) (ch : BitVec 1) (s : State) : Answer :=
  let l := c.toNat
  let n := ch.toNat
  .next (
    let d := (s.core l).chan n
    if d.posted.isEmpty then s
    else
      let s := d.posted.foldl (fun (t : State) x => t.undefinePosted l x) s
      let k := s.core l
      s.setCore l (k.setChan n { k.chan n with pfail := true, prior := true }))

end Sys2Proof.Machine
end

