-- ==== Sys2Proof/Machine/RegionCmds.lean ====
section
/-! DEFINITION. Machine/RegionCmds.lean: the region commands (R61 to R67, R74, R79, R85, R86, R93, R371 to R375, R399). -/

namespace Sys2Proof.Machine

/-- REGION_CONFIG (R65, R371, R380): writes the shadow of the region's set. -/
def execRegionConfig (k : CmdRef) (s : State) : Answer :=
  .next (s.runCommand k 0x10 (fun c s =>
    let r := c.rgn
    let g := s.region r
    if g.state == .free || g.state == .staged then
      let s := s.setRegion r { g with shRect := c.sub.arg 1, shCtrl := c.sub.arg 2, shStageScan := c.sub.arg 3,
                                      shWdog := BitVec.ofNat 10 (c.sub.arg 4).toNat }
      (if g.state == .free then s.setRState r .staged else s).succeed k 0 0
    else s.refuseState c))

/-- The shadow set and the image take effect together (R372, R380), the records of the watch and of the last request
cleared (R82). -/
def Region.commit (g : Region) (sectionId : BitVec 16) : Region :=
  { g with rect := g.shRect, ctrl := setFld g.shCtrl 16 16 sectionId.toNat, stageScan := g.shStageScan,
           wdog := g.shWdog, phase := false, watch := false, dlCount := 0, dlQ := [], gate := true, reqValid := false,
           done := [], reqUsec := 0, enabling := none, load := none, drain := none, drainHeld := false, flood := none, void := [],
           lostCore := none, stopFault := none, requested := false }

/-- The shadow set returns to the active values (R380). -/
def Region.revert (g : Region) : Region :=
  { g with shRect := g.rect, shCtrl := g.ctrl, shStageScan := g.stageScan, shWdog := g.wdog }

/-- Every core of a region starts with its record of the image (R372). -/
def State.startCores (s : State) (r : Nat) (im : Image) : State :=
  let rect := (s.region r).rect
  (rectCores rect).foldl (fun (t : State) l =>
    t.setCore l ((t.core l).enabled (t.grade == .a) (im.recOf rect l))) s

/-- The region whose REGION_ENABLE command k is. -/
def State.enablingBy (s : State) (k : CmdRef) : Option Nat :=
  (s.regions.find? (fun e => e.2.enabling == some k)).map Prod.fst

/-- REGION_ENABLE (R62, R372, R446): the command acts and is acknowledged; taken again, it completes, every core having
started. -/
def execRegionEnable (k : CmdRef) (s : State) : Answer :=
  .next (match s.enablingBy k with
  | some r =>
    let g := s.region r
    (s.setRegion r { g with enabling := none }).succeed k (BitVec.ofNat 64 (rectCores g.rect).length) 0
  | none => s.runCommand k 0x11 (fun c s =>
    let r := c.rgn
    let a := fld (c.sub.arg 1) 0 48
    if let some st := absentStackAt s.grade a then s.refuse k stNotPresent (r1Word (16 + st))
    else if !s.nemarReads a 1 then s.refuse k stAddrAbsent (r1Word 5)
    else if (s.region r).state != .staged then s.refuseState c
    else
      let im := s.readImage a (s.region r).shRect
      match s.enableCheck r im with
      | some x => (s.setRegion r (s.region r).revert).refuseCheck c x
      | none =>
        let s := ((s.ack k).extendSections r im).dropRegionCounts r
        let s := (s.setRegion r ((s.region r).commit im.sectionId)).rewriteArb r
        let s := (s.startCores r im).setRState r .running
        s.setRegion r { s.region r with enabling := some k }))

/-- A record as it lies in a staging area (R74, R373). -/
def ImageRec.bytes (x : ImageRec) : List Byte :=
  (List.range 4096).flatMap (fun a => toBytes 8 (look x.words a (0 : Word)).toNat) ++
    (x.regs.flatMap (fun e => toBytes 8 e.1 ++ toBytes 8 e.2.toNat)) ++ List.replicate (16 * (512 - x.regs.length)) 0

/-- Writes the staging areas and sends STAGED to every core (R74); `slack`: the region was SLACK (R75). -/
def State.stageCores (s : State) (r : Nat) (im : Image) (slack : Bool) : State :=
  let g := s.region r
  (rectCores g.rect).foldl (fun (t : State) l =>
    let x := im.recOf g.rect l
    let t := t.writeMem (sliceBase l + fld g.stageScan 33 15 * 128) (clean x.bytes)
    (t.setCore l { t.core l with staged := true, stagedSent := true, stagedHere := false, fromSlack := slack,
                                 switched := false }).tellCore l .staged 0) s

/-- SECTION_LOAD (R74, R75, R79, R372, R446). -/
def execSectionLoad (k : CmdRef) (s : State) : Answer :=
  .next (s.runCommand k 0x12 (fun c s =>
    let r := c.rgn
    let g := s.region r
    let a := fld (c.sub.arg 1) 0 48
    if let some st := absentStackAt s.grade a then s.refuse k stNotPresent (r1Word (16 + st))
    else if !s.nemarReads a 1 then s.refuse k stAddrAbsent (r1Word 5)
    else if g.state == .tideline || g.enabling.isSome then s.refuseBusy c
    else if !(g.state == .running || g.state == .slack) then s.refuseState c
    else
      let im := s.readImage a g.rect
      match s.loadCheck r im with
      | some x => s.refuseCheck c x
      | none =>
        let s := ((s.ack k).extendSections r im).stageCores r im (g.state == .slack)
        (s.setRegion r { s.region r with load := some (k, im.sectionId) }).setRState r .tideline))

/-- The 64 argument bytes of a RUN go into every core's slice (R374). -/
def State.writeArgs (s : State) (r : Nat) (off : Nat) (bs : List Byte) : State :=
  (rectCores (s.region r).rect).foldl (fun (t : State) l => t.writeMem (sliceBase l + off) (clean bs)) s

/-- RUN (R371, R374). -/
def execRun (k : CmdRef) (s : State) : Answer :=
  .next (s.runCommand k 0x13 (fun c s =>
    let r := c.rgn
    let g := s.region r
    let n := fld (c.sub.arg 0) 8 15
    if g.state == .tideline || g.reqValid || g.enabling.isSome then s.refuseBusy c
    else if !(g.state == .running || g.state == .slack) then s.refuseState c
    else
      let bs := (rangeFrom 2 8).flatMap (fun i => toBytes 8 (c.sub.arg i).toNat)
      let s := s.writeArgs r (fld (c.sub.arg 1) 0 22) bs
      let s := s.setRegion r { g with
        reqValid := true, reqTag := CmdRef.tagOf k, gate := true, requested := true, done := [], reqUsec := 0,
        doneCount := if n = 0 then (rectCores g.rect).length else n, gateUsec := s.nemar.usec,
        limitMs := fld (c.sub.arg 0) 32 10 }
      (if g.state == .slack then s.setRState r .running else s).ack k))

/-- The region lies wholly within one compute die. -/
def Region.oneDie (g : Region) : Bool :=
  rectX0 g.rect / 32 == rectX1 g.rect / 32 && rectY0 g.rect / 32 == rectY1 g.rect / 32

/-- The drain rule (R85). -/
def Region.ebbs (g : Region) : Bool :=
  fld g.ctrl 2 2 == 0 && g.oneDie && (g.state == .running || g.state == .tideline)

/-- An ebb drain begins: EBBING, and the entry gate closes (R86, R211). -/
def State.startEbb (s : State) (r : Nat) : State :=
  (s.setRegion r { s.region r with gate := false, drainHeld := false }).setRState r .ebbing

/-- REGION_DRAIN (R79, R85, R86, R89, R371). -/
def execRegionDrain (k : CmdRef) (s : State) : Answer :=
  .next (s.runCommand k 0x14 (fun c s =>
    let r := c.rgn
    let g := s.region r
    let st := g.state
    if st == .ebbing || st == .stopping || st == .scanning || st == .flooding || g.drain.isSome || g.enabling.isSome then
      s.refuseBusy c
    else if !(st == .running || st == .tideline || st == .slack || st == .halted || st == .lost) then s.refuseState c
    else
      let s := s.ack k
      let s := s.setRegion r { s.region r with drain := some (k, bit (c.sub.arg 0) 8), drainHeld := false }
      if g.ebbs then
        (if st == .tideline then s.setRegion r { s.region r with drainHeld := true } else s.startEbb r)
      else s.startScan r .drain (bit g.ctrl 1)))

/-- REGION_FLOOD (R93, R371). -/
def execRegionFlood (k : CmdRef) (s : State) : Answer :=
  .next (s.runCommand k 0x15 (fun c s =>
    let r := c.rgn
    let g := s.region r
    if g.state != .saved then s.refuseState c
    else if s.heldSaved r then s.refuseBusy c
    else match s.floodCheck r with
    | some x => s.refuseCheck c x
    | none =>
      let s := s.ack k
      (s.setRegion r { s.region r with flood := some k }).startFlood r))

/-- REGION_RESET (R67, R371, R375). -/
def execRegionReset (k : CmdRef) (s : State) : Answer :=
  .next (s.runCommand k 0x16 (fun c s =>
    let r := c.rgn
    let st := (s.region r).state
    if st == .free then s.refuseState c
    else (s.resetRegion r).succeed k (at64 0 8 st.code) 0))

/-- REGION_FREE (R317, R371). -/
def execRegionFree (k : CmdRef) (s : State) : Answer :=
  .next (s.runCommand k 0x17 (fun c s =>
    let r := c.rgn
    let g := s.region r
    if g.state != .staged then s.refuseState c
    else
      let ls := match g.arbWords with
        | some (rect, _) => rectCores rect
        | none => []
      let s := ls.foldl (fun (t : State) l => t.setCore l (t.core l).resetRouterArb) s
      ((s.setRegion r { g with arbWords := none }).setRState r .free).succeed k 0 0))

/-- REPLACE (R371, R398, R399). -/
def execReplace (k : CmdRef) (s : State) : Answer :=
  .next (s.runCommand k 0x18 (fun c s =>
    let r := c.rgn
    let st := (s.region r).state
    if !(st == .lost || st == .saved) then s.refuseState c
    else if s.heldSaved r then s.refuseBusy c
    else (s.ack k).replaceRegion r (some k)))

end Sys2Proof.Machine
end

