-- ==== Sys2Proof/Machine/RegionEvents.lean ====
section
/-! DEFINITION. Machine/RegionEvents.lean: the tideline, the deadlock watch, ebb drain, scan-out and flood, and the messages
cores send to Nemar (R73 to R79, R81, R82, R86, R89, R93, R94, R116 to R120, R210, R374, R375, R465). -/

namespace Sys2Proof.Machine

/-! ## The switch on the tideline -/

/-- STAGED arrives at a core (R74). -/
def execStaged (c : CoreId) (s : State) : Answer :=
  let k := s.core c.toNat
  .next (if k.stagedSent && k.running && !s.underWay .staged c.toNat 0 then
      (s.takeMessage .staged c.toNat 0).setCore c.toNat { k with stagedHere := true }
    else s)

/-- Step 1 of R76: a tideline goes into every output queue bound in the old section that has none yet and has room. -/
def State.enqueueTides (s : State) (l : Nat) : State :=
  (rangeFrom 8 8).foldl (fun (t : State) n =>
    let c := t.core l
    let q := c.queue n
    if q.bound && !q.tided && q.roomFor 1 then
      t.spilling l q.pushLines (fun t =>
        let t := t.push l n { phase := c.phase, tide := true }
        t.setCore l ((t.core l).setQueue n { (t.core l).queue n with tided := true }))
    else t) s

/-- Every tideline of step 1 has been enqueued. -/
def Core.allTided (c : Core) : Bool := (rangeFrom 8 8).all (fun n => !(c.queue n).bound || (c.queue n).tided)

/-- Step 2 of R76 at one input queue: its tideline is discarded, and no credit of the old phase stands. -/
def StreamQueue.discardTide (q : StreamQueue) (ph : Bool) : StreamQueue :=
  match firstOfPhase ph q.buf with
  | some (a, e, b) => if e.tide then ({ q with buf := a ++ b, moved := true } : StreamQueue).setOut ph 0 else q
  | none => q

/-- Step 4 of R76 at one output queue of a core in phase `ph`: the old binding and area stay in force while its tideline is
held, the area also while old entries remain in it (R78); once it has left, no credit of the old phase stands. -/
def StreamQueue.crossed (q : StreamQueue) (ph : Bool) : StreamQueue :=
  if q.tided && q.holdsTide then { q with tided := false, oldCfg := some q.cfg, oldSpill := some q.spillCfg }
  else { q.setCred ph 0 with tided := false, oldCfg := none, oldSpill := if q.spill.isEmpty then none else some q.spillCfg }

/-- A DMA channel at a switch: an unfinished chain is abandoned (R209). -/
def DmaChannel.crossed (d : DmaChannel) : DmaChannel :=
  if d.chains.isEmpty then d else { d with chains := [], busy := false, fab := none, ownStop := false, abandoned := true }

/-- The packer at a switch: an incomplete frame of the pack channel is discarded and counted (R241). -/
def Packer.crossed (p : Packer) : Packer :=
  if p.packIn.isEmpty then p else { p with packIn := [], short := BitVec.ofNat 16 (satInc 16 p.short.toNat) }

/-- Register entries from a byte of memory on, up to the first of offset 0 or one that no image names (R373). -/
def stagedRegs (m : Memory) : Nat → Nat → List (Nat × Word)
  | 0, _ => []
  | n + 1, a =>
    let off := (getWord m a).toNat
    if imageReg off then (off, getWord m (a + 8)) :: stagedRegs m n (a + 16) else []

/-- The record that core l's staging area holds (R74, R76). -/
def State.stagedRec (s : State) (l : Nat) : ImageRec :=
  let a := sliceBase l + fld (s.region ((s.regionOf l).getD 0)).stageScan 33 15 * 128
  { words := (gatherCells 8 (spanCells s.mem a 32768)).map (fun e => (e.1, BitVec.ofNat 64 e.2))
    regs := stagedRegs s.mem 512 (a + 32768) }

/-- Steps 2 to 5 of R76, with the beats of steps 1 to 4; E of R105 is 0 for the first instruction after the switch. -/
def Core.cross (c : Core) (tap : Bool) (x : ImageRec) : Core :=
  let sq := c.sq.mapIdx (fun n q => if n < 8 then (if q.bound then q.discardTide c.phase else q) else q.crossed c.phase)
  let d : Core := { c.dropAccesses with
    sq := sq, ag := c.ag.map AddrGen.cleared, dma := c.dma.map DmaChannel.crossed, pk := c.pk.crossed,
    matQ := [], vecQ := [], matA := none, vecA := none, fetchQ := [], dmaQ := [], pend := [],
    matTail := 0, vecTail := 0, walkEnd := Nat.min c.walkEnd c.slot,
    imem0 := if c.bank then x.words else c.imem0, imem1 := if c.bank then c.imem1 else x.words,
    bank := !c.bank, phase := !c.phase, pc := 0, ended := false, idleUntil := c.slot, waiting := false,
    switched := true, staged := false, stagedSent := false, stagedHere := false, fromSlack := false }
  (d.loadRegs tap x.regs).endedBeats Config.switchBeats

/-- Every core of the region has switched: PHASE, SECTION_ID and STATE change and SECTION_LOAD completes; a held drain
begins (R79). -/
def State.endLoad (s : State) (r : Nat) : State :=
  let g := s.region r
  if g.state == .tideline && (rectCores g.rect).all (fun l => (s.core l).switched) then
    let s := (rectCores g.rect).foldl (fun (t : State) l => t.setCore l { t.core l with switched := false }) s
    match g.load with
    | none => s.setRState r .running
    | some (k, id) =>
      let s := s.setRegion r { g with phase := !g.phase, ctrl := setFld g.ctrl 16 16 id.toNat, load := none }
      let s := (s.setRState r .running).succeed k (BitVec.ofNat 64 (b2n (!g.phase))) 0
      if g.drainHeld then s.startEbb r else s
  else s

/-- CORE_SWITCH (R75, R76, R79): where R75 holds, one attempt at the switch: step 1 as far as output queues have room, with
an ended beat while one has none, then the rest. -/
def execCoreSwitch (c : CoreId) (s : State) : Answer :=
  let l := c.toNat
  let t := s.retired l
  .next (if t.mayCross l then
    let t := t.enqueueTides l
    if (t.core l).allTided then
      let t := t.setCore l ((t.core l).cross (t.grade == .a) (t.stagedRec l))
      (match t.regionOf l with
      | some r => t.endLoad r
      | none => t)
    else t.setCore l ((t.core l).endedBeats 1)
  else s)

/-! ## The deadlock watch (R81, R82) -/

/-- DEADLOCK_SAMPLE: every queue of a watched region takes one sample of its progress. -/
def execDeadlockSample (s : State) : Answer :=
  .next ((s.regions.filter (fun e => e.2.state == .running || e.2.state == .tideline)).foldl (fun (t : State) e =>
    (rectCores e.2.rect).foldl (fun (t : State) l =>
      let c := t.core l
      t.setCore l { c with sq := c.sq.map (fun q =>
        { q with moved := false, quiet := if q.moved then 0 else q.quiet + 1 }) }) t) s)

/-- A wait of a stalled core on a stream queue. -/
structure QueueWait where
  core : Nat
  queue : Nat
  full : Bool
  deriving DecidableEq, Repr

/-- The waits of core l on stream queues without progress for four samples, in ascending queue number. -/
def State.queueWaits (s : State) (l : Nat) : List QueueWait :=
  let c := s.core l
  let empties := (c.matWaits ++ s.vecWaits l).map Prod.snd
  let full := (c.heldBy false).map Prod.snd
  if !s.live l then [] else
  (List.range 16).filterMap (fun n =>
    if (if n < 8 then empties.contains n else full.contains n) && 4 ≤ (c.queue n).quiet then
      some ⟨l, n, 8 ≤ n⟩ else none)

/-- The core able to release a wait: the producer of an empty input or the consumer of a full output. -/
def State.releaser (s : State) (w : QueueWait) : Nat := peerCore ((s.core w.core).queue w.queue).binding

/-- A closed chain of waits back to core `goal`, by search from the paths on the stack (latest wait first). -/
def State.chase (s : State) (goal : Nat) : Nat → List (List QueueWait) → NumSet → Option (List QueueWait)
  | 0, _, _ => none
  | _ + 1, [], _ => none
  | n + 1, [] :: ps, seen => s.chase goal n ps seen
  | n + 1, (w :: p) :: ps, seen =>
    let c := s.releaser w
    if c = goal then some (w :: p).reverse
    else if seen.contains c then s.chase goal n ps seen
    else s.chase goal n ((s.queueWaits c).map (fun x => x :: w :: p) ++ ps) (addNum seen c)

/-- The wait cycle of region r that holds the lowest core and queue. -/
def State.waitCycle (s : State) (r : Nat) : Option (List QueueWait) :=
  let ws := (rectCores (s.region r).rect).flatMap s.queueWaits
  (ws.filterMap (fun w => s.chase w.core (2 * ws.length + 2) [[w]] [])).head?

/-- An entry of RGN_DL_Q. -/
def QueueWait.word (w : QueueWait) : Word := flag64 20 w.full ||| at64 16 4 w.queue ||| at64 0 14 w.core

/-- KIND of a cycle. -/
def cycleKind (ws : List QueueWait) : Nat :=
  if ws.all (fun w => w.full) then 0 else if ws.any (fun w => w.full) then 1 else 2

/-- DEADLOCK_REPORT (R81, R82, R309, R465). -/
def execDeadlockReport (r : RegionId) (s : State) : Answer :=
  let n := r.toNat
  let g := s.region n
  .next (if !(g.state == .running || g.state == .tideline) then s
    else match s.waitCycle n with
    | none => s
    | some ws =>
      let kind := cycleKind ws
      let count := at64 21 2 kind ||| flag64 20 true ||| at64 0 20 ws.length
      let qs := (ws.take 32).map QueueWait.word
      let tag := if g.reqValid then some g.reqTag else none
      let s := (s.setRegion n { g with watch := true, dlCount := count, dlQ := qs }).setRState n .halted
      let s := s.logEvent { code := rcDeadlock, srcKind := 8, srcId := n, tag := tag, region := n }
        count (qs.getD 0 0) (qs.getD 1 0) (qs.getD 2 0)
      let s := s.endRequest n stRegionDeadlock 0 (r1Core (ws.head?.map (fun w => w.core)) kind 0 0)
      let s := s.failRegionBarriers n
      if (s.region n).drain.isSome then
        (s.setRegion n { s.region n with drainHeld := false }).startScan n .drain (bit g.ctrl 1)
      else s)

/-! ## Ebb drain (R86) -/

/-- A core is stalled on an empty input or fetch queue, or has ended and retired (R86, R117), with every queue of it empty
and no engine queue holding anything. -/
def State.ebbed (s : State) (l : Nat) : Bool :=
  let c := (s.retired l).core l
  let quiet := c.sq.all (fun q => q.buf.isEmpty && q.spill.isEmpty && q.arriving.isEmpty) &&
    c.ag.all (fun a => a.fq.isEmpty && a.tiles.isEmpty && a.wbytes.isEmpty) && c.matQ.isEmpty && c.vecQ.isEmpty &&
    c.fetchQ.isEmpty && c.dmaQ.isEmpty
  quiet && ((c.ended && c.enginesEmpty && c.pend.isEmpty) || !(c.matWaits ++ s.vecWaits l).isEmpty)

/-- The CUs and MUs of a region are switched off and lose their contents (R86). -/
def State.switchOff (s : State) (r : Nat) : State :=
  (rectCores (s.region r).rect).foldl (fun (t : State) l =>
    let t := t.setCore l { (t.core l).emptied with off := true }
    t.undefineCore l) s

/-- EBB_DRAIN_COMPLETE (R86, R371). -/
def execEbbDrainComplete (r : RegionId) (s : State) : Answer :=
  let n := r.toNat
  let g := s.region n
  .next (if g.state == .ebbing && !g.reqValid && (rectCores g.rect).all s.ebbed then
      let s := (rectCores g.rect).foldl (fun (t : State) l => t.retired l) s
      let off := match g.drain with
        | some (_, e) => e
        | none => false
      let s := s.setRegion n { s.region n with drain := none, drainHeld := false }
      let s := if off then (s.switchOff n).setRState n .staged else s.setRState n .slack
      match g.drain with
      | some (k, _) => s.succeed k 0 0
      | none => s
    else s)

/-! ## Scan-out and flood (R89, R93, R94, R210) -/

/-- One past the last tile of the pass that the first of these tiles belongs to, if the pass has been generated to its end. -/
def passEnd : List GenTile → Option Nat
  | [] => none
  | t :: ts => if t.last then some (t.tile + 1) else passEnd ts

/-- The pass of the first of these tiles, cut to the tiles it has where an FSTOP ended it, before this scan-out or an earlier
one (R194, R210). -/
def GenTile.again (t : GenTile) (ts : List GenTile) : Pass :=
  { t.pass with limit := (passEnd (t :: ts)).orElse (fun _ => t.pass.limit) }

/-- The passes that begin among these tiles, to be run again. -/
def passesOf : List GenTile → List Pass
  | [] => []
  | t :: ts => if t.tile = 0 then t.again ts :: passesOf ts else passesOf ts

/-- A READ generator rewound to t_old (R210): its reads and entries are discarded; after the flood it reads from the start
of t_old, dropping the entries already dequeued. The indices it had taken from a queue for the tiles it runs again stay with
it; those of an indexer it takes again, from the index `used` of the index entry it begins in. -/
def AddrGen.rewound (a : AddrGen) (used : Nat) : AddrGen :=
  let b := { a with tiles := [], fq := [], landed := [], fresh := 0, emitted := 0, left := [], gated := false
                    begun := a.left.length + a.begun }
  let b := if a.indexed && a.isrc < 4 then { b with indices := [], dropIdx := used }
    else { b with replay := a.left.flatMap (fun t => t.idxs) ++ a.replay }
  match a.left with
  | [] => b
  | t :: ts =>
    let later := passesOf ts ++ (match a.cur with
      | some (p, 0) => [p]
      | _ => [])
    { b with cur := some (t.again ts, t.tile), passes := later ++ a.passes, skip := a.deq }

/-- An indexer set back to an index entry it has given before (R210): the tiles from the one that holds it on are its oldest
again. -/
def AddrGen.setBack (a : AddrGen) (want : Nat) : AddrGen :=
  let x := dropTiles want a.histFrom a.hist
  match x.2 with
  | [] => { a with hist := [], histFrom := x.1 }
  | t :: ts =>
    { a with left := t :: ts ++ a.left, deq := want - x.1, told := t.tile, hist := [], histFrom := x.1
             tilesDone := a.tilesDone - BitVec.ofNat 64 (ts.length + 1) }

/-- Generator g rewound, and the indexer that feeds it in step with it (R210); `fuel` bounds a chain of indexers. -/
def Core.rewindGen : Nat → Nat → Core → Core
  | 0, _, c => c
  | fuel + 1, g, c =>
    let a := c.gen g
    let pos := match a.left with
      | t :: _ => (t.ent, t.used)
      | [] => c.indexAt g
    let c := c.setGen g (a.rewound pos.2)
    if a.indexed && a.isrc < 4 then rewindGen fuel a.isrc (c.setGen a.isrc ((c.gen a.isrc).setBack pos.1)) else c

/-- A READ generator feeds another READ generator's indices, and is rewound with it. -/
def Core.followed (c : Core) (g : Nat) : Bool :=
  (List.range 4).any (fun h => (c.gen h).en && !(c.gen h).writes && (c.gen h).indexed && (c.gen h).isrc == g)

/-- The core's generators and queues as the stop leaves them. -/
def Core.rewound (c : Core) : Core :=
  { (List.range 4).foldl (fun (d : Core) g => if (c.gen g).writes || c.followed g then d else rewindGen 4 g d) c with
    stopped := true }

/-- A core can confirm its stop: nothing is on its way to it over the mesh, its arrivals have reached the barrier units and
its releases have reached it, and its writes have been accepted (R89, R210, R309). -/
def State.mayStop (s : State) (l : Nat) : Bool :=
  let c := s.core l
  let key := fun (a : BarArrival) => barKey ((s.regionOf l).getD 0) a.b.toNat
  c.stopping && !c.stopped && c.sq.all (fun q => q.arriving.isEmpty) &&
    c.barOut.all (fun a => a.rel.isSome ||
      (a.sent && !(s.barCount (key a) a.gen).released && !s.countClimbs (key a) a.gen)) &&
    !(s.fabric.writes.any (fun w => w.core == l && w.gen < 6)) && !s.meshWrites l 6 && (c.chan 0).fab.isNone && (c.chan 1).fab.isNone

/-- STOP_CONFIRM (R89): the last core of a STOPPING region moves it to SCANNING. -/
def execStopConfirm (c : CoreId) (s : State) : Answer :=
  let l := c.toNat
  .next (match s.regionOf l with
    | none => s
    | some r =>
      if s.mayStop l then (s.setCore l (s.core l).rewound).scanIfStopped r else s)

/-- A saved region's request and drain end as its scan-out left them: a fault raised meanwhile, a core lost, or success
(R89, R120, R465, R466). A drain of a region scanned out for another's re-placement is kept. -/
def State.endScan (s : State) (r : Nat) : State :=
  let g := s.region r
  let s := match g.stopFault with
    | some (l, cause) => s.endRequest r stProgramFault 0 (r1Core (some l) cause 0 0)
    | none => s
  match g.lostCore with
  | some (l, cause) =>
    let w := r1Core l cause 0 0
    let s := (s.endRequest r stCoreLost 0 w).endRegionCommands r stCoreLost w
    if s.nemar.auto && g.scanCause != .replacement then s.replaceRegion r none else s
  | none =>
    if g.scanCause == .replacement then s
    else
      let s := s.setRegion r { s.region r with drain := none, drainHeld := false }
      (g.drain.toList).foldl (fun (t : State) d => t.succeed d.1 1 0) s

/-- SCAN_COMPLETE (R89 to R92, R398): the images are written and the region is SAVED. -/
def execScanComplete (r : RegionId) (s : State) : Answer :=
  let n := r.toNat
  .next (if (s.region n).state == .scanning && !s.scanning n && s.host.state != .halted then
      let s := s.saveImages n
      let rect := (s.region n).rect
      let s := s.setRegion n { s.region n with
        switchedThen := ((rectCores rect).filter (fun l => (s.core l).switched)).length }
      let s := (rectCores rect).foldl (fun (t : State) l => (t.setCore l (t.core l).emptied).dropMessages l) s
      let s := ((s.dropRegionCounts n).setRState n .saved).endScan n
      (s.setRegion n { s.region n with stopFault := none, lostCore := none }).advanceReplacements
    else s)

/-- FLOOD_COMPLETE (R93, R94, R398): the images are restored and the region resumes; in a halted module none does (R404). -/
def execFloodComplete (r : RegionId) (s : State) : Answer :=
  let n := r.toNat
  let g := s.region n
  .next (if g.state == .flooding && !s.scanning n && s.host.state != .halted then
      let s := s.scanned n
      let s := s.restoreImages n
      let s := (s.setRegion n { s.region n with flood := none }).setRState n g.resume
      let s := g.flood.toList.foldl (fun (t : State) k =>
        t.succeed k (BitVec.ofNat 64 (rectCores g.rect).length) 0) s
      (s.doneReplaced n).endReplacements
    else s)

/-! ## Messages of cores (R118 to R120, R374) -/

/-- A request of the region has ended for another reason since it was enabled (R119, R120). -/
def Region.requestOver (g : Region) : Bool := g.requested && !g.reqValid && g.lastStatus != stProgramFault

/-- A fault message is out of the control net. -/
def State.dropFault (s : State) (m : FaultMessage) : State :=
  { s with nemar := { s.nemar with faultMsgs := s.nemar.faultMsgs.filter (fun x => x != m) } }

/-- FAULT_MESSAGE (R119, R120): the core's oldest message is logged; then the request ends and the region is reset, except
where those rules say the fault is only recorded. -/
def execFaultMessage (c : CoreId) (s : State) : Answer :=
  let l := c.toNat
  .next (if s.underWay .fault l 0 then s else
    let s := s.takeMessage .fault l 0
    match s.nemar.faultMsgs.find? (fun m => m.core == l) with
    | none => s
    | some m =>
      let r := m.region
      let g := s.region r
      let cause := fld m.fault 0 4
      let s := (s.dropFault m).logEvent { code := rcFault, srcKind := 0, srcId := l, tag := m.tag, region := r }
        m.fault (BitVec.ofNat 64 m.slot) m.req 0
      if m.past then s else
      match g.state with
      | .stopping => s.setRegion r { g with stopFault := some (g.stopFault.getD (l, cause)) }
      | .scanning => s.setRegion r { g with stopFault := some (g.stopFault.getD (l, cause)) }
      | .saved => s.endRequest r stProgramFault 0 (r1Core (some l) cause 0 0)
      | .free => s
      | .staged => s
      | .flooding => s
      | .halted => s
      | .lost => s
      | _ =>
        if g.requestOver then s
        else (s.endRequest r stProgramFault 0 (r1Core (some l) cause 0 0)).resetRegion r)

/-- A DONE message (R374): counted once for each core; the last one needed completes the request. -/
def State.takeDone (s : State) (r l : Nat) : State :=
  let g := s.region r
  if !g.reqValid then
    s.logEvent { code := rcDoneIdle, srcKind := 0, srcId := l, region := r } (BitVec.ofNat 64 r) 0 0 0
  else
    let done := addNum g.done l
    let s := s.setRegion r { g with done := done }
    if g.doneCount ≤ done.length then
      s.endRequest r stSuccess (BitVec.ofNat 64 g.gateUsec) (BitVec.ofNat 64 done.length)
    else s

/-- EVT_MESSAGE (R118, R374): the core's oldest unsent message reaches the primary. -/
def execEvtMessage (c : CoreId) (s : State) : Answer :=
  let l := c.toNat
  .next (if s.underWay .evt l 0 then s else
    let s := s.takeMessage .evt l 0
    let k := s.core l
    match s.regionOf l, k.evts with
    | some r, m :: t =>
      let s := s.setCore l { k with evts := t }
      if m.kind = 2 then s.takeDone r l
      else
        s.logEvent { code := if m.kind = 0 then rcEvtLog else rcEvtRefused, srcKind := 0, srcId := l,
                     tag := (s.region r).tagNow, region := r }
          (BitVec.ofNat 64 m.code.toNat) m.value 0 0
    | _, _ => s)

/-- REQ_TIMEOUT (R375): LIMIT milliseconds of time not suspended have passed. -/
def execReqTimeout (r : RegionId) (s : State) : Answer :=
  let n := r.toNat
  let g := s.region n
  .next (if g.reqValid && g.limitMs != 0 && g.limitMs * 1000 ≤ g.reqUsec && !g.state.suspends then
      (s.endRequest n stReqTimeout 0 0).resetRegion n
    else s)

end Sys2Proof.Machine
end

