-- ==== Sys2Proof/Machine/Transit.lean ====
section
/-! DEFINITION. Machine/Transit.lean: what an edge die reads and writes for other nodes and for the host: its requests cross the
data mesh, spread over the attachment points of its map (R290, R301, R320, R327, R349); and FLIT_HOP, which ends a request with
its last flit. -/

namespace Sys2Proof.Machine

/-! ## Ends -/

/-- A READ is answered with what its lines hold. -/
def State.answerRead (s : State) (f : Flit) : State :=
  let bs := s.fabricRead f
  s.answer f kindResp { Flit.zero with
    aux := f.aux &&& 1, pois := poisOf bs, data := BitVec.ofNat 2048 (ofBytes (bs.map Prod.fst)) }

/-- A WRITE's lines are stored, and it is answered. -/
def State.answerWrite (s : State) (f : Flit) : State := (s.fabricStore f (flitBytes f)).answer f kindWack Flit.zero

/-- A line of the HDM window is written, or its bytes are the host's answer. -/
def State.hdmEnd (s : State) (a : Nat) (wr : Option (BitVec 512)) (poison : Bool) : State :=
  match wr with
  | some d => s.writeMem a ((toBytes 64 d.toNat).map (fun b => (b, poison)))
  | none =>
    let bs := s.readMem a 64
    let s := s.hostHolds a
    { s with host := { s.host with hdmAnswer := some (BitVec.ofNat 512 (ofBytes (bs.map Prod.fst)), anyBad bs) } }

/-- A line of the HDM window that cannot be reached reads poisoned and drops writes, both counted (R349). -/
def State.hdmLost (s : State) (wr : Option (BitVec 512)) : State :=
  let s := { s with host := { s.host with errHdmPois := BitVec.ofNat 16 (satInc 16 s.host.errHdmPois.toNat) } }
  match wr with
  | some _ => s
  | none => { s with host := { s.host with hdmAnswer := some (freeLine64 s.free, true) }, free := s.free + 8 }

/-- The flits of a request have all arrived. -/
def State.endTransit (s : State) (r : TransitReq) : State :=
  match r with
  | .read f => s.answerRead f
  | .write f => s.answerWrite f
  | .hdm a wr poison => s.hdmEnd a wr poison

/-- A flit of a request has been lost on the mesh: nothing answers the node, which has its own deadline (R297). -/
def State.loseTransit (s : State) (r : TransitReq) : State :=
  match r with
  | .hdm _ wr _ => s.hdmLost wr
  | _ => s

/-- A request cannot enter the mesh: its edge die has no point available (DESIGN CHOICE, log 127: its path fails). -/
def State.refuseTransit (s : State) (r : TransitReq) : State :=
  match r with
  | .read f => s.answerErr f 2
  | .write f => s.answerErr f 2
  | .hdm _ wr _ => s.hdmLost wr

/-! ## Requests -/

/-- The router at which a line of the module is reached from an edge die: its slice's, or its stack's port; none for one that the
edge dies reach themselves. -/
def State.edgeTarget (s : State) (key : Nat) : Option Nat :=
  if key < 0x1000000000 then some (s.physOf (key / 0x400000))
  else if 0x040000000000 ≤ key && key < 0x080000000000 then some (stackRouter key)
  else none

/-- The flits of a request enter the FIFOs of the points that the map of edge die e gives their lines (R300, R301): their numbers;
none where a line finds no point. -/
def State.sendEdge (s : State) (e : Nat) (write : Bool) (ps : List (Nat × Nat)) : Option (List Nat × State) :=
  (cutLines ps).foldl (fun (x : Option (List Nat × State)) q => match x with
    | none => none
    | some (ns, t) => match t.edgeTarget q.1 with
      | none => x
      | some p => (((t.mesh.maps[e]?).getD {}).point (q.1 / 128)).map (fun j =>
          let y := t.inject (flitFrom e j (physPX p) (physPY p) (.edgeReq e q.1 write))
          (ns ++ [y.1], y.2))) (some ([], s))

/-- A request of edge die e for bytes: it crosses the mesh, or ends at once where it needs none. -/
def State.transit (s : State) (e : Nat) (r : TransitReq) (write : Bool) (ps : List (Nat × Nat)) : State :=
  match s.sendEdge e write ps with
  | none => s.refuseTransit r
  | some ([], t) => t.endTransit r
  | some (ns, t) => { t with mesh := { t.mesh with transits := t.mesh.transits ++ [⟨e, r, ns⟩] } }

/-- A request's last flit is here; a WRITE to a page that has begun to move waits on, for a FLIT_HOP after the move (R275, log
39). -/
def State.transitOver (s : State) (x : Transit) : Bool :=
  s.arrived x.net && (match x.req with
    | .write f => !s.fabricHeld f
    | _ => true)

/-- A request has lost a flit. -/
def State.transitLost (s : State) (x : Transit) : Bool := x.net.any (fun n => (find? s.mesh.flits n).isNone)

/-- Ends the requests whose flits have all arrived, and those that have lost one. -/
def State.settleTransits (s : State) : State :=
  (s.mesh.transits.filter (fun x => s.transitOver x || s.transitLost x)).foldl (fun (t : State) x =>
    let u := ({ t with mesh := { t.mesh with transits := t.mesh.transits.erase x } } : State).dropFlits x.net
    if s.transitLost x then u.loseTransit x.req else u.endTransit x.req) s

/-- The keys and bytes that a flit names. -/
def State.flitKeys (s : State) (f : Flit) : List (Nat × Nat) :=
  (flitParts f).filterMap (fun q => match s.objectAt q.1 with
    | .mem k => some (k, q.2)
    | _ => none)

/-! ## Rows -/

/-- FLIT_HOP (R293, R302): a flit or a message makes its next step. -/
def execFlitHop (n : Nat) (o : HopOutcome) (s : State) : Answer := .next (s.hop n o).settleTransits

/-- READ (R320, R327): another node reads this module's memory, through the edge die of the port. -/
def execRead (p : ZPort) (f : Flit) (s : State) : Answer :=
  .next (s.receive p.toNat f (fun s =>
    match s.fabricCause f with
    | some c => s.answerErr f c
    | none => s.transit (p.toNat / 8) (.read f) false (s.flitKeys f)))

/-- WRITE (R320, R327): another node writes this module's memory. One to a page that moves stays at its port until the move
ends (DEDUCED, log 39). -/
def execWrite (p : ZPort) (f : Flit) (s : State) : Answer :=
  .next (if s.takesNext p.toNat f && s.fabricHeld f then s
    else s.receive p.toNat f (fun s =>
      match s.fabricCause f with
      | some c => s.answerErr f c
      | none => s.transit (p.toNat / 8) (.write f) true (s.flitKeys f)))

/-- HDM_ACCESS (R344, R349, R350): a read (`wr` none) or a write of one 64-byte line of the HDM window, through the edge agent
that serves its address. A line of an unreachable stack reads poisoned and drops writes, both counted. -/
def execHdmAccess (o : BitVec 36) (wr : Option (BitVec 512)) (poison : Bool) (s : State) : Answer :=
  let a := hdmBase s.host.hdmMap + o.toNat / 64 * 64
  .next (if !s.host.hdmValid || (s.linePort a).isNone then s
    else if !s.stackUp (s.host.hdmMap.toNat / 2) then s.hdmLost wr
    else s.transit (a / 4096 % 4) (.hdm a wr poison) wr.isSome [(a, 64)])

end Sys2Proof.Machine
end

