-- ==== Sys2Proof/Machine/Dispatch.lean ====
section
/-! DEFINITION. Machine/Dispatch.lean: one arm per command, each the direct call of its meaning. -/

namespace Sys2Proof.Machine

open Sys2Proof

/-- The effect of one command on everything but the queue of waiting commands. -/
def exec (i : Instr) (s : State) : Host.Outcome State Fault Refusal :=
  match i with
  | .nop c f => Sys2Proof.Machine.execNop c f s
  | .add c f => Sys2Proof.Machine.execAdd c f s
  | .sub c f => Sys2Proof.Machine.execSub c f s
  | .and c f => Sys2Proof.Machine.execAnd c f s
  | .or c f => Sys2Proof.Machine.execOr c f s
  | .xor c f => Sys2Proof.Machine.execXor c f s
  | .sll c f => Sys2Proof.Machine.execSll c f s
  | .srl c f => Sys2Proof.Machine.execSrl c f s
  | .sra c f => Sys2Proof.Machine.execSra c f s
  | .slt c f => Sys2Proof.Machine.execSlt c f s
  | .sltu c f => Sys2Proof.Machine.execSltu c f s
  | .min c f => Sys2Proof.Machine.execMin c f s
  | .max c f => Sys2Proof.Machine.execMax c f s
  | .mul c f => Sys2Proof.Machine.execMul c f s
  | .mulhu c f => Sys2Proof.Machine.execMulhu c f s
  | .flt c f => Sys2Proof.Machine.execFlt c f s
  | .fle c f => Sys2Proof.Machine.execFle c f s
  | .slot c f => Sys2Proof.Machine.execSlot c f s
  | .addi c f => Sys2Proof.Machine.execAddi c f s
  | .andi c f => Sys2Proof.Machine.execAndi c f s
  | .ori c f => Sys2Proof.Machine.execOri c f s
  | .xori c f => Sys2Proof.Machine.execXori c f s
  | .slli c f => Sys2Proof.Machine.execSlli c f s
  | .srli c f => Sys2Proof.Machine.execSrli c f s
  | .srai c f => Sys2Proof.Machine.execSrai c f s
  | .slti c f => Sys2Proof.Machine.execSlti c f s
  | .li c f => Sys2Proof.Machine.execLi c f s
  | .lih c f => Sys2Proof.Machine.execLih c f s
  | .ld c f => Sys2Proof.Machine.execLd c f s
  | .st c f => Sys2Proof.Machine.execSt c f s
  | .lcsr c f => Sys2Proof.Machine.execLcsr c f s
  | .scsr c f => Sys2Proof.Machine.execScsr c f s
  | .beq c f => Sys2Proof.Machine.execBeq c f s
  | .bne c f => Sys2Proof.Machine.execBne c f s
  | .blt c f => Sys2Proof.Machine.execBlt c f s
  | .bge c f => Sys2Proof.Machine.execBge c f s
  | .bltu c f => Sys2Proof.Machine.execBltu c f s
  | .bgeu c f => Sys2Proof.Machine.execBgeu c f s
  | .j c f => Sys2Proof.Machine.execJ c f s
  | .jal c f => Sys2Proof.Machine.execJal c f s
  | .jr c f => Sys2Proof.Machine.execJr c f s
  | .waits c f => Sys2Proof.Machine.execWaits c f s
  | .waiti c f => Sys2Proof.Machine.execWaiti c f s
  | .waitd c f => Sys2Proof.Machine.execWaitd c f s
  | .swapi c f => Sys2Proof.Machine.execSwapi c f s
  | .ends c f => Sys2Proof.Machine.execEnds c f s
  | .evt c f => Sys2Proof.Machine.execEvt c f s
  | .bara c f => Sys2Proof.Machine.execBara c f s
  | .trap c f => Sys2Proof.Machine.execTrap c f s
  | .mload c f => Sys2Proof.Machine.execMload c f s
  | .mstr c f => Sys2Proof.Machine.execMstr c f s
  | .mstrl c f => Sys2Proof.Machine.execMstrl c f s
  | .mma c f => Sys2Proof.Machine.execMma c f s
  | .vadd c f => Sys2Proof.Machine.execVadd c f s
  | .vsub c f => Sys2Proof.Machine.execVsub c f s
  | .vmul c f => Sys2Proof.Machine.execVmul c f s
  | .vfma c f => Sys2Proof.Machine.execVfma c f s
  | .vdiv c f => Sys2Proof.Machine.execVdiv c f s
  | .vsqrt c f => Sys2Proof.Machine.execVsqrt c f s
  | .vrsqrt c f => Sys2Proof.Machine.execVrsqrt c f s
  | .vexp c f => Sys2Proof.Machine.execVexp c f s
  | .vexp2 c f => Sys2Proof.Machine.execVexp2 c f s
  | .vlog2 c f => Sys2Proof.Machine.execVlog2 c f s
  | .vtanh c f => Sys2Proof.Machine.execVtanh c f s
  | .vmax c f => Sys2Proof.Machine.execVmax c f s
  | .vmin c f => Sys2Proof.Machine.execVmin c f s
  | .vabs c f => Sys2Proof.Machine.execVabs c f s
  | .vneg c f => Sys2Proof.Machine.execVneg c f s
  | .vcmplt c f => Sys2Proof.Machine.execVcmplt c f s
  | .vcmple c f => Sys2Proof.Machine.execVcmple c f s
  | .vcmpeq c f => Sys2Proof.Machine.execVcmpeq c f s
  | .visfin c f => Sys2Proof.Machine.execVisfin c f s
  | .vsel c f => Sys2Proof.Machine.execVsel c f s
  | .vmov c f => Sys2Proof.Machine.execVmov c f s
  | .vcvt c f => Sys2Proof.Machine.execVcvt c f s
  | .vsplat c f => Sys2Proof.Machine.execVsplat c f s
  | .viota c f => Sys2Proof.Machine.execViota c f s
  | .vrand c f => Sys2Proof.Machine.execVrand c f s
  | .vpld c f => Sys2Proof.Machine.execVpld c f s
  | .vpst c f => Sys2Proof.Machine.execVpst c f s
  | .vfxadd c f => Sys2Proof.Machine.execVfxadd c f s
  | .vbcr c f => Sys2Proof.Machine.execVbcr c f s
  | .vbcc c f => Sys2Proof.Machine.execVbcc c f s
  | .vrrow c f => Sys2Proof.Machine.execVrrow c f s
  | .vcompress c f => Sys2Proof.Machine.execVcompress c f s
  | .vexpand c f => Sys2Proof.Machine.execVexpand c f s
  | .vred c f => Sys2Proof.Machine.execVred c f s
  | .hflush c f => Sys2Proof.Machine.execHflush c f s
  | .fgo c f => Sys2Proof.Machine.execFgo c f s
  | .fstop c f => Sys2Proof.Machine.execFstop c f s
  | .dma c f => Sys2Proof.Machine.execDma c f s
  | .engineInstrStart c e => Sys2Proof.Machine.execEngineInstrStart c e s
  | .engineGroup c e => Sys2Proof.Machine.execEngineGroup c e s
  | .mmaTile c => Sys2Proof.Machine.execMmaTile c s
  | .sqEntrySend c q => Sys2Proof.Machine.execSqEntrySend c q s
  | .sqEntryArrive c q => Sys2Proof.Machine.execSqEntryArrive c q s
  | .sqCreditGrant c q phase => Sys2Proof.Machine.execSqCreditGrant c q phase s
  | .spillReturn c q => Sys2Proof.Machine.execSpillReturn c q s
  | .staged c => Sys2Proof.Machine.execStaged c s
  | .coreSwitch c => Sys2Proof.Machine.execCoreSwitch c s
  | .deadlockSample => Sys2Proof.Machine.execDeadlockSample s
  | .deadlockReport r => Sys2Proof.Machine.execDeadlockReport r s
  | .ebbDrainComplete r => Sys2Proof.Machine.execEbbDrainComplete r s
  | .stopConfirm c => Sys2Proof.Machine.execStopConfirm c s
  | .scanComplete r => Sys2Proof.Machine.execScanComplete r s
  | .floodComplete r => Sys2Proof.Machine.execFloodComplete r s
  | .faultMessage c => Sys2Proof.Machine.execFaultMessage c s
  | .evtMessage c => Sys2Proof.Machine.execEvtMessage c s
  | .reqTimeout r => Sys2Proof.Machine.execReqTimeout r s
  | .agTileRead c g => Sys2Proof.Machine.execAgTileRead c g s
  | .fetchReadReturn c g k o => Sys2Proof.Machine.execFetchReadReturn c g k o s
  | .readDeadlineExpire c g k => Sys2Proof.Machine.execReadDeadlineExpire c g k s
  | .agWriteEntry c g => Sys2Proof.Machine.execAgWriteEntry c g s
  | .packFrame c => Sys2Proof.Machine.execPackFrame c s
  | .unpackFrame c => Sys2Proof.Machine.execUnpackFrame c s
  | .dmaDescriptor c ch o => Sys2Proof.Machine.execDmaDescriptor c ch o s
  | .postedWriteRefused c ch => Sys2Proof.Machine.execPostedWriteRefused c ch s
  | .ptMissWalk c p => Sys2Proof.Machine.execPtMissWalk c p s
  | .ptInvalidate c p => Sys2Proof.Machine.execPtInvalidate c p s
  | .migEval heat => Sys2Proof.Machine.execMigEval heat s
  | .pageMoveComplete p o => Sys2Proof.Machine.execPageMoveComplete p o s
  | .tierReport r => Sys2Proof.Machine.execTierReport r s
  | .watchTick => Sys2Proof.Machine.execWatchTick s
  | .wdogExpire c => Sys2Proof.Machine.execWdogExpire c s
  | .flitHop f o => Sys2Proof.Machine.execFlitHop f o s
  | .arbRequest c a k => Sys2Proof.Machine.execArbRequest c a k s
  | .arbResourceFree c a => Sys2Proof.Machine.execArbResourceFree c a s
  | .arbWithdraw c a => Sys2Proof.Machine.execArbWithdraw c a s
  | .replan plan => Sys2Proof.Machine.execReplan plan s
  | .epochFlip p => Sys2Proof.Machine.execEpochFlip p s
  | .oldEmpty p => Sys2Proof.Machine.execOldEmpty p s
  | .barrierArrival c b => Sys2Proof.Machine.execBarrierArrival c b s
  | .barrierRelease c b => Sys2Proof.Machine.execBarrierRelease c b s
  | .rateSensorCompare q rate => Sys2Proof.Machine.execRateSensorCompare q rate s
  | .rateLoopEval => Sys2Proof.Machine.execRateLoopEval s
  | .thermalLoopEval => Sys2Proof.Machine.execThermalLoopEval s
  | .tworkRaise q => Sys2Proof.Machine.execTworkRaise q s
  | .sensorSample r => Sys2Proof.Machine.execSensorSample r s
  | .usecTick => Sys2Proof.Machine.execUsecTick s
  | .heartbeatTick => Sys2Proof.Machine.execHeartbeatTick s
  | .probe c answered => Sys2Proof.Machine.execProbe c answered s
  | .probeRetry c answered routerWorks => Sys2Proof.Machine.execProbeRetry c answered routerWorks s
  | .weakCoreFence c => Sys2Proof.Machine.execWeakCoreFence c s
  | .thermalEbb q => Sys2Proof.Machine.execThermalEbb q s
  | .ebbPowerOff q => Sys2Proof.Machine.execEbbPowerOff q s
  | .quadrantReturn q t => Sys2Proof.Machine.execQuadrantReturn q t s
  | .hartWatchdogExpire h => Sys2Proof.Machine.execHartWatchdogExpire h s
  | .read p f => Sys2Proof.Machine.execRead p f s
  | .resp p f => Sys2Proof.Machine.execResp p f s
  | .write p f => Sys2Proof.Machine.execWrite p f s
  | .wack p f => Sys2Proof.Machine.execWack p f s
  | .err p f => Sys2Proof.Machine.execErr p f s
  | .pour p f => Sys2Proof.Machine.execPour p f s
  | .pcredit p f => Sys2Proof.Machine.execPcredit p f s
  | .pnak p f => Sys2Proof.Machine.execPnak p f s
  | .ctrl p f => Sys2Proof.Machine.execCtrl p f s
  | .lcredit p f => Sys2Proof.Machine.execLcredit p f s
  | .lack p f => Sys2Proof.Machine.execLack p f s
  | .lnak p f => Sys2Proof.Machine.execLnak p f s
  | .portRetrain p lanesGood => Sys2Proof.Machine.execPortRetrain p lanesGood s
  | .eqLoopEval p lane dev => Sys2Proof.Machine.execEqLoopEval p lane dev s
  | .pourTimeout sl => Sys2Proof.Machine.execPourTimeout sl s
  | .drained n => Sys2Proof.Machine.execDrained n s
  | .copy => Sys2Proof.Machine.execCopy s
  | .commit => Sys2Proof.Machine.execCommit s
  | .abandon => Sys2Proof.Machine.execAbandon s
  | .reshardDrainTimeout => Sys2Proof.Machine.execReshardDrainTimeout s
  | .identify k => Sys2Proof.Machine.execIdentify k s
  | .resync k => Sys2Proof.Machine.execResync k s
  | .csrRead k => Sys2Proof.Machine.execCsrRead k s
  | .csrWrite k => Sys2Proof.Machine.execCsrWrite k s
  | .logRead k => Sys2Proof.Machine.execLogRead k s
  | .faultmapRead k => Sys2Proof.Machine.execFaultmapRead k s
  | .boundsSet k => Sys2Proof.Machine.execBoundsSet k s
  | .regionConfig k => Sys2Proof.Machine.execRegionConfig k s
  | .regionEnable k => Sys2Proof.Machine.execRegionEnable k s
  | .sectionLoad k => Sys2Proof.Machine.execSectionLoad k s
  | .run k => Sys2Proof.Machine.execRun k s
  | .regionDrain k => Sys2Proof.Machine.execRegionDrain k s
  | .regionFlood k => Sys2Proof.Machine.execRegionFlood k s
  | .regionReset k => Sys2Proof.Machine.execRegionReset k s
  | .regionFree k => Sys2Proof.Machine.execRegionFree k s
  | .replace k => Sys2Proof.Machine.execReplace k s
  | .place k => Sys2Proof.Machine.execPlace k s
  | .tierPool k => Sys2Proof.Machine.execTierPool k s
  | .steepSet k => Sys2Proof.Machine.execSteepSet k s
  | .pageRestore k => Sys2Proof.Machine.execPageRestore k s
  | .fabricSet k => Sys2Proof.Machine.execFabricSet k s
  | .spraySet k => Sys2Proof.Machine.execSpraySet k s
  | .barrierSet k => Sys2Proof.Machine.execBarrierSet k s
  | .pourSet k => Sys2Proof.Machine.execPourSet k s
  | .routerArb k => Sys2Proof.Machine.execRouterArb k s
  | .reshard k => Sys2Proof.Machine.execReshard k s
  | .ckptCopy k => Sys2Proof.Machine.execCkptCopy k s
  | .fwStage k => Sys2Proof.Machine.execFwStage k s
  | .fwActivate k => Sys2Proof.Machine.execFwActivate k s
  | .attest k => Sys2Proof.Machine.execAttest k s
  | .calExport k => Sys2Proof.Machine.execCalExport k s
  | .calImport k => Sys2Proof.Machine.execCalImport k s
  | .bootDoorbell v => Sys2Proof.Machine.execBootDoorbell v s
  | .sqTailDoorbell q t => Sys2Proof.Machine.execSqTailDoorbell q t s
  | .cqHeadDoorbell q h => Sys2Proof.Machine.execCqHeadDoorbell q h s
  | .submissionFetch q => Sys2Proof.Machine.execSubmissionFetch q s
  | .intDelayExpire q => Sys2Proof.Machine.execIntDelayExpire q s
  | .ringEnable q v => Sys2Proof.Machine.execRingEnable q v s
  | .ringStop q v => Sys2Proof.Machine.execRingStop q v s
  | .ringReset => Sys2Proof.Machine.execRingReset s
  | .hwinEn en => Sys2Proof.Machine.execHwinEn en s
  | .hdmDecoderCommit => Sys2Proof.Machine.execHdmDecoderCommit s
  | .hdmAccess o wr poison => Sys2Proof.Machine.execHdmAccess o wr poison s
  | .hostSnoop a => Sys2Proof.Machine.execHostSnoop a s
  | .cxlPortDown p => Sys2Proof.Machine.execCxlPortDown p s
  | .cxlPortUp p speed width pid => Sys2Proof.Machine.execCxlPortUp p speed width pid s
  | .ideFailure p => Sys2Proof.Machine.execIdeFailure p s
  | .clear c => Sys2Proof.Machine.execClear c s
  | .freeze c on => Sys2Proof.Machine.execFreeze c on s
  | .arbCommit c => Sys2Proof.Machine.execArbCommit c s
  | .corePour c v => Sys2Proof.Machine.execCorePour c v s
  | .go => Sys2Proof.Machine.execGo s
  | .registerWrite off bytes v => Sys2Proof.Machine.execRegisterWrite off bytes v s
  | .powerOn => Sys2Proof.Machine.execPowerOn s
  | .bringUp t => Sys2Proof.Machine.execBringUp t s
  | .undervoltageStop => Sys2Proof.Machine.execUndervoltageStop s
  | .overvoltageStop => Sys2Proof.Machine.execOvervoltageStop s
  | .brickFail retryOk => Sys2Proof.Machine.execBrickFail retryOk s
  | .phaseFail q retryOk => Sys2Proof.Machine.execPhaseFail q retryOk s
  | .edgePhaseFail e retryOk => Sys2Proof.Machine.execEdgePhaseFail e retryOk s
  | .stackOverheat k temp => Sys2Proof.Machine.execStackOverheat k temp s
  | .coolantAlarm r => Sys2Proof.Machine.execCoolantAlarm r s
  | .journalCompaction => Sys2Proof.Machine.execJournalCompaction s
  | .countersRecord => Sys2Proof.Machine.execCountersRecord s
  | .lowerTreeBuild => Sys2Proof.Machine.execLowerTreeBuild s
  | .reservedOpcode c w => Sys2Proof.Machine.execReservedOpcode c w s
  | .selfCheckReport c k => Sys2Proof.Machine.execSelfCheckReport c k s
  | .pendingFaultCommit d row => Sys2Proof.Machine.execPendingFaultCommit d row s
  | .routerIsolationTimeout p => Sys2Proof.Machine.execRouterIsolationTimeout p s
  | .flitCrcError p seq => Sys2Proof.Machine.execFlitCrcError p seq s
  | .zlPortUp p t => Sys2Proof.Machine.execZlPortUp p t s
  | .fabricTrainingTimeout => Sys2Proof.Machine.execFabricTrainingTimeout s
  | .shardCopyComplete j o => Sys2Proof.Machine.execShardCopyComplete j o s
  | .doeRequest p m => Sys2Proof.Machine.execDoeRequest p m s
  | .stackFailure k o => Sys2Proof.Machine.execStackFailure k o s

end Sys2Proof.Machine
end

