-- ==== Sys2Proof/Machine/Words.lean ====
section
/-! DEFINITION. Machine/Words.lean: which instruction a 64-bit word of a core is (R99 to R101, R135, R145, R162, R193,
R201), and the word an instruction row issues. -/

namespace Sys2Proof.Machine

open Sys2Proof

/-- The fields of a word: Format C. -/
def rdC (w : Word) : FmtC :=
  ⟨w.extractLsb' 51 5, w.extractLsb' 46 5, w.extractLsb' 36 10, w.extractLsb' 32 4, w.extractLsb' 0 32⟩

/-- The fields of a word: Format A. -/
def rdA (w : Word) : FmtA :=
  ⟨w.extractLsb' 51 5, w.extractLsb' 46 5, w.extractLsb' 41 5, w.extractLsb' 0 41⟩

/-- The fields of a word: Format I. -/
def rdI (w : Word) : FmtI :=
  ⟨w.extractLsb' 51 5, w.extractLsb' 46 5, w.extractLsb' 32 14, w.extractLsb' 0 32⟩

/-- The fields of a word: Format W. -/
def rdW (w : Word) : FmtW :=
  ⟨w.extractLsb' 51 5, w.extractLsb' 48 3, w.extractLsb' 0 48⟩

/-- The fields of a word: Format B. -/
def rdB (w : Word) : FmtB :=
  ⟨w.extractLsb' 51 5, w.extractLsb' 46 5, w.extractLsb' 12 34, w.extractLsb' 0 12⟩

/-- The fields of a word: MLOAD (R135). -/
def rdMload (w : Word) : FmtMload :=
  ⟨w.extractLsb' 52 4, w.extractLsb' 47 5, w.extractLsb' 43 4, w.extractLsb' 39 4, w.extractLsb' 38 1,
   w.extractLsb' 0 38⟩

/-- The fields of a word: MSTR and MSTRL (R135). -/
def rdMstr (w : Word) : FmtMstr :=
  ⟨w.extractLsb' 52 4, w.extractLsb' 47 5, w.extractLsb' 42 5, w.extractLsb' 38 4, w.extractLsb' 34 4,
   w.extractLsb' 30 4, w.extractLsb' 28 2, w.extractLsb' 19 9, w.extractLsb' 15 4, w.extractLsb' 14 1,
   w.extractLsb' 13 1, w.extractLsb' 8 5, w.extractLsb' 4 4, w.extractLsb' 0 4⟩

/-- The fields of a word: MMA (R145). -/
def rdMma (w : Word) : FmtMma :=
  ⟨w.extractLsb' 52 4, w.extractLsb' 47 5, w.extractLsb' 42 5, w.extractLsb' 37 5, w.extractLsb' 33 4,
   w.extractLsb' 29 4, w.extractLsb' 25 4, w.extractLsb' 21 4, w.extractLsb' 17 4, w.extractLsb' 15 2,
   w.extractLsb' 6 9, w.extractLsb' 3 3, w.extractLsb' 0 3⟩

/-- The fields of a word: Format V (R162). -/
def rdV (w : Word) : FmtV :=
  ⟨w.extractLsb' 52 4, w.extractLsb' 47 5, w.extractLsb' 40 7, w.extractLsb' 33 7, w.extractLsb' 26 7,
   w.extractLsb' 19 7, w.extractLsb' 15 4, w.extractLsb' 11 4, w.extractLsb' 10 1, w.extractLsb' 5 5,
   w.extractLsb' 4 1, w.extractLsb' 0 4⟩

/-- The fields of a word: FGO (R193). -/
def rdFgo (w : Word) : FmtFgo :=
  ⟨w.extractLsb' 52 4, w.extractLsb' 50 2, w.extractLsb' 45 5, w.extractLsb' 40 5, w.extractLsb' 0 40⟩

/-- The fields of a word: FSTOP (R193). -/
def rdFstop (w : Word) : FmtFstop :=
  ⟨w.extractLsb' 52 4, w.extractLsb' 50 2, w.extractLsb' 0 50⟩

/-- The fields of a word: DMA (R201). -/
def rdDma (w : Word) : FmtDma :=
  ⟨w.extractLsb' 52 4, w.extractLsb' 51 1, w.extractLsb' 46 5, w.extractLsb' 0 46⟩

/-- The instruction a word is at core c (R100, R101): every opcode not assigned is reserved. -/
def readWord (c : CoreId) (w : Word) : Instr :=
  match fld w 56 8 with
  | 0x00 => .nop c (rdC w)
  | 0x01 => .add c (rdA w)
  | 0x02 => .sub c (rdA w)
  | 0x03 => .and c (rdA w)
  | 0x04 => .or c (rdA w)
  | 0x05 => .xor c (rdA w)
  | 0x06 => .sll c (rdA w)
  | 0x07 => .srl c (rdA w)
  | 0x08 => .sra c (rdA w)
  | 0x09 => .slt c (rdA w)
  | 0x0A => .sltu c (rdA w)
  | 0x0B => .min c (rdA w)
  | 0x0C => .max c (rdA w)
  | 0x0D => .mul c (rdA w)
  | 0x0E => .mulhu c (rdA w)
  | 0x0F => .flt c (rdA w)
  | 0x10 => .addi c (rdI w)
  | 0x11 => .andi c (rdI w)
  | 0x12 => .ori c (rdI w)
  | 0x13 => .xori c (rdI w)
  | 0x14 => .slli c (rdI w)
  | 0x15 => .srli c (rdI w)
  | 0x16 => .srai c (rdI w)
  | 0x17 => .slti c (rdI w)
  | 0x18 => .fle c (rdA w)
  | 0x19 => .slot c (rdA w)
  | 0x20 => .li c (rdW w)
  | 0x21 => .lih c (rdW w)
  | 0x28 => .ld c (rdI w)
  | 0x29 => .st c (rdI w)
  | 0x2C => .lcsr c (rdI w)
  | 0x2D => .scsr c (rdI w)
  | 0x30 => .beq c (rdB w)
  | 0x31 => .bne c (rdB w)
  | 0x32 => .blt c (rdB w)
  | 0x33 => .bge c (rdB w)
  | 0x34 => .bltu c (rdB w)
  | 0x35 => .bgeu c (rdB w)
  | 0x36 => .j c (rdB w)
  | 0x37 => .jal c (rdB w)
  | 0x38 => .jr c (rdB w)
  | 0x40 => .waits c (rdC w)
  | 0x41 => .waiti c (rdC w)
  | 0x42 => .waitd c (rdC w)
  | 0x43 => .swapi c (rdC w)
  | 0x44 => .ends c (rdC w)
  | 0x45 => .evt c (rdC w)
  | 0x46 => .bara c (rdC w)
  | 0x47 => .trap c (rdC w)
  | 0x80 => .mload c (rdMload w)
  | 0x81 => .mstr c (rdMstr w)
  | 0x82 => .mstrl c (rdMstr w)
  | 0x98 => .mma c (rdMma w)
  | 0xA0 => .vadd c (rdV w)
  | 0xA1 => .vsub c (rdV w)
  | 0xA2 => .vmul c (rdV w)
  | 0xA3 => .vfma c (rdV w)
  | 0xA4 => .vdiv c (rdV w)
  | 0xA5 => .vsqrt c (rdV w)
  | 0xA6 => .vrsqrt c (rdV w)
  | 0xA7 => .vexp c (rdV w)
  | 0xA8 => .vexp2 c (rdV w)
  | 0xA9 => .vlog2 c (rdV w)
  | 0xAA => .vtanh c (rdV w)
  | 0xAB => .vmax c (rdV w)
  | 0xAC => .vmin c (rdV w)
  | 0xAD => .vabs c (rdV w)
  | 0xAE => .vneg c (rdV w)
  | 0xAF => .vcmplt c (rdV w)
  | 0xB0 => .vcmple c (rdV w)
  | 0xB1 => .vcmpeq c (rdV w)
  | 0xB2 => .visfin c (rdV w)
  | 0xB3 => .vsel c (rdV w)
  | 0xB4 => .vmov c (rdV w)
  | 0xB5 => .vcvt c (rdV w)
  | 0xB6 => .vsplat c (rdV w)
  | 0xB7 => .viota c (rdV w)
  | 0xB8 => .vrand c (rdV w)
  | 0xB9 => .vpld c (rdV w)
  | 0xBA => .vpst c (rdV w)
  | 0xBB => .vfxadd c (rdV w)
  | 0xC0 => .vbcr c (rdV w)
  | 0xC1 => .vbcc c (rdV w)
  | 0xC2 => .vrrow c (rdV w)
  | 0xC4 => .vcompress c (rdV w)
  | 0xC5 => .vexpand c (rdV w)
  | 0xC8 => .vred c (rdV w)
  | 0xCC => .hflush c (rdV w)
  | 0xD0 => .fgo c (rdFgo w)
  | 0xD1 => .fstop c (rdFstop w)
  | 0xE0 => .dma c (rdDma w)
  | _ => .reservedOpcode c w

/-- The core and the word of an instruction row; no other row is an instruction word. -/
def wordOf : Instr → Option (CoreId × Word)
  | .nop c f => some (c, encC 0x00 f)
  | .add c f => some (c, encA 0x01 f)
  | .sub c f => some (c, encA 0x02 f)
  | .and c f => some (c, encA 0x03 f)
  | .or c f => some (c, encA 0x04 f)
  | .xor c f => some (c, encA 0x05 f)
  | .sll c f => some (c, encA 0x06 f)
  | .srl c f => some (c, encA 0x07 f)
  | .sra c f => some (c, encA 0x08 f)
  | .slt c f => some (c, encA 0x09 f)
  | .sltu c f => some (c, encA 0x0A f)
  | .min c f => some (c, encA 0x0B f)
  | .max c f => some (c, encA 0x0C f)
  | .mul c f => some (c, encA 0x0D f)
  | .mulhu c f => some (c, encA 0x0E f)
  | .flt c f => some (c, encA 0x0F f)
  | .fle c f => some (c, encA 0x18 f)
  | .slot c f => some (c, encA 0x19 f)
  | .addi c f => some (c, encI 0x10 f)
  | .andi c f => some (c, encI 0x11 f)
  | .ori c f => some (c, encI 0x12 f)
  | .xori c f => some (c, encI 0x13 f)
  | .slli c f => some (c, encI 0x14 f)
  | .srli c f => some (c, encI 0x15 f)
  | .srai c f => some (c, encI 0x16 f)
  | .slti c f => some (c, encI 0x17 f)
  | .li c f => some (c, encW 0x20 f)
  | .lih c f => some (c, encW 0x21 f)
  | .ld c f => some (c, encI 0x28 f)
  | .st c f => some (c, encI 0x29 f)
  | .lcsr c f => some (c, encI 0x2C f)
  | .scsr c f => some (c, encI 0x2D f)
  | .beq c f => some (c, encB 0x30 f)
  | .bne c f => some (c, encB 0x31 f)
  | .blt c f => some (c, encB 0x32 f)
  | .bge c f => some (c, encB 0x33 f)
  | .bltu c f => some (c, encB 0x34 f)
  | .bgeu c f => some (c, encB 0x35 f)
  | .j c f => some (c, encB 0x36 f)
  | .jal c f => some (c, encB 0x37 f)
  | .jr c f => some (c, encB 0x38 f)
  | .waits c f => some (c, encC 0x40 f)
  | .waiti c f => some (c, encC 0x41 f)
  | .waitd c f => some (c, encC 0x42 f)
  | .swapi c f => some (c, encC 0x43 f)
  | .ends c f => some (c, encC 0x44 f)
  | .evt c f => some (c, encC 0x45 f)
  | .bara c f => some (c, encC 0x46 f)
  | .trap c f => some (c, encC 0x47 f)
  | .mload c f => some (c, encMload f)
  | .mstr c f => some (c, encMstr 0x81 f)
  | .mstrl c f => some (c, encMstr 0x82 f)
  | .mma c f => some (c, encMma f)
  | .vadd c f => some (c, encV 0xA0 f)
  | .vsub c f => some (c, encV 0xA1 f)
  | .vmul c f => some (c, encV 0xA2 f)
  | .vfma c f => some (c, encV 0xA3 f)
  | .vdiv c f => some (c, encV 0xA4 f)
  | .vsqrt c f => some (c, encV 0xA5 f)
  | .vrsqrt c f => some (c, encV 0xA6 f)
  | .vexp c f => some (c, encV 0xA7 f)
  | .vexp2 c f => some (c, encV 0xA8 f)
  | .vlog2 c f => some (c, encV 0xA9 f)
  | .vtanh c f => some (c, encV 0xAA f)
  | .vmax c f => some (c, encV 0xAB f)
  | .vmin c f => some (c, encV 0xAC f)
  | .vabs c f => some (c, encV 0xAD f)
  | .vneg c f => some (c, encV 0xAE f)
  | .vcmplt c f => some (c, encV 0xAF f)
  | .vcmple c f => some (c, encV 0xB0 f)
  | .vcmpeq c f => some (c, encV 0xB1 f)
  | .visfin c f => some (c, encV 0xB2 f)
  | .vsel c f => some (c, encV 0xB3 f)
  | .vmov c f => some (c, encV 0xB4 f)
  | .vcvt c f => some (c, encV 0xB5 f)
  | .vsplat c f => some (c, encV 0xB6 f)
  | .viota c f => some (c, encV 0xB7 f)
  | .vrand c f => some (c, encV 0xB8 f)
  | .vpld c f => some (c, encV 0xB9 f)
  | .vpst c f => some (c, encV 0xBA f)
  | .vfxadd c f => some (c, encV 0xBB f)
  | .vbcr c f => some (c, encV 0xC0 f)
  | .vbcc c f => some (c, encV 0xC1 f)
  | .vrrow c f => some (c, encV 0xC2 f)
  | .vcompress c f => some (c, encV 0xC4 f)
  | .vexpand c f => some (c, encV 0xC5 f)
  | .vred c f => some (c, encV 0xC8 f)
  | .hflush c f => some (c, encV 0xCC f)
  | .fgo c f => some (c, encFgo f)
  | .fstop c f => some (c, encFstop f)
  | .dma c f => some (c, encDma f)
  | .engineInstrStart _ _ => none
  | .engineGroup _ _ => none
  | .mmaTile _ => none
  | .sqEntrySend _ _ => none
  | .sqEntryArrive _ _ => none
  | .sqCreditGrant _ _ _ => none
  | .spillReturn _ _ => none
  | .staged _ => none
  | .coreSwitch _ => none
  | .deadlockSample => none
  | .deadlockReport _ => none
  | .ebbDrainComplete _ => none
  | .stopConfirm _ => none
  | .scanComplete _ => none
  | .floodComplete _ => none
  | .faultMessage _ => none
  | .evtMessage _ => none
  | .reqTimeout _ => none
  | .agTileRead _ _ => none
  | .fetchReadReturn _ _ _ _ => none
  | .readDeadlineExpire _ _ _ => none
  | .agWriteEntry _ _ => none
  | .packFrame _ => none
  | .unpackFrame _ => none
  | .dmaDescriptor _ _ _ => none
  | .postedWriteRefused _ _ => none
  | .ptMissWalk _ _ => none
  | .ptInvalidate _ _ => none
  | .migEval _ => none
  | .pageMoveComplete _ _ => none
  | .tierReport _ => none
  | .watchTick => none
  | .wdogExpire _ => none
  | .flitHop _ _ => none
  | .arbRequest _ _ _ => none
  | .arbResourceFree _ _ => none
  | .arbWithdraw _ _ => none
  | .replan _ => none
  | .epochFlip _ => none
  | .oldEmpty _ => none
  | .barrierArrival _ _ => none
  | .barrierRelease _ _ => none
  | .rateSensorCompare _ _ => none
  | .rateLoopEval => none
  | .thermalLoopEval => none
  | .tworkRaise _ => none
  | .sensorSample _ => none
  | .usecTick => none
  | .heartbeatTick => none
  | .probe _ _ => none
  | .probeRetry _ _ _ => none
  | .weakCoreFence _ => none
  | .thermalEbb _ => none
  | .ebbPowerOff _ => none
  | .quadrantReturn _ _ => none
  | .hartWatchdogExpire _ => none
  | .read _ _ => none
  | .resp _ _ => none
  | .write _ _ => none
  | .wack _ _ => none
  | .err _ _ => none
  | .pour _ _ => none
  | .pcredit _ _ => none
  | .pnak _ _ => none
  | .ctrl _ _ => none
  | .lcredit _ _ => none
  | .lack _ _ => none
  | .lnak _ _ => none
  | .portRetrain _ _ => none
  | .eqLoopEval _ _ _ => none
  | .pourTimeout _ => none
  | .drained _ => none
  | .copy => none
  | .commit => none
  | .abandon => none
  | .reshardDrainTimeout => none
  | .identify _ => none
  | .resync _ => none
  | .csrRead _ => none
  | .csrWrite _ => none
  | .logRead _ => none
  | .faultmapRead _ => none
  | .boundsSet _ => none
  | .regionConfig _ => none
  | .regionEnable _ => none
  | .sectionLoad _ => none
  | .run _ => none
  | .regionDrain _ => none
  | .regionFlood _ => none
  | .regionReset _ => none
  | .regionFree _ => none
  | .replace _ => none
  | .place _ => none
  | .tierPool _ => none
  | .steepSet _ => none
  | .pageRestore _ => none
  | .fabricSet _ => none
  | .spraySet _ => none
  | .barrierSet _ => none
  | .pourSet _ => none
  | .routerArb _ => none
  | .reshard _ => none
  | .ckptCopy _ => none
  | .fwStage _ => none
  | .fwActivate _ => none
  | .attest _ => none
  | .calExport _ => none
  | .calImport _ => none
  | .bootDoorbell _ => none
  | .sqTailDoorbell _ _ => none
  | .cqHeadDoorbell _ _ => none
  | .submissionFetch _ => none
  | .intDelayExpire _ => none
  | .ringEnable _ _ => none
  | .ringStop _ _ => none
  | .ringReset => none
  | .hwinEn _ => none
  | .hdmDecoderCommit => none
  | .hdmAccess _ _ _ => none
  | .hostSnoop _ => none
  | .cxlPortDown _ => none
  | .cxlPortUp _ _ _ _ => none
  | .ideFailure _ => none
  | .clear _ => none
  | .freeze _ _ => none
  | .arbCommit _ => none
  | .corePour _ _ => none
  | .go => none
  | .registerWrite _ _ _ => none
  | .powerOn => none
  | .bringUp _ => none
  | .undervoltageStop => none
  | .overvoltageStop => none
  | .brickFail _ => none
  | .phaseFail _ _ => none
  | .edgePhaseFail _ _ => none
  | .stackOverheat _ _ => none
  | .coolantAlarm _ => none
  | .journalCompaction => none
  | .countersRecord => none
  | .lowerTreeBuild => none
  | .reservedOpcode c w => if opcodeAssigned (fld w 56 8) then none else some (c, w)
  | .selfCheckReport _ _ => none
  | .pendingFaultCommit _ _ => none
  | .routerIsolationTimeout _ => none
  | .flitCrcError _ _ => none
  | .zlPortUp _ _ => none
  | .fabricTrainingTimeout => none
  | .shardCopyComplete _ _ => none
  | .doeRequest _ _ => none
  | .stackFailure _ _ => none

end Sys2Proof.Machine
end

