-- ==== Sys2Proof/WellFormed.lean ====
section
/-! DEFINITION. WellFormed.lean: the commands that say something the manual defines: an instruction's fields marked zero
are zero (R99, R464), and physical cores and arbiters exist (R15, R310). An instruction that fails the check is a command
all the same: its issue raises ILLEGAL (R100). -/

namespace Sys2Proof

/-- The check of one command. -/
def Instr.wellFormed : Instr → Bool
  | .nop _ f => f.z1 == 0 && f.z2 == 0 && f.sa == 0 && f.kind == 0 && f.imm == 0
  | .add _ f => f.z == 0
  | .sub _ f => f.z == 0
  | .and _ f => f.z == 0
  | .or _ f => f.z == 0
  | .xor _ f => f.z == 0
  | .sll _ f => f.z == 0
  | .srl _ f => f.z == 0
  | .sra _ f => f.z == 0
  | .slt _ f => f.z == 0
  | .sltu _ f => f.z == 0
  | .min _ f => f.z == 0
  | .max _ f => f.z == 0
  | .mul _ f => f.z == 0
  | .mulhu _ f => f.z == 0
  | .flt _ f => f.z == 0
  | .fle _ f => f.z == 0
  | .slot _ f => f.z == 0 && f.sa == 0 && f.sb == 0
  | .addi _ f => f.z == 0
  | .andi _ f => f.z == 0
  | .ori _ f => f.z == 0
  | .xori _ f => f.z == 0
  | .slli _ f => f.z == 0 && f.imm.toNat < 64
  | .srli _ f => f.z == 0 && f.imm.toNat < 64
  | .srai _ f => f.z == 0 && f.imm.toNat < 64
  | .slti _ f => f.z == 0
  | .li _ f => f.z == 0
  | .lih _ f => f.z == 0 && f.imm.toNat < 65536
  | .ld _ f => f.z == 0
  | .st _ f => f.z == 0
  | .lcsr _ f => f.z == 0
  | .scsr _ f => f.z == 0
  | .beq _ f => f.z == 0
  | .bne _ f => f.z == 0
  | .blt _ f => f.z == 0
  | .bge _ f => f.z == 0
  | .bltu _ f => f.z == 0
  | .bgeu _ f => f.z == 0
  | .j _ f => f.z == 0 && f.sa == 0 && f.sb == 0
  | .jal _ f => f.z == 0 && f.sb == 0
  | .jr _ f => f.z == 0 && f.sb == 0 && f.target == 0
  | .waits _ f => f.z1 == 0 && f.z2 == 0 && f.kind == 0 && f.imm == 0
  | .waiti _ f => f.z1 == 0 && f.z2 == 0 && f.sa == 0 && f.kind == 0
  | .waitd _ f => f.z1 == 0 && f.z2 == 0 && f.kind == 0 && f.imm == 0
  | .swapi _ f => f.z1 == 0 && f.z2 == 0 && f.sa == 0 && f.kind == 0 && f.imm.toNat < 4096
  | .ends _ f => f.z1 == 0 && f.z2 == 0 && f.sa == 0 && f.kind == 0 && f.imm == 0
  | .evt _ f => f.z1 == 0 && f.z2 == 0 && f.kind.toNat < 3 && f.imm.toNat < 65536
  | .bara _ f => f.z1 == 0 && f.z2 == 0 && f.sa == 0 && f.kind == 0 && f.imm.toNat < 256
  | .trap _ f => f.z1 == 0 && f.z2 == 0 && f.sa == 0 && f.kind == 0 && f.imm.toNat < 65536
  | .mload _ f => f.z == 0
  | .mstr _ f => f.sKM == 0 && f.isrc == 0 && f.ifmt == 0
  | .mstrl _ _ => true
  | .mma _ f => f.z == 0
  | .vadd _ f => f.z == 0
  | .vsub _ f => f.z == 0
  | .vmul _ f => f.z == 0
  | .vfma _ f => f.z == 0
  | .vdiv _ f => f.z == 0
  | .vsqrt _ f => f.z == 0
  | .vrsqrt _ f => f.z == 0
  | .vexp _ f => f.z == 0
  | .vexp2 _ f => f.z == 0
  | .vlog2 _ f => f.z == 0
  | .vtanh _ f => f.z == 0
  | .vmax _ f => f.z == 0
  | .vmin _ f => f.z == 0
  | .vabs _ f => f.z == 0
  | .vneg _ f => f.z == 0
  | .vcmplt _ f => f.z == 0
  | .vcmple _ f => f.z == 0
  | .vcmpeq _ f => f.z == 0
  | .visfin _ f => f.z == 0
  | .vsel _ f => f.z == 0
  | .vmov _ f => f.z == 0
  | .vcvt _ f => f.z == 0
  | .vsplat _ f => f.z == 0
  | .viota _ f => f.z == 0
  | .vrand _ f => f.z == 0
  | .vpld _ f => f.z == 0
  | .vpst _ f => f.z == 0
  | .vfxadd _ f => f.z == 0
  | .vbcr _ f => f.z == 0
  | .vbcc _ f => f.z == 0
  | .vrrow _ f => f.z == 0
  | .vcompress _ f => f.z == 0
  | .vexpand _ f => f.z == 0
  | .vred _ f => f.z == 0
  | .hflush _ f => f.z == 0
  | .fgo _ f => f.z == 0 && f.delay == 0
  | .fstop _ f => f.z == 0 && f.delay == 0
  | .dma _ f => f.z == 0 && f.delay == 0
  | .engineInstrStart _ _ => true
  | .engineGroup _ _ => true
  | .mmaTile _ => true
  | .sqEntrySend _ _ => true
  | .sqEntryArrive _ _ => true
  | .sqCreditGrant _ _ _ => true
  | .spillReturn _ _ => true
  | .staged _ => true
  | .coreSwitch _ => true
  | .deadlockSample => true
  | .deadlockReport _ => true
  | .ebbDrainComplete _ => true
  | .stopConfirm _ => true
  | .scanComplete _ => true
  | .floodComplete _ => true
  | .faultMessage _ => true
  | .evtMessage _ => true
  | .reqTimeout _ => true
  | .agTileRead _ _ => true
  | .fetchReadReturn _ _ _ _ => true
  | .readDeadlineExpire _ _ _ => true
  | .agWriteEntry _ _ => true
  | .packFrame _ => true
  | .unpackFrame _ => true
  | .dmaDescriptor _ _ _ => true
  | .postedWriteRefused _ _ => true
  | .ptMissWalk _ _ => true
  | .ptInvalidate _ _ => true
  | .migEval _ => true
  | .pageMoveComplete _ _ => true
  | .tierReport _ => true
  | .watchTick => true
  | .wdogExpire _ => true
  | .flitHop _ _ => true
  | .arbRequest _ a _ => a.toNat ≤ 22
  | .arbResourceFree _ a => a.toNat ≤ 22
  | .arbWithdraw _ a => a.toNat ≤ 22
  | .replan plan => plan.entries.all (fun e => e.router.toNat < 17408)
  | .epochFlip p => p.toNat < 17408
  | .oldEmpty p => p.toNat < 17408
  | .barrierArrival _ _ => true
  | .barrierRelease _ _ => true
  | .rateSensorCompare _ _ => true
  | .rateLoopEval => true
  | .thermalLoopEval => true
  | .tworkRaise _ => true
  | .sensorSample _ => true
  | .usecTick => true
  | .heartbeatTick => true
  | .probe _ _ => true
  | .probeRetry _ _ _ => true
  | .weakCoreFence _ => true
  | .thermalEbb _ => true
  | .ebbPowerOff _ => true
  | .quadrantReturn _ t => t.failed.all (fun p => p.toNat < 17408) && t.retried.all (fun p => p.toNat < 17408)
  | .hartWatchdogExpire _ => true
  | .read _ _ => true
  | .resp _ _ => true
  | .write _ _ => true
  | .wack _ _ => true
  | .err _ _ => true
  | .pour _ _ => true
  | .pcredit _ _ => true
  | .pnak _ _ => true
  | .ctrl _ _ => true
  | .lcredit _ _ => true
  | .lack _ _ => true
  | .lnak _ _ => true
  | .portRetrain _ _ => true
  | .eqLoopEval _ _ _ => true
  | .pourTimeout _ => true
  | .drained _ => true
  | .copy => true
  | .commit => true
  | .abandon => true
  | .reshardDrainTimeout => true
  | .identify _ => true
  | .resync _ => true
  | .csrRead _ => true
  | .csrWrite _ => true
  | .logRead _ => true
  | .faultmapRead _ => true
  | .boundsSet _ => true
  | .regionConfig _ => true
  | .regionEnable _ => true
  | .sectionLoad _ => true
  | .run _ => true
  | .regionDrain _ => true
  | .regionFlood _ => true
  | .regionReset _ => true
  | .regionFree _ => true
  | .replace _ => true
  | .place _ => true
  | .tierPool _ => true
  | .steepSet _ => true
  | .pageRestore _ => true
  | .fabricSet _ => true
  | .spraySet _ => true
  | .barrierSet _ => true
  | .pourSet _ => true
  | .routerArb _ => true
  | .reshard _ => true
  | .ckptCopy _ => true
  | .fwStage _ => true
  | .fwActivate _ => true
  | .attest _ => true
  | .calExport _ => true
  | .calImport _ => true
  | .bootDoorbell _ => true
  | .sqTailDoorbell _ _ => true
  | .cqHeadDoorbell _ _ => true
  | .submissionFetch _ => true
  | .intDelayExpire _ => true
  | .ringEnable _ _ => true
  | .ringStop _ _ => true
  | .ringReset => true
  | .hwinEn _ => true
  | .hdmDecoderCommit => true
  | .hdmAccess _ _ _ => true
  | .hostSnoop _ => true
  | .cxlPortDown _ => true
  | .cxlPortUp _ _ _ _ => true
  | .ideFailure _ => true
  | .clear _ => true
  | .freeze _ _ => true
  | .arbCommit _ => true
  | .corePour _ _ => true
  | .go => true
  | .registerWrite _ _ _ => true
  | .powerOn => true
  | .bringUp t => t.failed.all (fun p => p.toNat < 17408) && t.routers.all (fun p => p.toNat < 17408)
  | .undervoltageStop => true
  | .overvoltageStop => true
  | .brickFail _ => true
  | .phaseFail _ _ => true
  | .edgePhaseFail _ _ => true
  | .stackOverheat _ _ => true
  | .coolantAlarm _ => true
  | .journalCompaction => true
  | .countersRecord => true
  | .lowerTreeBuild => true
  | .reservedOpcode _ _ => true
  | .selfCheckReport _ _ => true
  | .pendingFaultCommit _ _ => true
  | .routerIsolationTimeout p => p.toNat < 17408
  | .flitCrcError _ _ => true
  | .zlPortUp _ _ => true
  | .fabricTrainingTimeout => true
  | .shardCopyComplete _ _ => true
  | .doeRequest _ _ => true
  | .stackFailure _ _ => true

end Sys2Proof
end

