-- ==== Sys2Proof/Safety.lean ====
section
/-! DEFINITION. Safety.lean: the terms claims use: the runs they speak of, a core that issues in a slot with nothing in
flight, and what one slot of a core leaves. -/

namespace Sys2Proof

open Machine

/-- One step answers this next state. -/
def StepsTo (s t : State) : Prop := step s = .next t

/-- Reached from s by steps that each answer a next state. -/
inductive Reaches : State → State → Prop where
  | refl (s : State) : Reaches s s
  | tail {s t u : State} : Reaches s t → StepsTo t u → Reaches s u

/-- A run is safe from s while its queue is empty of work that stops: every command waiting answers a next state. -/
def SafeFrom (s : State) : Prop := ∀ t, Reaches s t → ∃ u, StepsTo t u

namespace Machine

/-- Core l issues word w in its next slot of issue, no result of it is in flight, and the fetch meets no error (R97, R103, R117,
R119). -/
def State.ready (s : State) (l : Nat) (w : Word) : Bool :=
  s.canIssue l w && (s.core l).pend.isEmpty && !(s.core l).fetchBad

/-- As `ready`, at an address that an instruction may fall through from (R119: IMEM_END). -/
def State.readyOn (s : State) (l : Nat) (w : Word) : Bool := s.ready l w && (s.core l).pc != 4095

/-- The core as its slot of issue opens: the empty slots before it have completed (R40, R43). -/
def Core.opened (c : Core) : Core := c.completeSlots (c.nextIssue - c.slot)

/-- The core after the slot in which an instruction issued that goes on at `f` (R97, R103): one slot and one reference
beat more, and the BUSY counters of the units that held work (R43, R84). -/
def Core.passedTo (c : Core) (f : Flow) : Core :=
  { c.addBusy (c.heldUnits 1) with
    pc := f.pc, idleUntil := f.until_, waiting := f.waiting, iss := c.iss + 1, slot := c.slot + 1,
    refbeats := c.refbeats + 1 }

/-- The core after an instruction issued that falls through. -/
def Core.passed (c : Core) : Core := c.passedTo c.fall

/-- A result joins those in flight, visible `n` slots after the slot of issue (R39, R98): `c` is the core in that slot. -/
def Core.inFlight (k c : Core) (n : Nat) (e : Effect) : Core := k.addPending ⟨c.slot + n, c.iss, e⟩

/-- The core and word of an instruction row that its core issues in its next slot, the row well formed (R99, R464). -/
def State.issuesAt (s : State) (i : Instr) : Bool :=
  i.wellFormed && (match wordOf i with
    | some (c, w) => s.ready c.toNat w
    | none => false)

/-- As `issuesAt`, at an address that an instruction may fall through from (R103). -/
def State.issues (s : State) (i : Instr) : Bool :=
  i.wellFormed && (match wordOf i with
    | some (c, w) => s.readyOn c.toNat w
    | none => false)

/-- A 32-bit pattern is a NaN of FP32. -/
def fp32Nan (v : Nat) : Bool := v / 2 ^ 23 % 256 == 255 && v % 2 ^ 23 != 0

/-- The place of an FP32 pattern that is no NaN among the values in order, −0 and +0 at one place. -/
def fp32Place (v : Nat) : Int := if v / 2 ^ 31 % 2 = 1 then -((v % 2 ^ 31 : Nat) : Int) else ((v % 2 ^ 31 : Nat) : Int)

/-- The core with everything that passing a slot changes put back to that of `k`: address, slot, waiting, beats, counters. -/
def Core.calm (c k : Core) : Core :=
  { c with pc := k.pc, slot := k.slot, idleUntil := k.idleUntil, waiting := k.waiting, iss := k.iss,
           refbeats := k.refbeats, units := k.units }

/-- Two states differ in core l alone. -/
def State.onlyCore (s t : State) (l : Nat) : Prop :=
  (∀ k, k ≠ l → t.core k = s.core k) ∧ { t with cores := s.cores } = s

/-- Core l takes the program fault `cause` with trap code `code` in its slot of issue (R119, R121): it is recorded with the
slot, the bank and the address, FAULTED is set, one message starts on the control net, and nothing else changes; the
faulting slot completes (log 49). -/
def State.faults (s t : State) (l cause code : Nat) : Prop :=
  let k := (s.core l).opened
  let c := t.core l
  c.faulted = true ∧ c.faultSlot = k.slot ∧ c.slot = k.slot + 1 ∧
  c.faultReg = BitVec.ofNat 64 (code * 2 ^ 32 + k.pc.toNat * 2 ^ 16 + (if k.bank then 256 else 0) + cause) ∧
  { c.calm k with faulted := k.faulted, faultSlot := k.faultSlot, faultReg := k.faultReg } = k ∧ c.pc = k.pc ∧
  (∀ j, j ≠ l → t.core j = s.core j) ∧
  { t with cores := s.cores, mesh := s.mesh, nemar := { t.nemar with faultMsgs := s.nemar.faultMsgs } } = s ∧
  t.mesh = (s.tellNemar l .fault 0).mesh ∧
  ∃ r m, s.regionOf l = some r ∧ t.nemar.faultMsgs = s.nemar.faultMsgs ++ [m] ∧ m.core = l ∧ m.region = r ∧
    m.fault = c.faultReg ∧ m.slot = c.faultSlot

/-- The queue that an engine opcode enters holds as many instructions as R8 gives it (R104). -/
def Core.queueFull (k : Core) (op : Nat) : Bool :=
  if op < 0xA0 then 32 ≤ k.matQ.length
  else if op < 0xD0 then 64 ≤ k.vecQ.length
  else if op < 0xE0 then 32 ≤ k.fetchQ.length
  else 16 ≤ k.dmaQ.length

/-- The 35 vector rows with their opcodes (R162). -/
def vectorRows : List ((CoreId → FmtV → Instr) × Nat) :=
  [(.vadd, 0xA0), (.vsub, 0xA1), (.vmul, 0xA2), (.vfma, 0xA3), (.vdiv, 0xA4), (.vsqrt, 0xA5), (.vrsqrt, 0xA6), (.vexp, 0xA7),
   (.vexp2, 0xA8), (.vlog2, 0xA9), (.vtanh, 0xAA), (.vmax, 0xAB), (.vmin, 0xAC), (.vabs, 0xAD), (.vneg, 0xAE), (.vcmplt, 0xAF),
   (.vcmple, 0xB0), (.vcmpeq, 0xB1), (.visfin, 0xB2), (.vsel, 0xB3), (.vmov, 0xB4), (.vcvt, 0xB5), (.vsplat, 0xB6),
   (.viota, 0xB7), (.vrand, 0xB8), (.vpld, 0xB9), (.vpst, 0xBA), (.vfxadd, 0xBB), (.vbcr, 0xC0), (.vbcc, 0xC1), (.vrrow, 0xC2),
   (.vcompress, 0xC4), (.vexpand, 0xC5), (.vred, 0xC8), (.hflush, 0xCC)]

/-- A matrix instruction joins its queue (R104, R105): `k` is the core in the slot of issue. -/
def Core.joinsMatrix (k : Core) (delay : BitVec 4) (occ : Nat) (op : MatOp) : Core :=
  let start := Nat.max (k.slot + 1) (k.matTail + delay.toNat)
  { k.passed with matQ := k.matQ ++ [⟨k.iss, start, occ, op⟩], matTail := start + occ,
                  matFrom := if k.matTail ≤ k.slot then k.slot + 1 else k.matFrom }

/-- A vector instruction joins its queue (R104, R105). -/
def Core.joinsVector (k : Core) (delay : BitVec 4) (occ : Nat) (op : VecOp) : Core :=
  let start := Nat.max (k.slot + 1) (k.vecTail + delay.toNat)
  { k.passed with vecQ := k.vecQ ++ [⟨k.iss, start, occ, op⟩], vecTail := start + occ,
                  vecFrom := if k.vecTail ≤ k.slot then k.slot + 1 else k.vecFrom }

/-- The spill ring of an input queue holds each line once, and its tail comes to a line that it holds only where the area is
full, and then to the oldest (R70). -/
def StreamQueue.ringSound (q : StreamQueue) : Bool :=
  let ls := q.spill.map SpillLine.line
  q.oldCfg.isNone && q.oldSpill.isNone && decide ls.Nodup &&
    (!ls.contains q.tailLine || (ls.head? == some q.tailLine && spillSize q.spillCfg ≤ q.spill.length))

/-- No access waits at an arbiter of the core, and none of them is taken (R311, R313). -/
def Core.banksFree (c : Core) : Prop :=
  c.cuParked = [] ∧ ∀ a, (look c.arbs a ({} : Arbiter)).granted = none ∧ (look c.arbs a ({} : Arbiter)).parked = []

/-- Nor has the vector engine used the operand port in the present beat. -/
def Core.portsFree (c : Core) : Prop := c.banksFree ∧ c.portTaken = false

/-- No fetch queue of the core has an entry in its landing area, or one still to find its place (R186). -/
def Core.landless (c : Core) : Prop := ∀ g < 4, (c.gen g).landed = [] ∧ (c.gen g).fresh = 0

/-- The store holds the next records of a fault, an event or a counter: its program-verify succeeds and the active half has room
for them (R428, R429). -/
def Store.roomy (st : Store) : Prop := st.verifyFails = false ∧ st.used + 4096 ≤ halfBytes

/-- Command c, in flight under reference k with opcode `op`, may act now: it has not begun, no earlier one of its object
waits, the module is not halted, and its fields and buffer pass the checks (R364, R366). -/
def State.accepts (s : State) (k : CmdRef) (op : Nat) (c : Command) : Prop :=
  s.command k = some c ∧ c.sub.opcode.toNat = op ∧ c.begun = false ∧ c.ended = false ∧ s.atTurn c = true ∧ s.host.state ≠ .halted ∧
  s.argBad c.sub = none ∧ bufBad c.sub = none ∧ (bufMin c.sub ≠ none → s.bufUp c.sub = true)

end Machine

end Sys2Proof
end

