-- ==== Sys2Proof/Certificates/Slice0/Obligations.lean ====
section
/-! DEFINITION. Certificates/Slice0/Obligations.lean: the statements for the provers. Where a clause rests on a choice the
spec leaves to the model, the docstring names its log entry. -/

open Sys2Proof Sys2Proof.Machine

/-! ## The queue of commands -/

/-- A step with a command at the front of the queue is that command's effect with the queue's rest; an empty queue idles (log 7).
Every command of the table answers a next state in every state: of the 242 rows only the six that name a router or an arbiter
stop, with noSuchUnit, and only where no router or arbiter (or no class of it) has that number. -/
def Obligations.StepRunsTheCommandInFront : Prop :=
  (∀ (s : State) (i : Instr) (rest : List Instr), s.pending = i :: rest → step s = exec i { s with pending := rest }) ∧
  (∀ s : State, s.pending = [] → step s = .next s) ∧
  (∀ (i : Instr) (s : State),
    let absent : Prop := match i with
      | .arbRequest _ a k => arbClasses a.toNat ≤ k.toNat
      | .arbResourceFree _ a => 22 < a.toNat
      | .arbWithdraw _ a => 22 < a.toNat
      | .epochFlip p => 17408 ≤ p.toNat
      | .oldEmpty p => 17408 ≤ p.toNat
      | .routerIsolationTimeout p => 17408 ≤ p.toNat
      | _ => False
    (absent → exec i s = .fault .noSuchUnit) ∧ (¬ absent → ∃ t, exec i s = .next t))

/-! ## Instruction words (R99, R100) -/

/-- Encoding and reading agree both ways: the row a word is read as issues that word and no other, and every instruction row is
what its own word is read as. -/
def Obligations.WordsAndInstructionsAgree : Prop :=
  (∀ (c : CoreId) (w : Word), wordOf (readWord c w) = some (c, w)) ∧
  (∀ (i : Instr) (c : CoreId) (w : Word), wordOf i = some (c, w) → readWord c w = i)

/-! ## Scalar instructions (R101 to R121) -/

/-- An instruction row whose word is not the one its core issues next changes nothing (log 7): all 100 instruction rows. Two
different instruction rows of one core never issue in the same state. -/
def Obligations.InstructionsIssueOneAtATime : Prop :=
  (∀ (s : State) (i : Instr) (c : CoreId) (w : Word),
     wordOf i = some (c, w) → s.canIssue c.toNat w = false → exec i s = .next s) ∧
  (∀ (s : State) (i j : Instr) (c : CoreId) (v w : Word),
     wordOf i = some (c, v) → wordOf j = some (c, w) → s.canIssue c.toNat v = true → s.canIssue c.toNat w = true → i = j)

/-- ADD, SUB, AND, OR, XOR, SLL, SRL, SRA, SLT, SLTU, MIN, MAX and SLOT, issued with nothing of their core in flight: the next
state is the old one with the core one slot on and sd holding the result; s0 discards it. FLT and FLE order FP32 values,
subnormals by value and −0 equal to +0, and give 0 for a NaN (R101). -/
def Obligations.RegisterAndCompareRowsWriteTheirResult : Prop :=
  (∀ (s : State) (c : CoreId) (f : FmtA),
     let l := c.toNat
     let k := (s.core l).opened
     let a := (s.core l).getS f.sa
     let b := (s.core l).getS f.sb
     let wrote := fun (v : Word) => Host.Outcome.next (s.setCore l (k.passed.setS f.sd v))
     (s.issues (.add c f) = true → exec (.add c f) s = wrote (a + b)) ∧
     (s.issues (.sub c f) = true → exec (.sub c f) s = wrote (a - b)) ∧
     (s.issues (.and c f) = true → exec (.and c f) s = wrote (a &&& b)) ∧
     (s.issues (.or c f) = true → exec (.or c f) s = wrote (a ||| b)) ∧
     (s.issues (.xor c f) = true → exec (.xor c f) s = wrote (a ^^^ b)) ∧
     (s.issues (.sll c f) = true → exec (.sll c f) s = wrote (a <<< (b.toNat % 64))) ∧
     (s.issues (.srl c f) = true → exec (.srl c f) s = wrote (a >>> (b.toNat % 64))) ∧
     (s.issues (.sra c f) = true → exec (.sra c f) s = wrote (BitVec.ofInt 64 (a.toInt / 2 ^ (b.toNat % 64)))) ∧
     (s.issues (.slt c f) = true → exec (.slt c f) s = wrote (if a.toInt < b.toInt then 1 else 0)) ∧
     (s.issues (.sltu c f) = true → exec (.sltu c f) s = wrote (if a.toNat < b.toNat then 1 else 0)) ∧
     (s.issues (.min c f) = true → exec (.min c f) s = wrote (BitVec.ofInt 64 (Min.min a.toInt b.toInt))) ∧
     (s.issues (.max c f) = true → exec (.max c f) s = wrote (BitVec.ofInt 64 (Max.max a.toInt b.toInt))) ∧
     (s.issues (.slot c f) = true →
       exec (.slot c f) s = wrote (BitVec.ofNat 64 (Nat.max (s.core l).slot (s.core l).idleUntil)))) ∧
  (∀ (s : State) (c : CoreId) (f : FmtA),
     let l := c.toNat
     let k := (s.core l).opened
     let a := ((s.core l).getS f.sa).toNat % 2 ^ 32
     let b := ((s.core l).getS f.sb).toNat % 2 ^ 32
     let wrote := fun (v : Bool) => Host.Outcome.next (s.setCore l (k.passed.setS f.sd (if v then 1 else 0)))
     let ordered := !fp32Nan a && !fp32Nan b
     (s.issues (.flt c f) = true → exec (.flt c f) s = wrote (ordered && fp32Place a < fp32Place b)) ∧
     (s.issues (.fle c f) = true → exec (.fle c f) s = wrote (ordered && fp32Place a ≤ fp32Place b)))

/-- ADDI, ANDI, ORI, XORI, SLLI, SRLI, SRAI, SLTI, LI and LIH, as the register rows: imm32 is sign-extended. MUL and MULHU: the
product's low and high words, in flight for three slots. The registers read as before in the two slots after the issue, and
sd reads as the product from the third (R39, R101). -/
def Obligations.ImmediateRowsAndProductsWriteTheirResult : Prop :=
  (∀ (s : State) (c : CoreId) (f : FmtI) (g : FmtW),
     let l := c.toNat
     let k := (s.core l).opened
     let a := (s.core l).getS f.sa
     let m := BitVec.ofInt 64 f.imm.toInt
     let wrote := fun (d : BitVec 5) (v : Word) => Host.Outcome.next (s.setCore l (k.passed.setS d v))
     (s.issues (.addi c f) = true → exec (.addi c f) s = wrote f.sd (a + m)) ∧
     (s.issues (.andi c f) = true → exec (.andi c f) s = wrote f.sd (a &&& m)) ∧
     (s.issues (.ori c f) = true → exec (.ori c f) s = wrote f.sd (a ||| m)) ∧
     (s.issues (.xori c f) = true → exec (.xori c f) s = wrote f.sd (a ^^^ m)) ∧
     (s.issues (.slli c f) = true → exec (.slli c f) s = wrote f.sd (a <<< f.imm.toNat)) ∧
     (s.issues (.srli c f) = true → exec (.srli c f) s = wrote f.sd (a >>> f.imm.toNat)) ∧
     (s.issues (.srai c f) = true → exec (.srai c f) s = wrote f.sd (BitVec.ofInt 64 (a.toInt / 2 ^ f.imm.toNat))) ∧
     (s.issues (.slti c f) = true → exec (.slti c f) s = wrote f.sd (if a.toInt < f.imm.toInt then 1 else 0)) ∧
     (s.issues (.li c g) = true → exec (.li c g) s = wrote g.sd (BitVec.ofNat 64 g.imm.toNat)) ∧
     (s.issues (.lih c g) = true → exec (.lih c g) s =
       wrote g.sd (BitVec.ofNat 64 (g.imm.toNat * 2 ^ 48 + ((s.core l).getS g.sd).toNat % 2 ^ 48)))) ∧
  (∀ (s : State) (c : CoreId) (f : FmtA),
     let l := c.toNat
     let k := (s.core l).opened
     let p := ((s.core l).getS f.sa).toNat * ((s.core l).getS f.sb).toNat
     let appears := fun (o : Host.Outcome State Fault Refusal) (v : Word) =>
       ∃ t, o = .next t ∧ t = s.setCore l (k.passed.inFlight k 3 (.sreg f.sd v)) ∧
         (∀ r, (t.core l).getS r = (s.core l).getS r) ∧
         (∀ r, ((t.advance l (k.slot + 2)).core l).getS r = (s.core l).getS r) ∧
         (∀ r, ((t.advance l (k.slot + 3)).core l).getS r = if r = f.sd ∧ r ≠ 0 then v else (s.core l).getS r)
     (s.issues (.mul c f) = true → appears (exec (.mul c f) s) (BitVec.ofNat 64 p)) ∧
     (s.issues (.mulhu c f) = true → appears (exec (.mulhu c f) s) (BitVec.ofNat 64 (p / 2 ^ 64))))

/-- The frame of the rows that write one scalar register (opcodes 0x01 to 0x21): no other core and no other part of the module
changes, and of the core only its slot's own counts, the address, results in flight and sd. -/
def Obligations.RegisterRowsLeaveTheRest : Prop :=
  ∀ (s : State) (i : Instr) (c : CoreId) (w : Word),
    wordOf i = some (c, w) → opcodeAssigned (fld w 56 8) = true → 1 ≤ fld w 56 8 → fld w 56 8 ≤ 0x21 →
    s.issues i = true →
    ∃ t, exec i s = .next t ∧ s.onlyCore t c.toNat ∧
      { (t.core c.toNat).calm (s.core c.toNat) with sregs := (s.core c.toNat).sregs, pend := [] } = s.core c.toNat ∧
      (∀ r, r ≠ w.extractLsb' 51 5 → (t.core c.toNat).getS r = (s.core c.toNat).getS r) ∧
      (t.core c.toNat).getS 0 = 0 ∧ (t.core c.toNat).pc = (s.core c.toNat).pc + 1

/-- s0 reads as zero and discards writes, the other registers hold what was written; REGION_ENABLE clears them and starts the
slot numbers at 0; CORE_SWITCH keeps both (R96, R109). WAITD with t at slot j lets the next instruction issue at slot max(j +
1, t), in the slot numbers that SLOT returns and CORE_SLOTS reads. -/
def Obligations.ScalarRegistersAndSlotNumbers : Prop :=
  (∀ (c : Core) (q : BitVec 5) (v : Word), c.getS 0 = 0 ∧ c.setS 0 v = c ∧ (q ≠ 0 → (c.setS q v).getS q = v ∧
    ∀ p, p ≠ q → (c.setS q v).getS p = c.getS p)) ∧
  (∀ (s : State) (k : CmdRef) (c : Command),
    let r := fld (c.sub.arg 0) 0 8
    let g := s.region r
    let a := fld (c.sub.arg 1) 0 48
    s.accepts k 0x11 c → s.enablingBy k = none → absentStackAt s.grade a = none → s.nemarReads a 1 = true →
    g.state = .staged → s.enableCheck r (s.readImage a g.shRect) = none →
    ∃ u, exec (.regionEnable k) s = .next u ∧ ∀ l ∈ rectCores g.shRect, (∀ q, (u.core l).getS q = 0) ∧
      (u.core l).slot = 0 ∧ u.coreReg l 0x10010 = 0) ∧
  (∀ (s : State) (c : CoreId),
    let l := c.toNat
    let o := s.retired l
    o.mayCross l = true → ((o.enqueueTides l).core l).allTided = true →
    ∃ t, exec (.coreSwitch c) s = .next t ∧ (t.core l).phase = !(o.core l).phase ∧ (t.core l).slot = (o.core l).slot ∧
      ∀ q, (t.core l).getS q = (o.core l).getS q) ∧
  (∀ (s : State) (c : CoreId) (f : FmtC) (h : FmtA),
    let l := c.toNat
    let k := (s.core l).opened
    (s.setCore l k).coreReg l 0x10010 = BitVec.ofNat 64 k.slot ∧
    (s.issues (.waitd c f) = true → ∃ t, exec (.waitd c f) s = .next t ∧
      (t.core l).nextIssue = Nat.max (k.slot + 1) ((s.core l).getS f.sa).toNat) ∧
    (s.issues (.slot c h) = true → exec (.slot c h) s =
      .next (s.setCore l (k.passed.setS h.sd (BitVec.ofNat 64 k.slot)))))

/-- LD and LCSR: the word is read at the slot of issue (for LCSR the model's choice, log 120) and is in flight for four slots, an
LD with SPOISON beside it where any sector of the line it reads is marked (the model's reading, log 16); memory does not
change. An LD that its operand port and bank grant in its slot of issue is the one stated (their order is the model's choice,
log 122). ST and SCSR: nothing but the core's results in flight changes at the issue; an ST whose operand port is taken
waits, its slot stretching by a beat (R313; that it asks the port first is the model's choice, log 122). The core's own LD
sees a store from the next slot; every other reader sees it from the fourth, and no other byte changes. A register is written
at the fourth. -/
def Obligations.LoadsAndStoresTakeEffectFourSlotsLater : Prop :=
  (∀ (s : State) (c : CoreId) (f : FmtI),
     let l := c.toNat
     let k := (s.core l).opened
     let off := ((s.core l).getS f.sa + BitVec.ofInt 64 f.imm.toInt).toNat
     (s.issues (.ld c f) = true → k.portsFree → off % 8 = 0 → off ≤ 0x3FFFF8 →
       ∃ t v, exec (.ld c f) s = .next t ∧
         (∀ j, j < 8 → v.extractLsb' (8 * j) 8 = getByte s.mem (l * 0x400000 + off + j)) ∧
         t = s.setCore l (if (List.range 8).any (fun j => marked s.marks ((l * 0x400000 + off) / 128 * 128 + 16 * j))
           then (k.passed.inFlight k 4 (.sreg f.sd v)).inFlight k 4 .spoison
           else k.passed.inFlight k 4 (.sreg f.sd v)) ∧
         (∀ r, ((t.advance l (k.slot + 3)).core l).getS r = (s.core l).getS r) ∧
         (∀ r, ((t.advance l (k.slot + 4)).core l).getS r = if r = f.sd ∧ r ≠ 0 then v else (s.core l).getS r)) ∧
     (s.issues (.lcsr c f) = true → off % 8 = 0 → 0x10000 ≤ off → off ≤ 0x14FFF →
       ∃ t v, exec (.lcsr c f) s = .next t ∧ v = (s.setCore l k).coreReg l off ∧
         t = s.setCore l (k.passed.inFlight k 4 (.sreg f.sd v)) ∧
         (off = 0x10010 → v = BitVec.ofNat 64 k.slot) ∧ (off = 0x10018 → v = BitVec.ofNat 64 k.refbeats) ∧
         (off = 0x10060 → v = k.rngSeed) ∧
         (∀ r, ((t.advance l (k.slot + 4)).core l).getS r = if r = f.sd ∧ r ≠ 0 then v else (s.core l).getS r))) ∧
  (∀ (s : State) (c : CoreId) (f : FmtI),
     let l := c.toNat
     let k := (s.core l).opened
     let off := ((s.core l).getS f.sa + BitVec.ofInt 64 f.imm.toInt).toNat
     let v := (s.core l).getS f.sd
     (s.issues (.st c f) = true → k.cuParked = [] → (look k.arbs 22 ({} : Arbiter)).granted ≠ none → off % 8 = 0 →
       off ≤ 0x3FFFF8 → ∃ t, exec (.st c f) s = .next t ∧ s.onlyCore t l ∧ (t.core l).slot = k.slot ∧
         (t.core l).pc = k.pc ∧ (t.core l).pend = [] ∧ (t.core l).refbeats = k.refbeats + 1) ∧
     (s.issues (.st c f) = true → k.portsFree → off % 8 = 0 → off ≤ 0x3FFFF8 →
       ∃ t, exec (.st c f) s = .next t ∧ t = s.setCore l (k.passed.inFlight k 4 (.store off v)) ∧
         (∀ o, t.ldValue l o = if o = off then v else getWord s.mem (l * 0x400000 + o)) ∧
         (t.advance l (k.slot + 3)).mem = s.mem ∧
         ∀ a, getByte (t.advance l (k.slot + 4)).mem a =
           if l * 0x400000 + off ≤ a ∧ a < l * 0x400000 + off + 8 then v.extractLsb' (8 * (a - l * 0x400000 - off)) 8
           else getByte s.mem a) ∧
     (s.issues (.scsr c f) = true → off % 8 = 0 → 0x10000 ≤ off → off ≤ 0x14FFF →
       ∃ t, exec (.scsr c f) s = .next t ∧ t = s.setCore l (k.passed.inFlight k 4 (.csr off v)) ∧
         (off = 0x10060 → ((t.advance l (k.slot + 3)).core l).rngSeed = k.rngSeed ∧
           ((t.advance l (k.slot + 4)).core l).rngSeed = v) ∧
         (off = 0x10010 → ((t.advance l (k.slot + 4)).core l).slot = k.slot + 4)))

/-- Branches and jumps: the target issues two slots after a taken one, the next address one slot after a branch not taken;
nothing else of the module changes, but that JAL writes its return address. WAITS and WAITI issued at slot j let the next
instruction issue at slot j + max(n, 1), WAITD with t at max(j + 1, t), NOP at j + 1; nothing else changes. -/
def Obligations.BranchesJumpsAndWaitsPlaceTheNextIssue : Prop :=
  (∀ (s : State) (c : CoreId) (f : FmtB),
     let l := c.toNat
     let k := (s.core l).opened
     let a := (s.core l).getS f.sa
     let b := (s.core l).getS f.sb
     let goto_ := fun (t : BitVec 12) => k.passedTo ⟨t, k.slot + 2, false⟩
     let goes := fun (i : Instr) (p : Prop) =>
       (p → s.issuesAt i = true → exec i s = .next (s.setCore l (goto_ f.target))) ∧
       (¬ p → s.issues i = true → exec i s = .next (s.setCore l k.passed))
     goes (.beq c f) (a = b) ∧ goes (.bne c f) (a ≠ b) ∧
     goes (.blt c f) (a.toInt < b.toInt) ∧ goes (.bge c f) (b.toInt ≤ a.toInt) ∧
     goes (.bltu c f) (a.toNat < b.toNat) ∧ goes (.bgeu c f) (b.toNat ≤ a.toNat) ∧
     (s.issuesAt (.j c f) = true → exec (.j c f) s = .next (s.setCore l (goto_ f.target))) ∧
     (s.issuesAt (.jal c f) = true →
       exec (.jal c f) s = .next (s.setCore l ((goto_ f.target).setS f.sa (BitVec.ofNat 64 ((s.core l).pc.toNat + 1))))) ∧
     (s.issuesAt (.jr c f) = true → exec (.jr c f) s = .next (s.setCore l (goto_ (a.extractLsb' 0 12))))) ∧
  (∀ (s : State) (c : CoreId) (f : FmtC),
     let l := c.toNat
     let k := (s.core l).opened
     let n := ((s.core l).getS f.sa).toNat
     let holds := fun (i : Instr) (u : Nat) => s.issues i = true →
       exec i s = .next (s.setCore l (k.passedTo ⟨k.pc + 1, u, true⟩)) ∧
       (k.passedTo ⟨k.pc + 1, u, true⟩).nextIssue = u
     holds (.waits c f) (k.slot + Nat.max n 1) ∧ holds (.waiti c f) (k.slot + Nat.max f.imm.toNat 1) ∧
     holds (.waitd c f) (Nat.max (k.slot + 1) n) ∧
     (s.issues (.nop c f) = true → exec (.nop c f) s = .next (s.setCore l k.passed) ∧ k.passed.nextIssue = k.slot + 1))

/-- SWAPI makes the other bank active and goes on at imm32[11:0] two slots later, or raises IMEM_BUSY; ENDS sets ENDED, and the
slots in which the pipelines retire complete as far as no engine event is due. EVT: a DONE merges with an unsent DONE; a LOG
or REFUSED that finds four of them waiting is dropped and counted, the count saturating; any other message joins the unsent
ones and starts on the control net (R118, R302). BARA counts an arrival. Where the core may take part and fewer than four
arrivals are outstanding, the arrival with its generation's number joins them and its message starts for the die's barrier
unit; otherwise, with none outstanding, it is released with FAIL at once (R304, R306). -/
def Obligations.SwapEndEventAndArrivalRowsAct : Prop :=
  (∀ (s : State) (c : CoreId) (f : FmtC),
     let l := c.toNat
     let k := (s.core l).opened
     (s.issuesAt (.swapi c f) = true → (s.setCore l k).imemPend l = false →
       exec (.swapi c f) s =
         .next (s.setCore l (Core.passedTo { k with bank := !k.bank } ⟨f.imm.extractLsb' 0 12, k.slot + 2, false⟩))) ∧
     (s.issuesAt (.swapi c f) = true → (s.setCore l k).imemPend l = true →
       ∃ t, exec (.swapi c f) s = .next t ∧ s.faults t l 3 0) ∧
     (s.issuesAt (.ends c f) = true →
       let e := Core.passed { k with ended := true }
       exec (.ends c f) s = .next (s.setCore l (e.completeSlots (Nat.min e.quietTo e.retireSlot - e.slot))) ∧
         (k.matTail ≤ e.slot → k.vecTail ≤ e.slot → exec (.ends c f) s = .next (s.setCore l e)))) ∧
  (∀ (s : State) (c : CoreId) (f : FmtC),
     let l := c.toNat
     let k := (s.core l).opened
     let m : EvtMsg := ⟨f.kind, f.imm.extractLsb' 0 16, (s.core l).getS f.sa⟩
     let others := (k.evts.filter (fun e => e.kind != 2)).length
     s.issues (.evt c f) = true →
     exec (.evt c f) s = .next (
       if f.kind = 2 ∧ (∃ e, e ∈ k.evts ∧ e.kind = 2) then s.setCore l k.passed
       else if f.kind ≠ 2 ∧ 4 ≤ others then s.setCore l (Core.passed
         { k with evtLost := if k.evtLost = 0xFFFF then 0xFFFF else k.evtLost + 1 })
       else (s.tellNemar l .evt 0).setCore l (Core.passed { k with evts := k.evts ++ [m] }))) ∧
  (∀ (s : State) (c : CoreId) (f : FmtC),
     let l := c.toNat
     let k := (s.core l).opened
     let b := f.imm.toNat % 256
     s.issues (.bara c f) = true →
     ((s.setCore l k).mayArrive l b = true → k.barOut.length < 4 →
       exec (.bara c f) s = .next ((s.sendArrival l b).setCore l (Core.passed
         { k with barArr := k.barArr + 1, barOut := k.barOut ++ [⟨BitVec.ofNat 8 b, look k.barGen b 0, false, none⟩],
                  barGen := put k.barGen b (look k.barGen b 0 + 1) }))) ∧
     ((s.setCore l k).mayArrive l b = false → k.barOut = [] →
       exec (.bara c f) s = .next (s.setCore l (Core.passed
         { k with barArr := k.barArr + 1, barRel := k.barRel + 1, barFail := true }))))

/-- TRAP, a reserved opcode, a nonzero bit in a field marked zero (of every instruction row), LD, ST, LCSR and SCSR outside their
ranges, an error of the fetch, and falling through address 4095: each is recorded at its slot of issue with its cause and has
no other effect; that the faulting slot itself completes is the model's reading (log 49). The LASTING record and count of an
instruction-memory error (R389 to R392) are made where the error arises, by SELF_CHECK_REPORT (the model's choice, log 114),
and the fetch that meets it adds none. -/
def Obligations.ProgramFaultsAreRecorded : Prop :=
  (∀ (s : State) (c : CoreId) (f : FmtC), s.issues (.trap c f) = true →
    ∃ t, exec (.trap c f) s = .next t ∧ s.faults t c.toNat 8 f.imm.toNat) ∧
  (∀ (s : State) (i : Instr) (c : CoreId) (w : Word), wordOf i = some (c, w) → s.canIssue c.toNat w = true →
    (s.core c.toNat).pend = [] → (s.core c.toNat).fetchBad = true →
    ∃ t, exec i s = .next t ∧ s.faults t c.toNat 4 0) ∧
  (∀ (s : State) (c : CoreId) (w : Word), opcodeAssigned (fld w 56 8) = false → s.ready c.toNat w = true →
    ∃ t, exec (.reservedOpcode c w) s = .next t ∧ s.faults t c.toNat 1 0) ∧
  (∀ (s : State) (i : Instr) (c : CoreId) (w : Word), wordOf i = some (c, w) → i.wellFormed = false →
    s.ready c.toNat w = true → (0x80 ≤ fld w 56 8 → (s.core c.toNat).queueFull (fld w 56 8) = false) →
    ∃ t, exec i s = .next t ∧ s.faults t c.toNat 1 0) ∧
  (∀ (s : State) (c : CoreId) (f : FmtI),
    let l := c.toNat
    let off := ((s.core l).getS f.sa + BitVec.ofInt 64 f.imm.toInt).toNat
    ((off % 8 ≠ 0 ∨ 0x3FFFF8 < off) →
      (s.issuesAt (.ld c f) = true → ∃ t, exec (.ld c f) s = .next t ∧ s.faults t l 5 0) ∧
      (s.issuesAt (.st c f) = true → ∃ t, exec (.st c f) s = .next t ∧ s.faults t l 5 0)) ∧
    ((off % 8 ≠ 0 ∨ off < 0x10000 ∨ 0x14FFF < off) →
      (s.issuesAt (.lcsr c f) = true → ∃ t, exec (.lcsr c f) s = .next t ∧ s.faults t l 6 0) ∧
      (s.issuesAt (.scsr c f) = true → ∃ t, exec (.scsr c f) s = .next t ∧ s.faults t l 6 0))) ∧
  (∀ (s : State) (i : Instr) (c : CoreId) (w : Word), wordOf i = some (c, w) → opcodeAssigned (fld w 56 8) = true →
    fld w 56 8 ≤ 0x21 → s.issuesAt i = true → (s.core c.toNat).pc = 4095 →
    ∃ t, exec i s = .next t ∧ s.faults t c.toNat 2 0)

/-! ## Engine instructions (R104, R105, R135 to R194) -/

/-- MLOAD, MSTR, MSTRL and MMA that are legal and find room join the matrix queue with the start slot and occupancy of R105,
their registers read at issue; MMA writes its cost to sC, visible in the next slot (R110). Each of the 35 vector rows that is
legal, present, in range and finds room joins the vector queue with the start slot and occupancy of R105. -/
def Obligations.EngineRowsJoinTheirQueues : Prop :=
  (∀ (s : State) (c : CoreId),
     let l := c.toNat
     let k := (s.core l).opened
     let room := k.matQ.length < 32
     (∀ f : FmtMload, s.issues (.mload c f) = true → room → mloadIllegal k f = false →
       ¬ (s.grade = .s ∧ f.ifmt = 9) →
       exec (.mload c f) s = .next (s.setCore l (k.joinsMatrix f.delay 32
         (.load (f.p = 1) ⟨f.isrc.toNat, f.ifmt, Nat.min (((s.core l).getS f.sKM).toNat % 256) 32,
           Nat.min (((s.core l).getS f.sKM).toNat / 256 % 256) (mMax f.ifmt.toNat)⟩)))) ∧
     (∀ f : FmtMstr, s.issues (.mstr c f) = true → room → mstrIllegal k false f = false →
       ¬ (s.grade = .s ∧ f.wfmt = 9) →
       exec (.mstr c f) s = .next (s.setCore l (k.joinsMatrix f.delay
         (Nat.max (((s.core l).getS f.sN).toNat % 65536) 1) (.stream (streamOf k f) none)))) ∧
     (∀ f : FmtMstr, s.issues (.mstrl c f) = true → room → mstrIllegal k true f = false →
       ¬ (s.grade = .s ∧ (f.wfmt = 9 ∨ f.ifmt = 9)) →
       exec (.mstrl c f) s = .next (s.setCore l (k.joinsMatrix f.delay
         (Nat.max (((s.core l).getS f.sN).toNat % 65536) 32)
         (.stream (streamOf k f) (some (planeLoad f.isrc.toNat f.ifmt ((s.core l).getS f.sKM))))))) ∧
     (∀ f : FmtMma, s.issues (.mma c f) = true → room → mmaIllegal k f = false →
       ¬ (s.grade = .s ∧ (f.wfmt = 9 ∨ f.ifmt = 9)) →
       let w := walkOf f ((s.core l).getS f.sX) ((s.core l).getS f.sL)
       exec (.mma c f) s = .next (s.setCore l ((k.joinsMatrix f.delay w.occ (.walk w)).setS f.sC
         (BitVec.ofNat 64 (Nat.max (k.slot + 1) (k.matTail + f.delay.toNat) + w.occ + w.extra - k.slot - 1)))))) ∧
  (∀ r ∈ ([(.vadd, 0xA0), (.vsub, 0xA1), (.vmul, 0xA2), (.vfma, 0xA3), (.vdiv, 0xA4), (.vsqrt, 0xA5), (.vrsqrt, 0xA6),
       (.vexp, 0xA7), (.vexp2, 0xA8), (.vlog2, 0xA9), (.vtanh, 0xAA), (.vmax, 0xAB), (.vmin, 0xAC), (.vabs, 0xAD),
       (.vneg, 0xAE), (.vcmplt, 0xAF), (.vcmple, 0xB0), (.vcmpeq, 0xB1), (.visfin, 0xB2), (.vsel, 0xB3), (.vmov, 0xB4),
       (.vcvt, 0xB5), (.vsplat, 0xB6), (.viota, 0xB7), (.vrand, 0xB8), (.vpld, 0xB9), (.vpst, 0xBA), (.vfxadd, 0xBB),
       (.vbcr, 0xC0), (.vbcc, 0xC1), (.vrrow, 0xC2), (.vcompress, 0xC4), (.vexpand, 0xC5), (.vred, 0xC8),
       (.hflush, 0xCC)] : List ((CoreId → FmtV → Instr) × Nat)),
   ∀ (s : State) (c : CoreId) (f : FmtV),
     let l := c.toNat
     let k := (s.core l).opened
     let op := r.2
     s.issues (r.1 c f) = true → k.vecQ.length < 64 → vecIllegal k op f = false →
     ¬ (s.grade = .s ∧ (f.tap = 1 ∨ op = 0xCC)) → vecRange k op f = false →
     exec (r.1 c f) s =
       .next (s.setCore l (k.joinsVector f.delay (Nat.max (vecOpOf k op f).groups 1) (vecOpOf k op f))))

/-- An engine instruction of every row that its row's checks call illegal, absent in the grade or out of range, with room in its
queue, raises that cause, the first in the order of R119. FGO and FSTOP of an enabled generator and DMA of a descriptor in
the slice, their queues empty: accepted at once by handshake, to act from the third slot after the issue (slots as the model
counts them: log 124), or, where the generator holds four passes or the channel four chains, waiting in the queue (R194,
R201). An engine instruction that meets a full queue is not issued: its slot is empty, and it is tried again (R40, R104). -/
def Obligations.EngineRowsFaultFetchAndWait : Prop :=
  (∀ (s : State) (c : CoreId),
     let l := c.toNat
     let k := (s.core l).opened
     (∀ f : FmtMload, s.issuesAt (.mload c f) = true → k.matQ.length < 32 →
       (mloadIllegal k f = true → ∃ t, exec (.mload c f) s = .next t ∧ s.faults t l 1 0) ∧
       (mloadIllegal k f = false → s.grade = .s → f.ifmt = 9 →
         ∃ t, exec (.mload c f) s = .next t ∧ s.faults t l 7 0)) ∧
     (∀ f : FmtMstr, s.issuesAt (.mstr c f) = true → k.matQ.length < 32 →
       (mstrIllegal k false f = true → ∃ t, exec (.mstr c f) s = .next t ∧ s.faults t l 1 0) ∧
       (mstrIllegal k false f = false → s.grade = .s → f.wfmt = 9 →
         ∃ t, exec (.mstr c f) s = .next t ∧ s.faults t l 7 0)) ∧
     (∀ f : FmtMstr, s.issuesAt (.mstrl c f) = true → k.matQ.length < 32 →
       (mstrIllegal k true f = true → ∃ t, exec (.mstrl c f) s = .next t ∧ s.faults t l 1 0) ∧
       (mstrIllegal k true f = false → s.grade = .s → f.wfmt = 9 ∨ f.ifmt = 9 →
         ∃ t, exec (.mstrl c f) s = .next t ∧ s.faults t l 7 0)) ∧
     (∀ f : FmtMma, s.issuesAt (.mma c f) = true → k.matQ.length < 32 →
       (mmaIllegal k f = true → ∃ t, exec (.mma c f) s = .next t ∧ s.faults t l 1 0) ∧
       (mmaIllegal k f = false → s.grade = .s → f.wfmt = 9 ∨ f.ifmt = 9 →
         ∃ t, exec (.mma c f) s = .next t ∧ s.faults t l 7 0)) ∧
     (∀ r ∈ vectorRows, ∀ f : FmtV, s.issuesAt (r.1 c f) = true → k.vecQ.length < 64 →
       (vecIllegal k r.2 f = true → ∃ t, exec (r.1 c f) s = .next t ∧ s.faults t l 1 0) ∧
       (vecIllegal k r.2 f = false → s.grade = .s → f.tap = 1 ∨ r.2 = 0xCC →
         ∃ t, exec (r.1 c f) s = .next t ∧ s.faults t l 7 0) ∧
       (vecIllegal k r.2 f = false → ¬ (s.grade = .s ∧ (f.tap = 1 ∨ r.2 = 0xCC)) → vecRange k r.2 f = true →
         ∃ t, exec (r.1 c f) s = .next t ∧ s.faults t l 5 0)) ∧
     (∀ f : FmtFgo, s.issuesAt (.fgo c f) = true → k.fetchQ.length < 32 → (k.gen f.g.toNat).en = false →
       ∃ t, exec (.fgo c f) s = .next t ∧ s.faults t l 1 0) ∧
     (∀ f : FmtFstop, s.issuesAt (.fstop c f) = true → k.fetchQ.length < 32 → (k.gen f.g.toNat).en = false →
       ∃ t, exec (.fstop c f) s = .next t ∧ s.faults t l 1 0) ∧
     (∀ f : FmtDma, s.issuesAt (.dma c f) = true → k.dmaQ.length < 16 →
       (((s.core l).getS f.sD).toNat % 64 ≠ 0 ∨ 0x3FFFC0 < ((s.core l).getS f.sD).toNat) →
       ∃ t, exec (.dma c f) s = .next t ∧ s.faults t l 5 0)) ∧
  (∀ (s : State) (c : CoreId),
     let l := c.toNat
     let k := (s.core l).opened
     (∀ f : FmtFgo, s.issues (.fgo c f) = true → k.fetchQ = [] → (k.gen f.g.toNat).en = true →
       let a := k.gen f.g.toNat
       let p : Pass := { off := ((s.core l).getS f.sOff).toInt, cnt := ((s.core l).getS f.sCnt).toNat % 2 ^ 24,
                         due := k.slot + 3 }
       exec (.fgo c f) s = .next (s.setCore l
         (if a.passes.length < 4 then k.passed.setGen f.g.toNat { a with passes := a.passes ++ [p] }
          else { k.passed with fetchQ := [(f.g.toNat, some p)] }))) ∧
     (∀ f : FmtFstop, s.issues (.fstop c f) = true → k.fetchQ = [] → (k.gen f.g.toNat).en = true →
       exec (.fstop c f) s = .next (s.setCore l (k.passed.setGen f.g.toNat (k.gen f.g.toNat).fstop)) ∧
       (k.gen f.g.toNat).fstop.passes = []) ∧
     (∀ f : FmtDma, s.issues (.dma c f) = true → k.dmaQ = [] →
       let off := ((s.core l).getS f.sD).toNat
       let d := k.chan f.ch.toNat
       off % 64 = 0 → off ≤ 0x3FFFC0 →
       exec (.dma c f) s = .next (s.setCore l
         (if d.chains.length < 4 then k.passed.setChan f.ch.toNat { d with chains := d.chains ++ [(off, k.slot + 3)] }
          else { k.passed with dmaQ := [(f.ch.toNat, off, k.slot + 3)] })))) ∧
  (∀ (s : State) (i : Instr) (c : CoreId) (w : Word), wordOf i = some (c, w) → opcodeAssigned (fld w 56 8) = true →
     0x80 ≤ fld w 56 8 → s.ready c.toNat w = true → (s.core c.toNat).queueFull (fld w 56 8) = true →
     exec i s = .next (s.setCore c.toNat ((s.core c.toNat).opened.completeSlots 1)))

/-- An instruction row changes no other core, no region's registers, no tier or power state, and no grade, of the mesh only the
messages that it sends, and of Nemar only the fault messages and the event log: all 100 rows, in every state. -/
def Obligations.InstructionRowsStayInTheirCore : Prop :=
  ∀ (s : State) (i : Instr) (c : CoreId) (w : Word) (t : State), wordOf i = some (c, w) → exec i s = .next t →
    (∀ l, l ≠ c.toNat → t.core l = s.core l) ∧ t.grade = s.grade ∧ t.regions = s.regions ∧ t.images = s.images ∧
    t.tiers = s.tiers ∧ t.plant = s.plant ∧ t.pending = s.pending ∧
    { t.mesh with flits := s.mesh.flits, nextFlit := s.mesh.nextFlit, nextArr := s.mesh.nextArr } = s.mesh ∧
    (∀ n, n < s.mesh.nextFlit → find? t.mesh.flits n = find? s.mesh.flits n) ∧
    { t.nemar with faultMsgs := s.nemar.faultMsgs, log := s.nemar.log, logNext := s.nemar.logNext } = s.nemar

/-- ENGINE_INSTR_START with nothing of the core in flight: the instruction at the head of the queue leaves it and is in hand from
its start slot, which opens; no other core and no other part of the module changes. ENGINE_GROUP of the matrix array: where
every dequeue of the group can be made, the group is done and the next one is in hand, or the instruction is complete; where
one cannot, the slot stretches. That a group takes its entries in their order as they come and holds those it has (logs 14
and 21), and that one command stretches by one beat, counted once (log 28), is the model's reading. No fetch queue of the
core has an entry in its landing area. ENGINE_GROUP of the vector engine, shown on the one group of a VMOV of FP32 elements
between vector registers: the instruction is complete, and from its visibility slot S + 6 the destination's elements are the
source's, bit for bit, and no other element changes. -/
def Obligations.EnginesStartAndComputeTheirGroups : Prop :=
  (∀ (s : State) (c : CoreId) (d : Nat),
     let l := c.toNat
     let k := s.core l
     k.pend = [] → k.slot ≤ d →
     (∀ q rest p x, s.eventSlot l .matrix = some d → k.matA = none → k.matQ = q :: rest → q.op = .load p x →
       ∃ t, exec (.engineInstrStart c .matrix) s = .next t ∧ s.onlyCore t l ∧ (t.core l).slot = d ∧
         (t.core l).matQ = rest ∧
         (t.core l).matA = some { iss := q.iss, start := q.start, groups := 32, ld := some (p, x) }) ∧
     (∀ q rest, s.eventSlot l .vector = some d → k.vecA = none → k.vecQ = q :: rest → q.op.op ≠ 0xCC → q.op.n ≠ 0 →
       ∃ t a, exec (.engineInstrStart c .vector) s = .next t ∧ s.onlyCore t l ∧ (t.core l).slot = d ∧
         (t.core l).vecQ = rest ∧ (t.core l).vecA = some a ∧ a.iss = q.iss ∧ a.start = q.start ∧ a.g = 0 ∧
         a.op = q.op ∧ a.groups = q.op.groups ∧ a.seed = k.rngSeed ∧ a.ctx = k.rngCtx)) ∧
  (∀ (s : State) (c : CoreId) (d : Nat) (a : MatActive),
     let l := c.toNat
     let k := s.core l
     let o := k.completeSlots (d - k.slot)
     let r := takeNeeds (a.needs.drop a.got) o a
     k.pend = [] → k.landless → k.slot ≤ d → s.eventSlot l .matrix = some d → k.matA = some a → a.g < a.groups →
     (r.2.got = a.needs.length →
       ∃ t, exec (.engineGroup c .matrix) s = .next t ∧ (∀ j, j ≠ l → t.core j = s.core j) ∧
         (k.ended = false → k.nextIssue ≤ d + 1 → s.onlyCore t l) ∧
         (t.core l).matA = (if a.groups ≤ a.g + 1 ∧ a.walk = none then none
           else some { r.2.loadGroup.1 with g := a.g + 1, got := 0 })) ∧
     (r.2.got < a.needs.length →
       ∃ t, exec (.engineGroup c .matrix) s = .next t ∧ s.onlyCore t l ∧ (t.core l).matA = some r.2 ∧
         (t.core l).slot = d ∧ (t.core l).refbeats = o.refbeats + 1 ∧
         (t.core l).stallTotal = if k.freeze then k.stallTotal else k.stallTotal + 1)) ∧
  (∀ (s : State) (c : CoreId) (d : Nat) (a : VecActive) (rd ra : Nat),
     let l := c.toNat
     let k := s.core l
     k.pend = [] → k.landless → k.slot ≤ d → s.eventSlot l .vector = some d → k.vecA = some a →
     a.g = 0 → a.groups = 1 → a.depth = 6 → a.start = d → a.op.op = 0xB4 → a.op.fmt = 0xA → a.op.d = .vreg rd →
     a.op.a = .vreg ra → a.op.b = .none → a.op.c = .none → 0 < a.op.n → a.op.n ≤ 64 → a.op.w = 64 → a.op.tap = false →
     rd < 16 → ra < 16 →
     ∃ t, exec (.engineGroup c .vector) s = .next t ∧ s.onlyCore t l ∧ (t.core l).vecA = none ∧
       let v := (t.advance l (d + 6)).core l
       (∀ e, e < a.op.n → look v.vregs (rd * 4096 + e) 0 = look k.vregs (ra * 4096 + e) 0) ∧
       (∀ x, x < rd * 4096 ∨ rd * 4096 + a.op.n ≤ x → look v.vregs x 0 = look k.vregs x 0))

/-- MMA_TILE: the next tile of the walk in hand starts at its slot and is named in CORE_SEQ_POS; a computed one streams and loads
the next computed one, a skipped one takes a slot. AG_TILE_READ of a generator that reads and is not indexed: the next tile
waits with its runs at the addresses of R188 once run-ahead, free entries and the entry gate allow, from the third slot after
its FGO on (R196); a closed gate makes it GATED, and nothing else changes. No fetch queue of the core has an entry in its
landing area. -/
def Obligations.TilesAndGeneratorsFollowTheirWalks : Prop :=
  (∀ (s : State) (c : CoreId) (d : Nat) (a : MatActive) (p : WalkPos),
     let l := c.toNat
     let k := s.core l
     k.pend = [] → k.slot ≤ d → s.eventSlot l .matrix = some d → k.matA = some a → a.walk = some p → a.groups ≤ a.g →
     ∃ t, exec (.mmaTile c) s = .next t ∧ s.onlyCore t l ∧ (k.ended = false → (t.core l).slot = d) ∧
       (t.core l).seqPos = p.w.pos p.tile ∧
       (p.w.isComputed p.tile = true → ∃ b, (t.core l).matA = some b ∧ b.start = p.due ∧ b.g = 0 ∧
         b.str = some (p.w.streamOf p.tile p.plane) ∧
         b.ld = (p.w.nextComputed p.tile).map (fun n => (!p.plane, p.w.loadOf n))) ∧
       (p.w.isComputed p.tile = false → p.tile + 1 < p.w.tiles →
         (t.core l).matA = some { a with walk := some { p with tile := p.tile + 1, due := p.due + 1 } })) ∧
  (∀ (s : State) (c : CoreId) (g : BitVec 2) (p : Pass) (i : Nat),
     let l := c.toNat
     let n := g.toNat
     let k := s.core l
     let a := k.gen n
     a.next = some (p, i) → s.queuesMove l = true → k.landless → k.reached p.due = true → a.en = true → a.writes = false →
     a.indexed = false → a.left.length < a.ahead → a.held + k.tileEntries n p.cnt ≤ 16 + a.lsize →
     (a.atGate p i = true → ∀ r, s.regionOf l = some r → (s.region r).gate = false →
       exec (.agTileRead c g) s = .next (s.setCore l (k.setGen n { a with gated := true }))) ∧
     (a.atGate p i = false ∨ (∃ r, s.regionOf l = some r ∧ (s.region r).gate = true) → k.fetchQ = [] → a.tiles = [] →
       0 < a.tileRuns p.cnt →
       ∃ t, exec (.agTileRead c g) s = .next t ∧
         let b := (t.core l).gen n
         (∃ rs, b.tiles = [rs] ∧ rs.map (fun r => (r.addr, r.len, r.slot, r.withheld, r.got)) =
           (List.range (a.tileRuns p.cnt)).map (fun j => (a.runAddr p i j none, a.run, j, false, none))) ∧
         b.left = a.left ++ [⟨k.tileEntries n p.cnt - a.skip, decide (a.tilesIn p ≤ i + 1), p, i, [], 0, 0⟩] ∧
         b.cur = (if i + 1 < a.tilesIn p then some (p, i + 1) else none) ∧
         b.passes = (if a.cur.isNone then a.passes.drop 1 else a.passes) ∧
         b.fq = a.fq ∧ b.gated = false ∧ b.errs = a.errs ∧
         t.mem = s.mem ∧ t.marks = s.marks ∧ ∀ j, j ≠ l → t.core j = s.core j))

/-! ## Stream queues and regions -/

/-- SQ_ENTRY_SEND and SQ_CREDIT_GRANT: an entry leaves the head of an output queue with a credit of its phase and is on its way
to the input queue its binding names; a free entry's credit is counted by the input queue and held by its creditor. No third
core and no byte of memory changes. SQ_ENTRY_ARRIVE and SPILL_RETURN keep arrival order: buffer and spill area together hold
the old entries and then the new one, whose line of the area alone of memory may change; an entry of the next phase goes to
the buffer alone (R70, R71). The arbiters of the core, which a spilled line asks for its bank, are idle. -/
def Obligations.EntriesPassThroughStreamQueues : Prop :=
  ((∀ (s : State) (c : CoreId) (q : BitVec 3) (e : Entry) (rest : List Entry),
     let l := c.toNat
     let x := (s.core l).queue (8 + q.toNat)
     let p := peerCore x.binding
     (s.core l).pend = [] → s.queuesMove l = true → x.buf = e :: rest → bit x.binding 31 = true →
     0 < x.cred e.phase → e.tide = false →
     ∃ t n, exec (.sqEntrySend c q) s = .next t ∧
       ((t.core l).queue (8 + q.toNat)).buf = rest ∧
       ((t.core l).queue (8 + q.toNat)).cred e.phase = x.cred e.phase - 1 ∧
       ((t.core p).queue (peerQ x.binding)).arriving =
         ((s.core p).queue (peerQ x.binding)).arriving ++ [(e, n)] ∧
       (∀ j, j ≠ l → j ≠ p → t.core j = s.core j) ∧ t.mem = s.mem ∧ t.regions = s.regions ∧ t.host = s.host) ∧
   (∀ (s : State) (c : CoreId) (q : BitVec 3) (ph : Bool) (p n : Nat),
     let l := c.toNat
     s.creditor l q.toNat ph = some (p, n) → s.queuesMove l = true → (s.core l).mayGrant q.toNat ph = true →
     ∃ t, exec (.sqCreditGrant c q ph) s = .next t ∧
       ((t.core l).queue q.toNat).out ph = ((s.core l).queue q.toNat).out ph + 1 ∧
       ((t.core p).queue n).cred ph = ((s.core p).queue n).cred ph + 1 ∧
       (∀ j, j ≠ l → j ≠ p → t.core j = s.core j) ∧ { t with cores := s.cores } = s)) ∧
  ((∀ (s : State) (c : CoreId) (q : BitVec 3) (e : Entry) (n : Nat) (rest : List (Entry × Nat)) (f : MeshFlit),
     let l := c.toNat
     let x := (s.core l).queue q.toNat
     x.arriving = (e, n) :: rest → find? s.mesh.flits n = some f → f.delivered = true → (s.core l).running = true →
     x.ringSound = true → (s.core l).banksFree →
     ∃ t, exec (.sqEntryArrive c q) s = .next t ∧
       let y := (t.core l).queue q.toNat
       y.arriving = rest ∧ find? t.mesh.flits n = none ∧
       (e.phase = (s.core l).phase → y.buf ++ t.spilled l q.toNat = x.buf ++ s.spilled l q.toNat ++ [e]) ∧
       (e.phase ≠ (s.core l).phase → y.buf = x.buf ++ [e] ∧ y.spill = x.spill ∧ t.mem = s.mem) ∧
       y.cfg = x.cfg ∧ y.out0 = x.out0 ∧ y.out1 = x.out1 ∧ (∀ j, j ≠ l → t.core j = s.core j) ∧
       ∀ a, a < l * 0x400000 + 128 * x.tailLine ∨ l * 0x400000 + 128 * x.tailLine + 128 ≤ a →
         getByte t.mem a = getByte s.mem a) ∧
   (∀ (s : State) (c : CoreId) (q : BitVec 4) (e : SpillLine) (rest : List SpillLine),
     let l := c.toNat
     let k := s.core l
     let x := k.queue q.toNat
     x.spill = e :: rest → s.queuesMove l = true → k.banksFree →
     x.buf.length + (if q.toNat < 8 then x.setAside k.phase else 0) < 16 →
     ∃ t, exec (.spillReturn c q) s = .next t ∧ s.onlyCore t l ∧
       ((t.core l).queue q.toNat).buf = x.buf ++ [s.spillEntry l e] ∧ ((t.core l).queue q.toNat).spill = rest ∧
       ((t.core l).queue q.toNat).occ = x.occ))

/-- STAGED is noted by the running core it was sent to once its message is there. CORE_SWITCH where R75 holds and every tideline
has gone: the phase is inverted, the other bank holds the staged words and is active, and the core starts at address 0 with
its scalar registers kept and nothing staged; the last core of the region to switch makes it RUNNING in the new phase (R73,
R76, R79). -/
def Obligations.TheSwitchStartsTheNewSection : Prop :=
  (∀ (s : State) (c : CoreId),
    let l := c.toNat
    (s.core l).stagedSent = true → (s.core l).running = true →
    (s.underWay .staged l 0 = false → exec (.staged c) s =
      .next ((s.takeMessage .staged l 0).setCore l { s.core l with stagedHere := true })) ∧
    (s.underWay .staged l 0 = true → exec (.staged c) s = .next s)) ∧
  (∀ (s : State) (c : CoreId) (r : Nat),
    let l := c.toNat
    let o := s.retired l
    let k := o.core l
    let p := o.enqueueTides l
    let x := p.stagedRec l
    let g := o.region r
    o.mayCross l = true → (p.core l).allTided = true → o.regionOf l = some r → g.drainHeld = false →
    ∃ t, exec (.coreSwitch c) s = .next t ∧
      (t.core l).phase = !k.phase ∧ (t.core l).bank = !k.bank ∧ (t.core l).pc = 0 ∧ (t.core l).sregs = k.sregs ∧
      (∀ a, (t.core l).imem (!k.bank) a = look x.words a 0) ∧ (∀ a, (t.core l).imem k.bank a = k.imem k.bank a) ∧
      (t.core l).staged = false ∧ (t.core l).ended = false ∧ (t.core l).slot = k.slot ∧
      (t.core l).matQ = [] ∧ (t.core l).vecQ = [] ∧ (t.core l).pend = [] ∧
      (∀ kid, g.load = some kid →
        ((∀ j ∈ rectCores g.rect, j ≠ l → (o.core j).switched = true) → l ∈ rectCores g.rect →
          (t.region r).state = .running ∧ (t.region r).phase = !g.phase ∧ (t.region r).load = none ∧
          fld (t.region r).ctrl 16 16 = kid.2.toNat) ∧
        ((∃ j ∈ rectCores g.rect, j ≠ l ∧ (o.core j).switched = false) → t.regions = o.regions)))

/-- DEADLOCK_SAMPLE, where one region alone is RUNNING or TIDELINE: each queue of each of its cores counts one more sample
without progress, or none if an entry entered or left it; no other core changes (R81). DEADLOCK_REPORT of a RUNNING or
TIDELINE region with a wait cycle and no drain: it is HALTED with WATCH set, its registers hold the cycle's kind and length
and its first 32 waits, and its request is over (R81, R82). -/
def Obligations.TheDeadlockWatchHaltsARegion : Prop :=
  (∀ (s : State) (r : Nat) (g : Region),
     s.regions.filter (fun e => e.2.state == .running || e.2.state == .tideline) = [(r, g)] →
     ∃ t, exec .deadlockSample s = .next t ∧ { t with cores := s.cores } = s ∧
       (∀ l ∈ rectCores g.rect, ∀ n, n < 16 →
         ((t.core l).queue n).moved = false ∧
         ((t.core l).queue n).quiet = (if ((s.core l).queue n).moved then 0 else ((s.core l).queue n).quiet + 1) ∧
         ((t.core l).queue n).buf = ((s.core l).queue n).buf) ∧
       (∀ l, l ∉ rectCores g.rect → t.core l = s.core l)) ∧
  (∀ (s : State) (r : RegionId) (ws : List QueueWait),
     let n := r.toNat
     let g := s.region n
     g.state = .running ∨ g.state = .tideline → s.waitCycle n = some ws → g.drain = none →
     ∃ t, exec (.deadlockReport r) s = .next t ∧
       (t.region n).state = .halted ∧ (t.region n).watch = true ∧ (t.region n).reqValid = false ∧
       fld (t.region n).dlCount 20 1 = 1 ∧ fld (t.region n).dlCount 21 2 = cycleKind ws ∧
       fld (t.region n).dlCount 0 20 = ws.length % 2 ^ 20 ∧ (t.region n).dlQ = (ws.take 32).map QueueWait.word)

/-- EBB_DRAIN_COMPLETE, STOP_CONFIRM, SCAN_COMPLETE and FLOOD_COMPLETE move a region as R66 says: EBBING to SLACK or, with the
EBB option, STAGED; STOPPING to SCANNING with the last core's stop; SCANNING to SAVED; FLOODING to where it was, each once
its scan traffic is over, the module not halted. -/
def Obligations.DrainsAndFloodsMoveTheRegion : Prop :=
  (∀ (s : State) (r : RegionId) (k : CmdRef) (off : Bool),
    let n := r.toNat
    let g := s.region n
    g.state = .ebbing → g.reqValid = false → (rectCores g.rect).all s.ebbed = true → g.drain = some (k, off) →
    s.host.state ≠ .halted →
    ∃ t, exec (.ebbDrainComplete r) s = .next t ∧ (t.region n).drain = none ∧
      (t.region n).state = (if off then .staged else .slack) ∧ (∀ x, t.command k = some x → x.ended = true)) ∧
  (∀ (s : State) (c : CoreId) (r : Nat),
    let l := c.toNat
    let g := s.region r
    s.regionOf l = some r → s.mayStop l = true → l ∈ rectCores g.rect →
    ∃ t, exec (.stopConfirm c) s = .next t ∧ (t.core l).stopped = true ∧ (∀ j, j ≠ l → t.core j = s.core j) ∧
      ((g.state = .stopping ∧ ∀ j ∈ rectCores g.rect, j ≠ l → (s.core j).stopped = true) →
        (t.region r).state = .scanning) ∧
      ((∃ j ∈ rectCores g.rect, j ≠ l ∧ (s.core j).stopped = false) → t.regions = s.regions)) ∧
  (∀ (s : State) (r : RegionId),
    let n := r.toNat
    let g := s.region n
    g.state = .scanning → s.scanning n = false → g.stopFault = none → g.lostCore = none → g.scanCause ≠ .replacement →
    s.nemar.replacements = [] → s.host.state ≠ .halted →
    ∃ t, exec (.scanComplete r) s = .next t ∧ (t.region n).state = .saved ∧ (t.region n).drain = none ∧
      (∀ l ∈ rectCores g.rect, (t.core l).running = false) ∧ (∀ l, l ∉ rectCores g.rect → t.core l = s.core l)) ∧
  (∀ (s : State) (r : RegionId),
    let n := r.toNat
    let g := s.region n
    g.state = .flooding → s.scanning n = false → s.nemar.replacements = [] → s.host.state ≠ .halted →
    ∃ t, exec (.floodComplete r) s = .next t ∧ (t.region n).state = g.resume ∧ (t.region n).flood = none ∧
      (t.region n).rect = g.rect ∧ (t.region n).ctrl = g.ctrl)

/-- FAULT_MESSAGE, arrived, of a core whose region executes and whose request is not over: the fault is logged with its core,
cause and address, the request ends, and the region is reset as REGION_RESET does (R119). EVT_MESSAGE: the oldest message
leaves its core; LOG and REFUSED are logged with code and value; a DONE counts its core once, and the last one that RGN's
request waits for ends it with SUCCESS (R118, R374). REQ_TIMEOUT of a request whose LIMIT has passed, its region in no
suspending state: the request ends with its status and the region is reset (R375). -/
def Obligations.MessagesAndTimeoutsEndRequests : Prop :=
  (∀ (s : State) (c : CoreId) (m : FaultMessage),
     let l := c.toNat
     let g := s.region m.region
     s.underWay .fault l 0 = false → s.nemar.faultMsgs.find? (fun m => m.core == l) = some m → m.past = false → g.state.executes = true →
     g.requestOver = false → s.host.state ≠ .halted → s.nemar.replacements = [] →
     ∃ t e, exec (.faultMessage c) s = .next t ∧
       (t.region m.region).state = .staged ∧ (t.region m.region).reqValid = false ∧
       (∀ j ∈ rectCores g.rect, (t.core j).running = false) ∧ m ∉ t.nemar.faultMsgs ∧
       e ∈ t.nemar.log ∧ e.code = rcFault ∧ e.seq = s.nemar.logNext ∧ e.srcId = BitVec.ofNat 32 l ∧ e.w0 = m.fault ∧
       e.w1 = BitVec.ofNat 64 m.slot) ∧
  (∀ (s : State) (c : CoreId) (r : Nat) (m : EvtMsg) (rest : List EvtMsg),
     let l := c.toNat
     let g := s.region r
     s.underWay .evt l 0 = false → s.regionOf l = some r → (s.core l).evts = m :: rest →
     ∃ t, exec (.evtMessage c) s = .next t ∧ (t.core l).evts = rest ∧ (∀ j, j ≠ l → t.core j = s.core j) ∧
       (m.kind ≠ 2 → s.host.state ≠ .halted → ∃ e ∈ t.nemar.log, e.seq = s.nemar.logNext ∧
         e.code = (if m.kind = 0 then rcEvtLog else rcEvtRefused) ∧ e.srcId = BitVec.ofNat 32 l ∧
         e.w0 = BitVec.ofNat 64 m.code.toNat ∧ e.w1 = m.value) ∧
       (m.kind = 2 → g.reqValid = true → g.doneCount ≤ (addNum g.done l).length →
         (t.region r).reqValid = false ∧ (t.region r).lastStatus = stSuccess) ∧
       (m.kind = 2 → g.reqValid = true → (addNum g.done l).length < g.doneCount →
         (t.region r).reqValid = true ∧ (t.region r).done = addNum g.done l ∧ t.nemar = s.nemar)) ∧
  (∀ (s : State) (r : RegionId),
     let n := r.toNat
     let g := s.region n
     g.reqValid = true → g.limitMs ≠ 0 → g.limitMs * 1000 ≤ g.reqUsec → g.state.suspends = false →
     s.nemar.replacements = [] →
     ∃ t, exec (.reqTimeout r) s = .next t ∧ (t.region n).reqValid = false ∧ (t.region n).lastStatus = stReqTimeout ∧
       (t.region n).lastTag = g.reqTag ∧ (t.region n).state = .staged ∧
       (g.state.enabled = true → ∀ l ∈ rectCores g.rect, (t.core l).running = false))

/-- FETCH_READ_RETURN, once the read's flits have come back over the mesh, and READ_DEADLINE_EXPIRE of the one run of a tile that
lies in pool or stacks: it fills its slot and its entries enter the fetch queue (R189, R195). A target that fails, and a
missed deadline, deliver the run wholly poisoned with bytes that nothing constrains, and are counted (R199, R200). With the
buffer's 16 entries full, an entry stands in the first line of the landing area, the one thing of memory that changes (R186;
that lines are taken from LBASE on is log 63). AG_WRITE_ENTRY of a WRITE generator with one run of up to 128 bytes to a tile
and 128-byte slots: the entry at the head of WQ leaves it, exactly the run's bytes are written at the run's address, and the
tile counts in TILES_DONE: at once where the run lies in the core's own slice, else when the write it sent over the mesh is
accepted (R189, R191, R212). A run to the host that ends in a host error, which a free value says (R348, log 139), writes
nothing and counts in ERRS (R199). That memory holds the bytes when the MU sends the write, not when the target accepts it,
is the model's choice (log 127). PACK_FRAME and UNPACK_FRAME (R236 to R240): a whole frame of the pack channel is written as
one run and counted, with the blocks whose scale is 0xFF; a run that the host ends with an error writes nothing and counts in
ERRS (R199, R348); the next returned frame of the unpack channel's tile is delivered as entries and counted, those that its
buffer has no room for standing in its landing area, where alone memory changes (R186). -/
def Obligations.RunsFramesAndWritesAreDelivered : Prop :=
  (∀ (s : State) (c : CoreId) (g : BitVec 2) (r : Run) (key : Nat),
     let l := c.toNat
     let n := g.toNat
     let k := s.core l
     let a := k.gen n
     let entries := fun (bs : List (Byte × Bool)) => (List.range (ceilDiv bs.length 128)).map (fun i =>
       entryOf ((bs.drop (128 * i)).take 128))
     let fills := fun (bs : List (Byte × Bool)) => entries (bs ++ List.replicate (a.slotBytes - r.len) (0, false))
     let free := (rangeFrom s.free r.len).map (fun i => (Config.freeByte i, true))
     let delivers := fun (o : Host.Outcome State Fault Refusal) (bs : List (Byte × Bool)) (errs late : Word) =>
       ∃ t, o = .next t ∧ ((t.core l).gen n).fq = a.fq ++ fills bs ∧ ((t.core l).gen n).tiles = [] ∧
         ((t.core l).gen n).errs = a.errs + errs ∧ ((t.core l).gen n).late = a.late + late ∧
         t.mem = s.mem ∧ ∀ j, j ≠ l → t.core j = s.core j
     a.tiles = [[r]] → r.got = none → a.emitted = 0 → a.skip = 0 → k.unpacks n = false → s.queuesMove l = true →
     s.whereIs r.addr = .mem key → 0 < r.len → r.addr % 0x200000 + r.len ≤ 0x200000 →
     s.arrived r.net = true → s.tiers.waits = [] → s.tiers.moves = [] → k.landless →
     (a.lsize = 0 ∨ a.fq.length + ceilDiv (Nat.max r.len a.slotBytes) 128 ≤ 16 →
       delivers (exec (.fetchReadReturn c g 0 .good) s) (s.readMem key r.len) 0 0 ∧
       delivers (exec (.fetchReadReturn c g 0 .targetFailed) s) free 1 0 ∧
       delivers (exec (.readDeadlineExpire c g 0) s) free 1 1) ∧
     (0 < a.lsize → a.fq.length = 16 → r.len ≤ 128 → a.slotBytes ≤ 128 →
       ∃ t e, exec (.fetchReadReturn c g 0 .good) s = .next t ∧ fills (s.readMem key r.len) = [e] ∧
         ((t.core l).gen n).fq = a.fq ++ [e] ∧ ((t.core l).gen n).landed = [a.lbase] ∧
         (∀ x, getByte t.mem x = if l * 0x400000 + 128 * a.lbase ≤ x ∧ x < l * 0x400000 + 128 * a.lbase + 128 then
           e.data.extractLsb' (8 * (x - (l * 0x400000 + 128 * a.lbase))) 8 else getByte s.mem x) ∧
         ∀ j, j ≠ l → t.core j = s.core j)) ∧
  (∀ (s : State) (c : CoreId) (g : BitVec 2) (p : Pass) (i key : Nat) (e : Entry) (k' : Core),
     let l := c.toNat
     let n := g.toNat
     let k := s.core l
     let a := k.gen n
     let at_ := a.runAddr p i 0 none
     let refused : Bool := inHostWindow key && bit (Config.freeByte s.free) 0
     let now : Bool := refused || decide (key / 0x400000 = l)
     a.next = some (p, i) → s.queuesMove l = true → k.landless → k.reached p.due = true → a.en = true → a.writes = true →
     a.indexed = false → (k.queue a.wq).ready k.phase = true → k.packs n = false → k.unpacks n = false →
     k.takeFrom a.wq = some (e, k') → a.wbytes = [] → a.wentries = 0 →
     a.slotBytes = 128 → 0 < a.run → a.run ≤ 128 → a.tileRuns p.cnt = 1 → k.fetchQ = [] →
     s.tileOpen l n a.tileSeq = false →
     s.whereIs at_ = .mem key → (key < 0x080000000000 ∨ inHostWindow key = true) → at_ % 0x200000 + a.run ≤ 0x200000 →
     ∃ t, exec (.agWriteEntry c g) s = .next t ∧
       (∀ x, getByte t.mem x = if refused = false ∧ key ≤ x ∧ x < key + a.run then
         e.data.extractLsb' (8 * (x - key)) 8 else getByte s.mem x) ∧
       (key < 0x080000000000 ∨ refused = true →
        ((t.core l).gen n).tilesDone = (if now then a.tilesDone + 1 else a.tilesDone) ∧
        ((t.core l).gen n).openTiles = (if now then a.openTiles else a.openTiles ++ [a.tileSeq])) ∧
       ((t.core l).gen n).wbytes = [] ∧
       ((t.core l).gen n).errs = (if refused then a.errs + 1 else a.errs) ∧
       (t.core l).queue a.wq = k'.queue a.wq ∧
       ∀ j, j ≠ l → t.core j = s.core j) ∧
  ((∀ (s : State) (c : CoreId) (p : Pass) (i key : Nat),
     let l := c.toNat
     let k := s.core l
     let n := k.pk.pGen
     let a := k.gen n
     let fe := if k.pk.pFp32 then 128 else 64
     let f := packFrame k.pk.pKind k.pk.pFp32 ((k.pk.packIn.take fe).flatMap (unpackEntry (if k.pk.pFp32 then 0xA else 0)))
     let at_ := a.runAddr p i 0 none
     let refused : Bool := inHostWindow key && bit (Config.freeByte s.free) 0
     a.cur = some (p, i) → s.queuesMove l = true → k.landless → k.pk.pEn = true → fe ≤ k.pk.packIn.length → a.indexed = false →
     a.wentries = fe → a.run = f.1.length → a.tileRuns p.cnt = 1 → k.fetchQ = [] →
     s.tileOpen l n a.tileSeq = false →
     s.whereIs at_ = .mem key → (key / 0x400000 = l ∨ inHostWindow key = true) → at_ % 0x200000 + a.run ≤ 0x200000 →
     ∃ t, exec (.packFrame c) s = .next t ∧ f.1.length = (if k.pk.pKind = 2 then 512 else 4224) ∧
       (∀ x, getByte t.mem x =
         if refused = false ∧ key ≤ x ∧ x < key + a.run then (f.1.getD (x - key) (0, false)).1 else getByte s.mem x) ∧
       (t.core l).pk.pframes = k.pk.pframes + 1 ∧ (t.core l).pk.nanblk = k.pk.nanblk + BitVec.ofNat 32 f.2 ∧
       (t.core l).pk.packIn = k.pk.packIn.drop fe ∧
       (key / 0x400000 = l ∨ refused = true → ((t.core l).gen n).tilesDone = a.tilesDone + 1) ∧
       ((t.core l).gen n).errs = (if refused then a.errs + 1 else a.errs) ∧
       ∀ j, j ≠ l → t.core j = s.core j) ∧
   (∀ (s : State) (c : CoreId) (r : Run) (rs : List Run) (ts : List (List Run)) (bs : List (Byte × Bool)),
     let l := c.toNat
     let k := s.core l
     let n := k.pk.uGen
     let a := k.gen n
     a.tiles = (r :: rs) :: ts → r.got = some bs → a.emitted = 0 → a.skip = 0 → s.queuesMove l = true →
     k.pk.uEn = true → k.landless →
     ∃ t, exec (.unpackFrame c) s = .next t ∧ (a.lsize = 0 → s.onlyCore t l) ∧ (∀ j, j ≠ l → t.core j = s.core j) ∧
       (∀ x, x < l * 0x400000 + 128 * a.lbase ∨ l * 0x400000 + 128 * (a.lbase + a.lsize) ≤ x →
         getByte t.mem x = getByte s.mem x) ∧
       ((t.core l).gen n).fq = a.fq ++ unpackFrame k.pk.uKind k.pk.uFp32 bs ∧
       (unpackFrame k.pk.uKind k.pk.uFp32 bs).length = (if k.pk.uFp32 then 128 else 64) ∧
       (t.core l).pk.uframes = k.pk.uframes + 1 ∧
       ((t.core l).gen n).tiles = (if rs = [] then ts else a.tiles)))

/-- DMA_DESCRIPTOR. OWN = 0 stops the chain with OWN_STOP. A descriptor with a cause moves nothing: word 7 says DONE, ERR and the
cause, then OWN is cleared, and the channel counts it. A COPY or FILL of one row of up to 128 bytes within the core's own
slice writes exactly its destination, and word 7 says DONE with LEN bytes (R203 to R206). That a source in another slice or a
stack is first asked for with nothing moved, and that the whole descriptor is then carried out in one step, is the model's
choice (log 35). POSTED_WRITE_REFUSED: PFAIL is set, and the channel's next CONFIRMED descriptor has an earlier refusal to
report (R207); without a POSTED descriptor since the last CONFIRMED one nothing changes. A piece of 128 bytes that may have
been refused is undefined: a free value says whether, and free values its bytes. -/
def Obligations.DmaDescriptorsAreCarriedOutAndReported : Prop :=
  (∀ (s : State) (c : CoreId) (ch : BitVec 1) (off due : Nat) (rest : List (Nat × Nat)),
     let l := c.toNat
     let n := ch.toNat
     let k := s.core l
     let d := k.chan n
     let a := l * 0x400000 + off
     let x := readDesc s.mem a
     d.chains = (off, due) :: rest → d.fab = none → k.reached due = true → s.queuesMove l = true → k.dmaQ = [] → s.tiers.moves = [] →
     off % 64 = 0 → off ≤ 0x3FFFC0 → (∀ j, j < 4 → marked s.marks (a + 16 * j) = false) →
     (x.own = false →
       exec (.dmaDescriptor c ch {}) s = .next (s.setCore l (k.setChan n
         { d with chains := rest, busy := false, ownStop := true, abandoned := false, fab := none,
                  desc := BitVec.ofNat 16 (off / 64) }))) ∧
     (x.own = true → d.prior = false → ∀ cause, s.descCause l x false = some cause →
       ∃ t, exec (.dmaDescriptor c ch {}) s = .next t ∧
         getWord t.mem (a + 56) = BitVec.ofNat 64 (2 ^ 63 + 2 ^ 62 + cause * 2 ^ 48) ∧
         getByte t.mem (a + 7) = getByte s.mem (a + 7) &&& 0x7F ∧
         (∀ y, y < a + 56 ∨ a + 64 ≤ y → y ≠ a + 7 → getByte t.mem y = getByte s.mem y) ∧
         ((t.core l).chan n).ndone = d.ndone + 1 ∧ ((t.core l).chan n).nbad = d.nbad + 1 ∧
         ((t.core l).chan n).chains = (if x.link then (x.next, 0) :: rest else rest) ∧
         (x.formatBad = true → cause = 5) ∧ (x.formatBad = false → 2 ≤ x.op → cause = 6)) ∧
     (x.own = true → d.prior = false → s.descCause l x false = none → x.rows = 1 → x.len ≤ 128 →
       s.readsOf l (4 + n) = [] → s.channelOut l n = false → ∀ dst,
       s.whereIs x.dst = .mem dst → dst / 0x400000 = l → x.dst % 0x200000 + x.len ≤ 0x200000 → (dst + x.len ≤ a ∨ a + 64 ≤ dst) →
       ∀ src, (x.op = 0 → s.whereIs x.src = .mem src ∧ src < 0x080000000000 ∧ x.src % 0x200000 + x.len ≤ 0x200000) →
       if x.op = 0 ∧ src / 0x400000 ≠ l then
         ∃ t f, exec (.dmaDescriptor c ch {}) s = .next t ∧ t.mem = s.mem ∧ t.marks = s.marks ∧
           ((t.core l).chan n).fab = some f ∧ f.close = none ∧ f.net ≠ [] ∧ s.mesh.flits.length < t.mesh.flits.length ∧
           ((t.core l).chan n).chains = d.chains ∧ ((t.core l).chan n).ndone = d.ndone
       else ∃ t, exec (.dmaDescriptor c ch {}) s = .next t ∧
         (∀ j, j < x.len → getByte t.mem (dst + j) =
           if x.op = 0 then getByte s.mem (src + j) else x.w6.extractLsb' (8 * (j % 8)) 8) ∧
         (∀ y, (y < dst ∨ dst + x.len ≤ y) → (y < a + 56 ∨ a + 64 ≤ y) → y ≠ a + 7 →
           getByte t.mem y = getByte s.mem y) ∧
         (getWord t.mem (a + 56)).toNat % 2 ^ 61 = x.len ∧ (getWord t.mem (a + 56)).toNat / 2 ^ 62 = 2 ∧
         getByte t.mem (a + 7) = getByte s.mem (a + 7) &&& 0x7F ∧
         ((t.core l).chan n).ndone = d.ndone + 1 ∧ ((t.core l).chan n).nbad = d.nbad ∧
         ((t.core l).chan n).chains = (if x.link then (x.next, 0) :: rest else rest))) ∧
  (∀ (s : State) (c : CoreId) (ch : BitVec 1),
     let l := c.toNat
     let n := ch.toNat
     let d := (s.core l).chan n
     (d.posted = [] → exec (.postedWriteRefused c ch) s = .next s) ∧
     (∀ (a len : Nat) (stride : Int), d.posted = [(a, 1, len, stride)] → 0 < len → len ≤ 128 →
       a % 0x200000 + len ≤ 0x200000 → a < 0x1000000000 → s.whereIs a = .mem a →
       ∃ t, exec (.postedWriteRefused c ch) s = .next t ∧ ((t.core l).chan n).pfail = true ∧
         ((t.core l).chan n).prior = true ∧ ((t.core l).chan n).ndone = d.ndone ∧
         (∀ j, j < len → getByte t.mem (a + j) =
           if bit (Config.freeByte s.free) 0 then Config.freeByte (s.free + 1 + j) else getByte s.mem (a + j)) ∧
         (∀ y, (y < a ∨ a + len ≤ y) → getByte t.mem y = getByte s.mem y) ∧
         ∀ j, j ≠ l → t.core j = s.core j))

/-! ## Tiers, mesh, barriers -/

/-- PT_MISS_WALK: an entry the MU holds stays as it is; one it does not hold is read from the table, cached in the place of the
oldest of 64, and counted. PT_INVALIDATE: once the one message about the page has come over the control net, the MU drops the
entry and has acknowledged; while it is under way nothing happens (R266, R302). MIG_EVAL without regions: with no page the
engine may move and nothing read, every HEAT is halved and nothing else changes but the bytes of BW carried on; with one page
below tier 1, unpromoted and without a hint, whose HEAT, with the bytes the MUs have read in units of 8 KiB, reaches PROMOTE,
and a page's bytes of BW to spend, that page's move to the lowest free frame of tier 1 begins, MOVING set and the frame out
of the pool (R264, R268, R274, R275; which frame is log 36's choice). PAGE_MOVE_COMPLETE of a promotion, its first
invalidation acknowledged, no MU holding the entry and no read of the old place outstanding. A copy within the module: every
byte of the page stands at its new place and no other byte changes; the entry names the new place, MOVING and DIRTY clear,
and the move is counted. From another node the page's lines are asked for first (R264). A destination that failed: the page
stays, MOVING is cleared, the frame returns and FAIL counts (R275, R276). -/
def Obligations.TranslationMigrationAndMovesWork : Prop :=
  (∀ (s : State) (c : CoreId) (p : PageId),
     let l := c.toNat
     let n := p.toNat
     let k := s.core l
     (s.available l = true → k.ptCache.any (fun x => x.1 == n) = true → exec (.ptMissWalk c p) s = .next s) ∧
     (s.available l = true → k.ptCache.any (fun x => x.1 == n) = false →
       exec (.ptMissWalk c p) s = .next (s.setCore l { k with
         ptCache := (if 64 ≤ k.ptCache.length then k.ptCache.drop 1 else k.ptCache) ++ [(n, (s.ptEntry n).w0)],
         ptMiss := k.ptMiss + 1 })) ∧
     (s.underWay .invalidate l n = true → exec (.ptInvalidate c p) s = .next s) ∧
     (∀ hs, (n, hs) ∈ s.tiers.inval → l ∈ hs → s.underWay .invalidate l n = false →
       (s.takeMessage .invalidate l n).message .invalidate l n = none → s.tiers.moves = [] → s.tiers.waits = [] →
       ∃ t, exec (.ptInvalidate c p) s = .next t ∧ s.tiers.pt = t.tiers.pt ∧
         (t.core l).ptCache = k.ptCache.filter (fun x => x.1 != n) ∧ (∀ j, j ≠ l → t.core j = s.core j) ∧
         (∀ x ∈ t.tiers.inval, x.1 = n → l ∉ x.2) ∧ (∀ x, x.1 ≠ n → (x ∈ t.tiers.inval ↔ x ∈ s.tiers.inval)))) ∧
  ((∀ (s : State) (heat : List (PageId × BitVec 16)), s.regions = [] → s.tiers.forSteep = [] → s.tiers.readBytes = [] → s.tiers.moves = [] →
     s.tiers.waits = [] → (∀ x ∈ s.tiers.pt, x.2.movable = false) →
     exec (.migEval heat) s = .next { s with tiers := { s.tiers with
       pt := s.tiers.pt.map (fun x => (x.1, { x.2 with heat := x.2.heat >>> 1 })),
       carry := s.tiers.moveBytes % 0x200000 } }) ∧
   (∀ (s : State) (heat : List (PageId × BitVec 16)) (p : PageId) (h : Nat) (e : PtEntry) (f : Nat) (fs : List Nat),
     let n := p.toNat
     let hot := Nat.min 65535 (e.heat.toNat + h / 8192)
     s.regions = [] → s.tiers.forSteep = [] → s.tiers.readBytes = [(n, h)] → s.tiers.waits = [] →
     s.tiers.pt = [(n, e)] → s.tiers.moves = [] → e.movable = true →
     e.promoted = false → e.hint = none → 2 ≤ locTier e.w0 → s.tiers.promoteAt ≤ hot → 0x200000 ≤ s.tiers.moveBytes →
     s.tiers.pool1 = f :: fs →
     ∃ t, exec (.migEval heat) s = .next t ∧
       t.tiers.moves = [{ page := n, src := Location.ofWord e.w0, dst := ⟨1, 0, BitVec.ofNat 27 f⟩, demotion := false,
                          against := false, steep := none }] ∧
       t.tiers.pt = [(n, { e with w0 := setFld e.w0 55 1 1, heat := BitVec.ofNat 16 (hot / 2) })] ∧
       t.tiers.pool1 = fs ∧ t.tiers.pool0 = s.tiers.pool0 ∧ t.mem = s.mem ∧ t.cores = s.cores)) ∧
  (∀ (s : State) (p : PageId) (m : Move) (e : PtEntry) (a b : Nat),
     let n := p.toNat
     s.tiers.moves = [m] → m.page = n → m.copied = false → m.demotion = false → m.dst ≠ m.src →
     s.tiers.inval = [] → s.tiers.waits = [] → s.holders n = [] → s.tiers.pt = [(n, e)] → bit e.w0 56 = false →
     m.dst.tier.toNat < 2 → s.readsOld m = false → m.lines = [] → m.asked = false → m.writing = false →
     s.readsOf n 6 = [] → s.writesOf n 6 = [] →
     (m.src.tier.toNat = 2 → ∃ t, exec (.pageMoveComplete p .copied) s = .next t ∧ t.mem = s.mem ∧
       t.tiers.pt = s.tiers.pt ∧ (∃ y, t.tiers.moves = [y] ∧ y.asked = true ∧ y.copied = false) ∧ t.cores = s.cores) ∧
     (m.src.tier.toNat ≠ 2 → s.placeOf m.src = .mem a → s.placeOf m.dst = .mem b →
       ∃ t, exec (.pageMoveComplete p .copied) s = .next t ∧
         (∀ j, j < 0x200000 → getByte t.mem (b + j) = getByte s.mem (a + j)) ∧
         (∀ x, (x < b ∨ b + 0x200000 ≤ x) → getByte t.mem x = getByte s.mem x) ∧
         t.tiers.pt = [(n, { e with w0 := m.dst.into (setFld (setFld e.w0 55 1 0) 54 1 0) })] ∧
         t.tiers.moves = [] ∧ t.tiers.movesDone = s.tiers.movesDone + 1 ∧ t.tiers.fail = s.tiers.fail ∧
         t.tiers.against = (if m.against then s.tiers.against + 1 else s.tiers.against)) ∧
     ((s.tiers.granted m.dst.tier.toNat).contains m.dst.frame.toNat = true →
       ∃ t, exec (.pageMoveComplete p .destinationFailed) s = .next t ∧ t.mem = s.mem ∧
         t.tiers.pt = [(n, { e with w0 := setFld e.w0 55 1 0 })] ∧ t.tiers.moves = [] ∧
         t.tiers.fail = s.tiers.fail + 1 ∧ t.tiers.movesDone = s.tiers.movesDone ∧
         m.dst.frame.toNat ∈ t.poolOf m.dst.tier.toNat))

/-- TIER_REPORT, the report's message having come over the control net: the region's counter of the status counts it, it is
logged with its core, status, page and source, and it ends the region's request with that status and resets the region; one
that concerns a request that has ended, or that finds the region IDLE, is counted and logged only (R280, R281); that it
counts both its kind and IDLE is log 86. While the region's only report is under way nothing happens. WATCH_TICK: a core of a
watched region that is starved of weights has waited one more tick, any other none. WDOG_EXPIRE: once the wait has lasted MS
milliseconds of 250 µs ticks, one TIER_TIMEOUT report of the region leaves, with the source that is empty (that it names page
0 and no core is log 87); before, nothing happens (R279, R280, R282). -/
def Obligations.TierReportsAndWatchdogEndRequests : Prop :=
  (∀ (s : State) (r : RegionId) (x : TierReport) (rest : List TierReport),
     let n := r.toNat
     let g := s.region n
     let w := fun (v : Option Nat) => match v with
       | some k => BitVec.ofNat 64 k
       | none => (BitVec.allOnes 64)
     let up := fun (b : Bool) (v : BitVec 16) => if b then (if v = 0xFFFF then v else v + 1) else v
     s.nemar.tierReports = x :: rest → x.region = n → s.host.state ≠ .halted → s.nemar.replacements = [] →
     (s.underWay .report x.sender n = true → rest = [] → exec (.tierReport r) s = .next s) ∧
     (s.underWay .report x.sender n = false → ∃ t, exec (.tierReport r) s = .next t ∧
       (∃ e ∈ t.nemar.log, e.seq = s.nemar.logNext ∧ e.code = rcTier ∧ e.srcId = BitVec.ofNat 32 n ∧ e.w0 = w x.core ∧
         e.w1 = BitVec.ofNat 64 x.status.toNat ∧ e.w2 = BitVec.ofNat 64 x.page ∧ e.w3 = w x.src) ∧
       (t.region n).tierTimeout = up (x.status == stTierTimeout) g.tierTimeout ∧
       (t.region n).tierPoison = up (x.status == stTierPoison) g.tierPoison ∧
       (t.region n).tierFail = up (x.status == stTierFail) g.tierFail ∧
       (t.region n).tierIdle = up (!g.reqValid) g.tierIdle ∧
       (g.reqValid = false ∨ x.past = true → (t.region n).state = g.state ∧ t.cores = s.cores ∧
         t.nemar.tierReports = rest) ∧
       (g.reqValid = true → x.past = false → (t.region n).reqValid = false ∧ (t.region n).lastStatus = x.status ∧
         (t.region n).state = .staged ∧ t.nemar.tierReports.length = rest.length ∧
         (∀ y ∈ t.nemar.tierReports, y.region = n → y.past = true) ∧
         (g.state.enabled = true → ∀ l ∈ rectCores g.rect, (t.core l).running = false)))) ∧
  ((∀ (s : State) (c : CoreId), ∃ t, exec .watchTick s = .next t ∧ { t with cores := s.cores } = s ∧
     let l := c.toNat
     let k := s.core l
     let watched := match s.regionOf l with
       | some r => (s.region r).watched
       | none => false
     (t.core l).starved = (watched && k.weightStarved) ∧
     (t.core l).starvedTicks = (if watched && k.weightStarved && k.starved then k.starvedTicks + 1 else 0) ∧
     { t.core l with starved := k.starved, starvedTicks := k.starvedTicks } = k) ∧
   (∀ (s : State) (c : CoreId) (r : Nat),
     let l := c.toNat
     let k := s.core l
     s.regionOf l = some r → (s.region r).watched = true → k.weightStarved = true → k.starved = true →
     ((s.region r).wdog.toNat * 1000 ≤ k.starvedTicks * 250 →
       exec (.wdogExpire c) s = .next (({ s.setCore l { k with starved := false, starvedTicks := 0 } with
         nemar := { s.nemar with tierReports := s.nemar.tierReports ++
           [⟨r, none, stTierTimeout, 0, k.starvedSource, if (s.region r).reqValid then some (s.region r).reqTag else none,
             !(s.region r).reqValid, l⟩] } } : State).tellNemar l .report r)) ∧
     (k.starvedTicks * 250 < (s.region r).wdog.toNat * 1000 → exec (.wdogExpire c) s = .next s)))

/-- FLIT_HOP: the router takes its table's port and lane 1 where bit 3 of the entry is set, else dimension order on the lane the
flit has, port 5 in place of 4 for one bound for an edge die (R293). A flit in the FIFO of an attachment point enters the
mesh behind the earlier ones there (R300); one that has to let another go first waits (R288, R303). Port 4, and port 5 at an
attachment point, take it off the mesh: an entry or a message of a core waits to be taken, a read request turns into its
return, a write is accepted (R290). Any other port moves it one router on, 5 beats later (2 in a control-net node), 2 more
across a die boundary. An entry, a read or its return whose retry fails there is lost, and its link marked (R35, R297). Shown
while no request of an edge die is on its way, whose end a FLIT_HOP brings too. ARB_REQUEST, ARB_RESOURCE_FREE and
ARB_WITHDRAW: a free resource is granted at once; else the request parks, or is refused and counted with eight parked. A
freed resource goes to the oldest parked request of the highest rank, a request passed over 2^AGE times ranking 3; a
withdrawn grant leaves one dead beat, counted. An arbiter or class the core lacks is a fault of the model's own. -/
def Obligations.FlitsHopAndArbitersServe : Prop :=
  (∀ (s : State) (n : Nat) (f : MeshFlit),
     let p := physAt f.px f.py
     let r := s.router p
     let d := r.choose f
     let later := if f.isCtl then 2 else 5
     let arr := s.mesh.nextArr + (if f.isCtl then 0 else if f.inp = 4 then 2 else 1)
     let alone := fun (t : State) => (∀ m, m ≠ n → find? t.mesh.flits m = find? s.mesh.flits m) ∧ t.mem = s.mem
     let off := (d.1 = 4 ∧ f.edge = false) ∨ (d.1 = 5 ∧ f.edge = true ∧ isAttachment p = true)
     find? s.mesh.flits n = some f → f.delivered = false → r.isolated = false → s.mesh.transits = [] →
     (r.table = [] → d = ((if f.usesY then (if f.py = f.dy then (if f.edge then 5 else 4) else if f.dy < f.py then 0 else 2)
       else if f.px = f.dx then (if f.edge then 5 else 4) else if f.px < f.dx then 1 else 3), f.lane)) ∧
     (∀ o, f.fifo = true → exec (.flitHop n o) s = .next
       (if s.mesh.flits.any (fun x => x.2.fifo && x.2.isCtl == f.isCtl && x.2.px == f.px && x.2.py == f.py && x.2.arr < f.arr)
        then s else s.setFlit n { f with fifo := false })) ∧
     (∀ o, f.fifo = false → s.yields n f = true → exec (.flitHop n o) s = .next s) ∧
     (∀ o, f.fifo = false → s.yields n f = false → off →
       (f.kind = .entry ∨ (∃ c k, f.kind = .ctl .evt c k ∨ f.kind = .ctl .fault c k ∨ f.kind = .ctl .report c k ∨
           f.kind = .ctl .invalidate c k ∨ f.kind = .ctl .staged c k ∨ f.kind = .ctl .scan c k ∨ f.kind = .ctl .arrive c k ∨
           f.kind = .ctl .release c k) →
         ∃ t, exec (.flitHop n o) s = .next t ∧ alone t ∧ t.cores = s.cores ∧
           find? t.mesh.flits n = some { f with delivered := true, lane := d.2, beats := f.beats + later }) ∧
       (∀ l u k, f.kind = .read l u k → f.edge = false → ∃ t g, exec (.flitHop n o) s = .next t ∧ alone t ∧
         t.cores = s.cores ∧ find? t.mesh.flits n = some g ∧ g.kind = .back l u k ∧ g.delivered = false ∧
         g.dx = physPX (s.physOf l) ∧ g.dy = physPY (s.physOf l)) ∧
       (∀ l u k m i j b, f.kind = .write l u k m i j b → ∃ t, exec (.flitHop n o) s = .next t ∧ alone t ∧
         find? t.mesh.flits n = none)) ∧
     (∀ x y, f.fifo = false → s.yields n f = false → d.1 < 4 → stepBy f.px f.py d.1 = some (x, y) →
       (s.router (physAt x y)).isolated = false → s.mesh.failedLinks.contains (p * 4 + d.1) = false →
       (∀ o, f.px / 34 = x / 34 → f.py / 32 = y / 32 → ∃ t, exec (.flitHop n o) s = .next t ∧ alone t ∧
         t.cores = s.cores ∧ find? t.mesh.flits n =
           some { f with px := x, py := y, lane := d.2, beats := f.beats + later, arr := arr, inp := inputFrom f.px f.py x y }) ∧
       ((f.px / 34 ≠ x / 34 ∨ f.py / 32 ≠ y / 32) →
         (∃ t, exec (.flitHop n .clean) s = .next t ∧ alone t ∧ t.cores = s.cores ∧ find? t.mesh.flits n =
           some { f with px := x, py := y, lane := d.2, beats := f.beats + later + 2, arr := arr, inp := inputFrom f.px f.py x y }) ∧
         ((f.kind = .entry ∧ s.carrierOf n = none ∨
             (∃ l u k, u < 4 ∧ (f.kind = .read l u k ∨ f.kind = .back l u k))) →
           ∃ t, exec (.flitHop n .codeErrorLasting) s = .next t ∧
             find? t.mesh.flits n = none ∧ p * 4 + d.1 ∈ t.mesh.failedLinks ∧
             (∀ m, m ≠ n → find? t.mesh.flits m = find? s.mesh.flits m) ∧ t.cores = s.cores)))) ∧
  (∀ (s : State) (c : CoreId) (a : BitVec 5) (k : BitVec 3),
     let l := c.toNat
     let n := a.toNat
     let m := s.core l
     let x := look m.arbs n {}
     let answer := fun (y : Arbiter) => Host.Outcome.next (s.setCore l { m with arbs := put m.arbs n y })
     let w := look m.arbActive n (arbPrioReset n)
     let rank := fun (q : Nat × Nat) =>
       if fld w 32 4 ≠ 15 ∧ 2 ^ fld w 32 4 ≤ q.2 then 3 else fld w (4 * q.1) 2
     (arbClasses n ≤ k.toNat → exec (.arbRequest c a k) s = .fault .noSuchUnit) ∧
     (22 < n → exec (.arbResourceFree c a) s = .fault .noSuchUnit ∧ exec (.arbWithdraw c a) s = .fault .noSuchUnit) ∧
     (k.toNat < arbClasses n → exec (.arbRequest c a k) s = answer
       (if x.granted = none ∧ x.parked = [] then { x with granted := some k.toNat }
        else if x.parked.length < 8 then
          { x with parked := x.parked ++ [(k.toNat, 0)], hwm := Nat.max x.hwm (x.parked.length + 1) }
        else { x with refuse := if x.refuse = 0xFFFF then 0xFFFF else x.refuse + 1 })) ∧
     (n ≤ 22 → exec (.arbWithdraw c a) s = answer (if x.granted = none then x
       else { x with granted := none, dead := if x.dead = 0xFFFF then 0xFFFF else x.dead + 1 })) ∧
     (n ≤ 22 → x.parked = [] → exec (.arbResourceFree c a) s = answer { x with granted := none }) ∧
     (n ≤ 22 → x.parked ≠ [] → ∃ i q, x.parked[i]? = some q ∧
       (∀ j y, x.parked[j]? = some y → rank y ≤ rank q ∧ (j < i → rank y < rank q)) ∧
       exec (.arbResourceFree c a) s = answer { x with
         granted := some q.1,
         parked := (x.parked.take i ++ x.parked.drop (i + 1)).map (fun y => (y.1, y.2 + 1)) }))

/-- REPLAN, EPOCH_FLIP and OLD_EMPTY (R295, R296). A plan whose trigger holds, that meets R296 and gives up no core goes into the
bank no epoch uses of every router not isolated: that bank then holds the plan's entries and no other, the active bank
staying as it is (that the plan is the command's operand is log 32); one that does not meet it is not committed; one that
finds another under way waits. A flip takes the new epoch and its bank, and each edge die's mapping follows (R301). Once
every live router has flipped and is empty of the old epoch, the routers planned around are isolated and the re-plan is over.
ROUTER_ISOLATION_TIMEOUT one millisecond into a re-plan around a failed router that still holds an old flit, every other live
router having flipped and being empty of the old epoch: the router is isolated and the flits inside are lost, the others
staying where they are; earlier nothing happens (R295, R297). -/
def Obligations.ReplansIsolateFailedRouters : Prop :=
  ((∀ (s : State) (p : RoutePlan), s.triggered p.trigger = true → p.unreachable = [] →
     (s.mesh.replan.isSome = true → exec (.replan p) s =
       .next { s with mesh := { s.mesh with waiting := s.mesh.waiting ++ [p] } }) ∧
     (s.mesh.replan = none → s.planMeets p = false → exec (.replan p) s = .next s) ∧
     (s.mesh.replan = none → s.planMeets p = true → ∃ t x, exec (.replan p) s = .next t ∧ t.mesh.replan = some x ∧
       x.trigger = p.trigger ∧
       x.startUsec = s.nemar.usec ∧ x.around = replanAround p.trigger ∧ t.cores = s.cores ∧ t.mem = s.mem ∧
       (∀ q, (s.router q).isolated = true → t.router q = s.router q) ∧
       (∀ q isY i, i < 256 → (t.router q).entry (b2n (s.router q).active) isY i =
         (s.router q).entry (b2n (s.router q).active) isY i) ∧
       (∀ q isY i, (s.router q).isolated = false → i < (if isY then 128 else 136) →
         (t.router q).entry (b2n (!(s.router q).active)) isY i =
           ((p.entries.reverse.find? (fun e => e.router.toNat = q ∧ e.isY = isY ∧ e.index.toNat = i)).map
             RouteEntry.entry).getD 0) ∧
       (∀ q, (t.router q).active = (s.router q).active ∧ (t.router q).epoch = (s.router q).epoch))) ∧
   (∀ (s : State) (p : RoutePlan), s.triggered p.trigger = false → exec (.replan p) s = .next s) ∧
   (∀ (s : State) (p : PhysId) (x : Replan),
     let r := s.router p.toNat
     let through := fun (q : Nat) => (s.router q).isolated = true ∨
       ((s.router q).oldEmpty = true ∧ (s.router q).epoch = x.epoch)
     p.toNat < 17408 → s.mesh.replan = some x → r.isolated = false →
     (r.epoch ≠ x.epoch → exec (.epochFlip p) s =
       .next (s.setRouter p.toNat { r with epoch := x.epoch, active := !r.active, oldEmpty := false }).remap) ∧
     (r.epoch = x.epoch → s.holdsEpoch p.toNat (!x.epoch) = true → exec (.oldEmpty p) s = .next s) ∧
     (r.epoch = x.epoch → s.holdsEpoch p.toNat (!x.epoch) = false →
       (∀ q, q < 17408 → q ≠ p.toNat → ¬ through q →
         exec (.oldEmpty p) s = .next (s.setRouter p.toNat { r with oldEmpty := true })) ∧
       ((∀ q, q < 17408 → q ≠ p.toNat → through q) → s.mesh.waiting = [] →
         ∃ t, exec (.oldEmpty p) s = .next t ∧ t.mesh.replan = none ∧
           (∀ q, x.trigger = .quadrantReturn q → (t.quad q.toNat).ebbed = false) ∧
           (∀ q, (t.router q).isolated = (decide (q ∈ x.around) || (s.router q).isolated)) ∧
           t.cores = s.cores ∧ t.mesh.flits = s.mesh.flits)))) ∧
  (∀ (s : State) (p : PhysId) (x : Replan),
     let through := fun (q : Nat) => (s.router q).isolated = true ∨
       ((s.router q).oldEmpty = true ∧ (s.router q).epoch = x.epoch)
     let place := fun (f : MeshFlit) => (f.px, f.py, f.dx, f.dy, f.delivered)
     p.toNat < 17408 → s.mesh.replan = some x → x.trigger = .routerFailed p → (s.router p.toNat).isolated = false →
     (s.router p.toNat).oldEmpty = false → s.mesh.waiting = [] → s.regions = [] →
     (x.startUsec + 1000 ≤ s.nemar.usec → (∀ q, q < 17408 → q ≠ p.toNat → through q) →
       ∃ t, exec (.routerIsolationTimeout p) s = .next t ∧ (t.router p.toNat).isolated = true ∧ t.mesh.replan = none ∧
         (∀ n f, find? t.mesh.flits n = some f → f.delivered = false → physAt f.px f.py ≠ p.toNat) ∧
         (∀ n, (∀ e ∈ s.mesh.flits, e.1 = n → e.2.delivered = true ∨ physAt e.2.px e.2.py ≠ p.toNat) →
           (find? t.mesh.flits n).map place = (find? s.mesh.flits n).map place)) ∧
     (s.nemar.usec < x.startUsec + 1000 → exec (.routerIsolationTimeout p) s = .next s) ∧
     (∀ q, q < 17408 → q ≠ p.toNat → ¬ through q → exec (.routerIsolationTimeout p) s = .next s))

/-- BARRIER_ARRIVAL and BARRIER_RELEASE at a region-scoped barrier, their message having come over the control net (R304 to
R306): the die's unit counts the arrival in its generation, and sends one on to the root, the unit of the die of the region's
lowest core, when the die's count is complete; the root releases the generation when every die of the region has arrived, its
own unit then sending a release to each core it has counted and one message to the unit of each other die; a release reaches
each core once and is counted. While the message is under way nothing happens. CTRL: a child's arrival at an enabled barrier
of the fabric tree joins its generation, a release from the parent releases it, and a failure clears EN (R331, R332); the
payload's layout is log 20's choice. -/
def Obligations.BarriersReleaseTheirParticipants : Prop :=
  (∀ (s : State) (c : CoreId) (b : BitVec 8) (r gen : Nat),
     let l := c.toNat
     let k := s.core l
     let key := r * 256 + b.toNat
     let x := s.barCount key gen
     let d := s.dieOf l
     let all := rectCores (s.region r).rect
     let whole := ∀ j ∈ all, s.dieOf j = d → j = l ∨ j ∈ x.cores
     b.toNat < 240 → r < 256 → s.regionOf l = some r →
     (s.underWay .arrive l b.toNat = true → exec (.barrierArrival c b) s = .next s) ∧
     (s.underWay .arrive l b.toNat = false → k.barOut = [⟨b, gen, false, none⟩] →
       ∃ t, exec (.barrierArrival c b) s = .next t ∧ s.onlyCore
         { t with nemar := { t.nemar with barCounts := s.nemar.barCounts }, mesh := s.mesh } l ∧
       (t.core l).barOut = [⟨b, gen, true, none⟩] ∧
       (let y := t.barCount key gen
        y.cores = addNum x.cores l ∧
        (¬ whole → y.dies = x.dies ∧ y.released = x.released ∧
          t.mesh.flits = (s.takeMessage .arrive l b.toNat).mesh.flits) ∧
        (whole → s.rootDie key = some d → y.dies = addNum x.dies d ∧
          (y.released = true ↔ x.released = true ∨ ∀ j ∈ all, s.dieOf j = d ∨ s.dieOf j ∈ x.dies)) ∧
        (whole → s.rootDie key = some d → (∀ j ∈ all, s.dieOf j = d ∨ s.dieOf j ∈ x.dies) → d ∈ y.down ∧
          ∀ j ∈ y.cores, (s.dieOf j = d ∨ s.dieOf j ∈ x.dies) → ∃ m f, find? t.mesh.flits m = some f ∧
            f.px = physPX (dieUnit d) ∧ f.py = physPY (dieUnit d) ∧
            (s.dieOf j = d → f.kind = .ctl .release j b.toNat ∧ f.dx = physPX (s.physOf j) ∧ f.dy = physPY (s.physOf j)) ∧
            (s.dieOf j ≠ d → (∃ h, f.kind = .ctl (.down gen) h key) ∧ f.dx = physPX (dieUnit (s.dieOf j)) ∧
              f.dy = physPY (dieUnit (s.dieOf j)))) ∧
        (whole → ∀ e, s.rootDie key = some e → e ≠ d → y.dies = x.dies ∧ y.released = x.released ∧
          ∃ f, find? t.mesh.flits s.mesh.nextFlit = some f ∧ f.kind = .ctl (.up gen) l key ∧
            f.px = physPX (dieUnit d) ∧ f.dx = physPX (dieUnit e))) ∧
       (∀ u g, (u, g) ≠ (key, gen) → t.barCount u g = s.barCount u g)) ∧
     (s.underWay .release l b.toNat = true → exec (.barrierRelease c b) s = .next s) ∧
     (s.underWay .release l b.toNat = false → k.barOut = [⟨b, gen, true, none⟩] → x.released = true → d ∈ x.down →
       ∃ t, exec (.barrierRelease c b) s = .next t ∧
       (t.core l).barOut = [] ∧ (t.core l).barRel = k.barRel + 1 ∧ (t.core l).barFail = k.barFail ∧
       l ∉ (t.barCount key gen).cores ∧ ∀ j, j ≠ l → t.core j = s.core j)) ∧
  (∀ (s : State) (p : ZPort) (f : Flit) (b : BitVec 4) (gen : BitVec 32),
     let x := s.zport p.toNat
     let m := s.modBar b.toNat
     let msg := fun (kind : Nat) => f.data = BitVec.ofNat 2048 (kind + (240 + b.toNat) * 256 + gen.toNat * 65536)
     x.isUp = true → f.seq = x.rxSeq → x.failedSeqs = [] → f.dst = s.fabric.node → m.en = true → m.onFabric = true →
     (msg 1 → (look m.childArr gen.toNat []).length + 1 < m.children →
       ∃ t, exec (.ctrl p f) s = .next t ∧ t.modBar b.toNat = { m with
         childArr := put m.childArr gen.toNat (addNum (look m.childArr gen.toNat []) f.src.toNat),
         kids := addNum m.kids f.src.toNat } ∧ t.cores = s.cores) ∧
     (msg 2 → (s.barCount (65536 + 240 + b.toNat) gen.toNat).cores ≠ [] →
       ∃ t, exec (.ctrl p f) s = .next t ∧ (t.barCount (65536 + 240 + b.toNat) gen.toNat).released = true ∧
         (t.modBar b.toNat).gen = m.gen + 1 ∧ t.cores = s.cores) ∧
     (msg 3 → gen = 0 → ∃ t, exec (.ctrl p f) s = .next t ∧ (t.modBar b.toNat).en = false ∧
       (t.modBar b.toNat).childArr = [] ∧ t.mem = s.mem))

/-! ## Rates, power, faults -/

/-- RATE_SENSOR_COMPARE, THERMAL_LOOP_EVAL and TWORK_RAISE: a quadrant whose rail is up takes its measured rate; throttling
begins above T_work, which it lowers down to TLO, and ends at or below it; ten seconds without throttling raise T_work by a
degree up to THI (R38, R55). RATE_LOOP_EVAL with one rail up and its rate above RMIN: a rail under a safety limit holds; one
above VMAX comes to VMAX, one whose quadrant is above T_work or RMAX, or any at the bound on input power, falls by 5 mV, not
below 550; one whose next 5 mV leave its rate within RMAX rises by 5 mV or to VMAX; any other holds (R53 to R55, R59; the
step above RMAX and of a rise is the model's, log 115, and so is the calibrated rise that it weighs, log 141). With RMIN not
met above T_work, and with RMIN given up for the bound on input power, POLICY_CONFLICT is set and logged once. -/
def Obligations.RatesFollowThrottlingAndRails : Prop :=
  (∀ (s : State) (q : QuadId) (rate : BitVec 8),
     let n := q.toNat
     let x := s.quad n
     s.plant.powerGood = true → s.liveQuad n = true →
     exec (.rateSensorCompare q rate) s = .next (s.setQuad n { x with rate := rate.toNat }) ∧
     (∃ t, exec .thermalLoopEval s = .next t ∧
       t.quad n = (if x.throttled = false ∧ (100 * x.twork : Nat) < x.hot then
           { x with throttled := true, twork := if x.tlo < x.twork then x.twork - 1 else x.twork, calmUsec := 0 }
         else if x.throttled = true ∧ x.hot ≤ (100 * x.twork : Nat) then { x with throttled := false, calmUsec := 0 }
         else x) ∧
       (∀ m, s.liveQuad m = false → t.quad m = s.quad m) ∧ { t with plant := s.plant } = s) ∧
     (x.throttled = false → 10000000 ≤ x.calmUsec → exec (.tworkRaise q) s =
       .next (s.setQuad n { x with twork := if x.twork < x.thi then x.twork + 1 else x.twork, calmUsec := 0 })) ∧
     (x.throttled = true ∨ x.calmUsec < 10000000 → exec (.tworkRaise q) s = .next s)) ∧
  (∀ (s : State) (n : Nat),
     let x := s.quad n
     let hotter := (100 * x.twork : Nat) < x.hot
     let drop := fun (v : Nat) => if v ≤ 550 then v else Nat.max 550 (v - 5)
     let v := Nat.min (if s.capped = true ∧ ¬ (hotter ∨ x.rmax < x.rate) then drop x.vrail else x.vrail) x.vmax
     let rise := (s.setQuad n { x with vrail := v }).nextRise n
     s.plant.powerGood = true → s.liveQuads = [n] → s.rails = [n] → x.effRmax = 100 → s.plant.inputLimit = false →
     x.vrail ≤ 845 →
     (x.rmin < x.rate → ∃ t, exec .rateLoopEval s = .next t ∧ { t with plant := s.plant } = s ∧
       { t.quad n with vrail := x.vrail, conflict := x.conflict, conflictQuiet := x.conflictQuiet } = x ∧
       (t.quad n).vrail =
         (if x.safetyTemp = true ∨ x.safetyCur = true then x.vrail
          else if hotter ∨ x.rmax < x.rate then drop v
          else if s.capped = false ∧ x.rate < x.rmax ∧ 10 * x.rate + rise ≤ 10 * x.rmax then v + Nat.min 5 (x.vmax - v)
          else v) ∧
       (9 ≤ x.conflictQuiet → (t.quad n).conflict = false)) ∧
     (x.rate < x.rmin → hotter → x.safetyTemp = false → x.safetyCur = false → s.capped = false →
       x.conflict = false → s.host.state ≠ .halted →
       ∃ t, exec .rateLoopEval s = .next t ∧ (t.quad n).conflict = true ∧
         ∃ e ∈ t.nemar.log, e.seq = s.nemar.logNext ∧ e.code = rcPolicyConflict ∧ e.w0 = 1 ∧ e.w1 = BitVec.ofNat 64 n ∧
           e.w2 = 1 ∧ e.w3 = 6) ∧
     (x.rate ≤ x.rmin → ¬ hotter → x.rate ≤ x.rmax → x.safetyTemp = false → x.safetyCur = false → s.capped = true →
       x.conflict = false → 550 < x.vrail → s.host.state ≠ .halted →
       ∃ t, exec .rateLoopEval s = .next t ∧ (t.quad n).conflict = true ∧ (t.quad n).vrail = v ∧
         ∃ e ∈ t.nemar.log, e.seq = s.nemar.logNext ∧ e.code = rcPolicyConflict ∧ e.w0 = 0 ∧ e.w1 = BitVec.ofNat 64 n ∧
           e.w2 = 1 ∧ e.w3 = BitVec.ofNat 64 s.powerBound.2))

/-- SENSOR_SAMPLE with one rail up and readings of its quadrant: the temperature limit acts from 105.00 °C until 100.00 °C, the
current limit at 950 A, less with fewer than 24 phases; the rail falls by 100 mV or 10 mV, not below 550 mV; from 700 A of
input on, the effective RMAX falls by 1 %; a stack runs at half rate above 95 °C until 90 °C and has failed above 105 °C.
STACK_OVERHEAT and COOLANT_ALARM take their readings alike (R56, R457 to R459). USEC_TICK with the reference running and no
pour or re-shard in hand: MOD_USEC counts on, a request not suspended has run one µs more, and the minutes count every
60,000,000; HEARTBEAT_TICK counts once firmware runs (R49, R362, R375). -/
def Obligations.SamplesAndTicksKeepTheLimits : Prop :=
  ((∀ (s : State) (r : SensorReadings) (m : QuadSample),
     let n := m.q.toNat
     let x := s.quad n
     s.plant.powerGood = true → s.liveQuads = [n] → s.rails = [n] → r.quads = [m] → r.dram = [] → x.vrail ≤ 850 →
     ∃ t, exec (.sensorSample r) s = .next t ∧ { t with plant := s.plant } = s ∧
       let y := t.quad n
       y.irail = m.irail ∧ y.temps = #v[s.calibrated n 0 m.t0, s.calibrated n 1 m.t1, s.calibrated n 2 m.t2,
         s.calibrated n 3 m.t3] ∧
       (y.safetyTemp = true ↔ (10500 ≤ y.hot ∨ (x.safetyTemp = true ∧ 10000 < y.hot))) ∧
       (y.safetyCur = true ↔ Nat.min 950 (40 * x.phases) ≤ m.irail.toNat) ∧
       y.vrail = (if x.vrail ≤ 550 then x.vrail else if y.safetyTemp then Nat.max 550 (x.vrail - 100)
         else if y.safetyCur then Nat.max 550 (x.vrail - 10) else x.vrail) ∧
       y.effRmax = (if 7000 ≤ r.iin.toNat then x.effRmax - 1 else x.effRmax) ∧
       t.plant.pin = r.pin ∧ t.plant.iin = r.iin ∧ t.plant.vin = r.vin ∧ t.plant.cool = r.cool) ∧
   (∀ (s : State) (k : StackId) (temp : BitVec 16),
     let x := look s.plant.dram k.toNat ({} : Stack)
     let y := { x with temp := temp, hot := decide (9500 < temp.toInt) || (x.hot && decide (9000 < temp.toInt)),
                       failed := x.failed || decide (10500 < temp.toInt) }
     s.plant.powerGood = true → stackExists s.grade k.toNat = true →
     exec (.stackOverheat k temp) s = .next { s with plant := { s.plant with dram := put s.plant.dram k.toNat y } }) ∧
   (∀ (s : State) (r : CoolReadings), s.plant.powerGood = true →
     ∃ t, exec (.coolantAlarm r) s = .next t ∧ { t with plant := s.plant } = s ∧ t.plant.cool = r ∧
       { t.plant with cool := s.plant.cool, dieAlarm := s.plant.dieAlarm, pwrAlarm := s.plant.pwrAlarm } = s.plant ∧
       (t.plant.dieAlarm = true ↔ (r.dieIn.toNat < 20 ∨ 40 < r.dieIn.toNat ∨ 55 < r.dieOut.toNat)) ∧
       (t.plant.pwrAlarm = true ↔ (r.pwrIn.toNat < 20 ∨ 45 < r.pwrIn.toNat ∨ 60 < r.pwrOut.toNat)))) ∧
  (∀ (s : State),
     (s.plant.powerGood = true → s.plant.edgeLost[0] = false → s.fabric.contribs = [] → s.fabric.asking = [] →
       s.fabric.pourWait = [] → (∀ e ∈ s.fabric.pours, e.2.part = false) → s.fabric.reshard = none →
       ∃ t, exec .usecTick s = .next t ∧ t.nemar = { s.nemar with usec := s.nemar.usec + 1 } ∧
         (∀ r, let g := s.region r
           t.region r = { g with reqUsec := if g.reqValid ∧ g.state ≠ .stopping ∧ g.state ≠ .scanning ∧
             g.state ≠ .saved ∧ g.state ≠ .flooding then g.reqUsec + 1 else g.reqUsec }) ∧
         t.store = { s.store with minutes :=
           if (s.nemar.usec + 1) % 60000000 = 0 then s.store.minutes + 1 else s.store.minutes } ∧
         { t with nemar := s.nemar, regions := s.regions, store := s.store, plant := s.plant } = s) ∧
     (s.plant.powerGood = false ∨ s.plant.edgeLost[0] = true → exec .usecTick s = .next s) ∧
     (s.plant.powerGood = true → 2 ≤ s.plant.bootStep → s.host.state ≠ .halted →
       exec .heartbeatTick s = .next { s with host := { s.host with heartbeat := s.host.heartbeat + 1 } }))

/-- PROBE, PROBE_RETRY and SELF_CHECK_REPORT. A probe of a core with power notes its answer; an answer to the retry makes the
miss a TRANSIENT record; none loses the core, with cause PROBE or ROUTER. A lost core is fenced and stands in the fault map,
and a CORE_LOST record names it; its RUNNING region, without a request or command and with AUTO = 0, is LOST (R390, R393 to
R395). The router of a spare, or of a core fenced before, goes into the fault map; an error of a core's own storage is
recorded and, where it lasts, counted against the core that has it; a self-test that a spare passes when run again is a
TRANSIENT record. That these reports come as variants of one command is logs 68 and 114. HART_WATCHDOG_EXPIRE: a hart that
runs is restarted and a TRANSIENT error logged and counted; a second miss within a second fences it with a LASTING one; with
the last primary hart the module is HALTED, its enabled regions' cores stop, and ALERT is held while the deputy on ES lives
(R404). -/
def Obligations.SilentCoresAndHartsAreFenced : Prop :=
  (∀ (s : State) (c : CoreId),
     let l := c.toNat
     let k := s.core l
     let p := s.physOf l
     let lost := fun (t : State) (cause : Word) =>
       p % 34 ∈ (t.row (p / 1088) (p % 1088 / 34)).faults ∧ p ∈ t.nemar.fencedNow ∧ (t.router p).pass = true ∧
       t.nemar.lasting = (if s.nemar.lasting = 0xFFFF then 0xFFFF else s.nemar.lasting + 1) ∧
       ∃ e ∈ t.nemar.log, e.code = stCoreLost ∧ e.w0 = BitVec.ofNat 64 l ∧ e.w1 = BitVec.ofNat 64 p ∧ e.w2 = cause
     let record := fun (t : State) (code : Code) (kind : Nat) => ∃ e ∈ t.nemar.log, e.seq = s.nemar.logNext ∧ e.code = code ∧
       e.w0 = BitVec.ofNat 64 kind
     let lasting := if s.nemar.lasting = 0xFFFF then 0xFFFF else s.nemar.lasting + 1
     let kind := fun (u : CoreSram) => match u with
       | .cache => 5
       | .vreg => 6
       | .acc => 7
       | .imem => 8
     s.plant.powerGood = true → s.host.state ≠ .halted → s.logOf p = some l → s.reef l = false →
     (∀ r, s.regionOf l = some r → s.corePowered l = true →
       (∀ a, exec (.probe c a) s = .next (s.setCore l { k with probeMissed := !a })) ∧
       (k.probeMissed = true →
         (∀ w, ∃ t, exec (.probeRetry c true w) s = .next t ∧ t.core l = { k with probeMissed := false } ∧
           t.regions = s.regions ∧ ∃ e ∈ t.nemar.log, e.seq = s.nemar.logNext ∧ e.code = rcTransient ∧ e.w0 = 0x0C) ∧
         (let g := s.region r;
           g.state = .running → g.reqValid = false → g.enabling = none → g.load = none → g.drain = none →
           g.flood = none → s.nemar.auto = false →
           ∀ w, ∃ t, exec (.probeRetry c false w) s = .next t ∧ lost t (if w then 1 else 4) ∧
             (t.region r).state = .lost ∧ l ∈ (t.region r).void))) ∧
     (s.regionOf l = none → s.available l = true → ∀ x ∈ [(SelfCheck.selfCheck, 2), (.ringStopped, 3), (.routerFailed, 4)],
       ∃ t, exec (.selfCheckReport c x.1) s = .next t ∧ lost t x.2 ∧ t.regions = s.regions) ∧
     (∀ q : PhysId, q.toNat < 17408 → s.logOf q.toNat = none →
       q.toNat % 34 ∉ (look s.plant.rows (rowOf q.toNat) ({} : Row)).routers →
       ∃ t, exec (.selfCheckReport c (.routerOf q)) s = .next t ∧ record t rcLasting 0x0E ∧ t.nemar.lasting = lasting ∧
         q.toNat % 34 ∈ (look t.plant.rows (rowOf q.toNat) ({} : Row)).routers ∧
         q.toNat % 34 ∈ (look t.plant.rows (rowOf q.toNat) ({} : Row)).faults ∧ t.cores = s.cores ∧ t.regions = s.regions) ∧
     (s.selfChecks l = true → ∀ u loc b, ∃ t, exec (.selfCheckReport c (.storage u loc b)) s = .next t ∧
       record t (if b then rcLasting else rcTransient) (kind u) ∧ t.regions = s.regions ∧ t.mem = s.mem ∧
       (∀ j, j ≠ l → t.core j = s.core j) ∧
       (b = true → t.nemar.lasting = lasting ∧ kind u * 2 ^ 32 + loc ∈ look t.nemar.sram p []) ∧
       (b = false → t.cores = s.cores ∧ t.nemar.sram = s.nemar.sram)) ∧
     (s.testsSpare p = true → ∃ t, exec (.selfCheckReport c .spareRetried) s = .next t ∧ record t rcTransient 0x0B ∧
       t.cores = s.cores ∧ t.plant = s.plant) ∧
     (s.testsSpare p = false → exec (.selfCheckReport c .spareRetried) s = .next s)) ∧
  (∀ (s : State) (h : Hart),
     let i := hartIndex h
     let record := fun (t : State) (code : Code) => ∃ e ∈ t.nemar.log, e.seq = s.nemar.logNext ∧ e.code = code ∧ e.srcKind = 4 ∧
       e.w0 = 0x0F ∧ e.w1 = BitVec.ofNat 64 i
     (s.hartRuns i = false → exec (.hartWatchdogExpire h) s = .next s) ∧
     (s.plant.powerGood = true → s.host.state ≠ .halted → s.hartRuns i = true →
     ((∀ u, s.nemar.harts[i]? = some (.restarted u) → u + 1000000 ≤ s.nemar.usec) →
       ∃ t, exec (.hartWatchdogExpire h) s = .next t ∧ t.nemar.harts[i]? = some (.restarted s.nemar.usec) ∧
         record t rcTransient ∧
         t.nemar.transient = (if s.nemar.transient = 0xFFFFFFFF then 0xFFFFFFFF else s.nemar.transient + 1) ∧
         t.host.state = s.host.state ∧ t.cores = s.cores) ∧
     (∀ u, s.nemar.harts[i]? = some (.restarted u) → s.nemar.usec < u + 1000000 →
       ∃ t, exec (.hartWatchdogExpire h) s = .next t ∧ t.nemar.harts[i]? = some .fenced ∧ record t rcLasting ∧
         t.nemar.lasting = (if s.nemar.lasting = 0xFFFF then 0xFFFF else s.nemar.lasting + 1) ∧
         ((∀ j, j < 4 → j = i ∨ s.hartFenced j = true) → i < 4 →
           t.host.state = .halted ∧ t.plant.alertHalt = s.hartRuns 5 ∧
           ∀ e ∈ s.regions, e.2.state.enabled = true → ∀ l ∈ rectCores (s.region e.1).rect,
             (t.core l).stopping = true) ∧
         ((∃ j, j < 4 ∧ j ≠ i ∧ s.hartFenced j = false) → t.host.state = s.host.state ∧ t.cores = s.cores))))

/-- WEAK_CORE_FENCE and PENDING_FAULT_COMMIT, where no enabled region holds a core that the fence moves and the store has room:
the fault is in the fault map and in force; with a third fault the row is out instead; a LASTING record names the weak core
and counts no new error (R16, R18, R19, R390; that it names the core and counts none is log 150). THERMAL_EBB, EBB_POWER_OFF
and QUADRANT_RETURN. A quadrant past its limits with no region in it begins to ebb and a CORE_LOST record says so; once ready
its rail is off and the routers of its stack ports stay, passing; after one second at or below 70 °C it is powered again, at
the calibrated point of 1.60 Gbeat/s where no rail beside it is up (R401 to R403, R421, R453; the temperature of that point
is log 141), and counts as ebbed until the re-plan that follows is over. -/
def Obligations.FaultMapsAndThermalEbbsTakeEffect : Prop :=
  ((∀ (s : State) (c : CoreId),
     let l := c.toNat
     let p := s.physOf l
     let w := s.row (coreDie l) (coreRow l)
     let v := fun (t : State) => t.row (coreDie l) (coreRow l)
     s.plant.powerGood = true → s.host.state ≠ .halted → s.store.roomy → s.store.faultOwed (rowOf p) = false →
     p ∈ s.nemar.weak → s.available l = true → s.regions = [] → s.logOf p = some l →
     p / 1088 = coreDie l → p % 1088 / 34 = coreRow l →
     ∃ t, exec (.weakCoreFence c) s = .next t ∧ p % 34 ∈ (v t).faults ∧ p ∈ t.nemar.fencedNow ∧ p ∉ t.nemar.weak ∧
       t.nemar.lasting = s.nemar.lasting ∧ (∃ e ∈ t.nemar.log, e.seq = s.nemar.logNext ∧ e.code = rcLasting ∧
         e.srcKind = 0 ∧ e.srcId = BitVec.ofNat 32 l) ∧
       ((addNum w.faults (p % 34)).length ≤ 2 → p % 34 ∈ (v t).inForce ∧ (v t).rowOut = w.rowOut) ∧
       (2 < (addNum w.faults (p % 34)).length → (v t).rowOut = true ∧ (v t).inForceOut = true)) ∧
   (∀ (s : State) (d : DieId) (row : BitVec 5) (f : Nat),
     let k := d.toNat * 32 + row.toNat
     let w := look s.plant.rows k ({} : Row)
     w.inForceOut = false → w.faults.filter (fun c => !w.inForce.contains c) = [f] → f < 34 → w.faults.length ≤ 2 →
     s.regions = [] → d.toNat < 16 → s.plant.powerGood = true → s.host.state ≠ .halted → s.store.faultOwed k = false →
     ∃ t, exec (.pendingFaultCommit d row) s = .next t ∧
       (look t.plant.rows k ({} : Row)).inForce = addNum w.inForce f ∧
       (look t.plant.rows k ({} : Row)).faults = w.faults)) ∧
  (∀ (s : State) (q : QuadId),
     let n := q.toNat
     let x := s.quad n
     (s.liveQuad n = true → x.ebbing = false → x.ebbs = true → s.host.state ≠ .halted → s.regionsIn n = [] →
       ∃ t, exec (.thermalEbb q) s = .next t ∧
         t.quad n = { x with ebbing := true, ebbUsec := s.nemar.usec } ∧ t.cores = s.cores ∧ t.regions = s.regions ∧
         ∃ e ∈ t.nemar.log, e.seq = s.nemar.logNext ∧ e.code = stCoreLost ∧ e.w1 = BitVec.ofNat 64 n ∧ e.w2 = 7) ∧
     (x.ebbing = true → s.ebbReady n = true → s.regionsIn n = [] → s.mesh.replan = none →
       (∀ e ∈ s.mesh.flits, e.2.delivered = true ∨ physQuad (physAt e.2.px e.2.py) ≠ n) →
       ∃ t, exec (.ebbPowerOff q) s = .next t ∧ (t.quad n).ebbed = true ∧ (t.quad n).ebbing = false ∧
         (t.quad n).powered = false ∧ (t.quad n).vrail = 0 ∧
         (∀ p, p < 17408 → physQuad p = n → keptRouter n p = true → (t.router p).pass = true) ∧
         (∀ p, p < 17408 → physQuad p = n → keptRouter n p = false → (t.router p).isolated = true)) ∧
     (x.ebbed = true → x.powered = false → s.plant.powerGood = true → s.host.state ≠ .halted → 1000000 ≤ x.coolUsec →
       18 ≤ x.phases → s.liveQuads = [] → s.rails = [] →
       ∃ t, exec (.quadrantReturn q { failed := [] }) s = .next t ∧ (t.quad n).ebbed = true ∧ (t.quad n).powered = true ∧
         (t.quad n).vrail = s.calRail n 1600 ∧ (t.quad n).twork = x.thi ∧ t.cores = s.cores ∧
         (∀ p, physQuad p ≠ n → t.router p = s.router p)))

/-- UNDERVOLTAGE_STOP, OVERVOLTAGE_STOP and the thirteenth brick: the module is without power; no core, region or register set
keeps anything, pool and stacks are empty, and the journal and the firmware slots stay. A brick or a phase that a retry
brings back is one transient error; one that it does not counts as lost (R449, R451 to R453; that no record of it is logged
is log 46). EDGE_PHASE_FAIL, the third phase of an edge die: the die is lost. Without EN every primary hart is fenced and the
module HALTED; of another die the deputy is fenced; its ports are DOWN (R404, R454). -/
def Obligations.PowerAndEdgeFailuresStopTheirParts : Prop :=
  (∀ (s : State),
     let off := fun (o : Host.Outcome State Fault Refusal) => ∃ t, o = .next t ∧ t.plant.powerGood = false ∧
       t.plant.bootStep = 0 ∧ t.cores = [] ∧ t.regions = [] ∧
       t.nemar = { harts := Vector.replicate 7 .off } ∧ t.host = {} ∧ t.fabric = {} ∧ t.tiers = {} ∧
       t.mesh = {} ∧ (∀ a, a < 0x100000000000 → getByte t.mem a = 0) ∧
       (∀ a, 0x100000000000 ≤ a → getByte t.mem a = getByte s.mem a) ∧ t.store.journal = s.store.journal ∧
       t.store.slots = s.store.slots ∧ t.pending = s.pending
     let transient := { s with
       nemar := { s.nemar with transient := if s.nemar.transient = 0xFFFFFFFF then 0xFFFFFFFF else s.nemar.transient + 1 },
       store := { s.store with lifeTransient := s.store.lifeTransient + 1 } }
     let lasting := if s.nemar.lasting = 0xFFFF then 0xFFFF else s.nemar.lasting + 1
     s.plant.powerGood = true →
     off (exec .undervoltageStop s) ∧ off (exec .overvoltageStop s) ∧
     exec (.brickFail true) s = .next transient ∧
     (12 ≤ s.plant.bricksFailed → off (exec (.brickFail false) s)) ∧
     (s.plant.bricksFailed < 12 → ∃ t, exec (.brickFail false) s = .next t ∧
       t.plant = { s.plant with bricksFailed := s.plant.bricksFailed + 1 } ∧ t.nemar.lasting = lasting ∧
       t.cores = s.cores) ∧
     (∀ q : QuadId, quadExists s.grade q.toNat = true → exec (.phaseFail q true) s = .next transient ∧
       (18 < (s.quad q.toNat).phases → ∃ t, exec (.phaseFail q false) s = .next t ∧
         t.quad q.toNat = { s.quad q.toNat with phases := (s.quad q.toNat).phases - 1 } ∧ t.nemar.lasting = lasting ∧
         t.cores = s.cores)) ∧
     (∀ e : BitVec 2, exec (.edgePhaseFail e true) s = .next transient ∧
       ((s.plant.edgePhases[e.toNat]?).getD 0 < 2 → ∃ t, exec (.edgePhaseFail e false) s = .next t ∧
         t.plant = { s.plant with edgePhases :=
           s.plant.edgePhases.setIfInBounds e.toNat ((s.plant.edgePhases[e.toNat]?).getD 0 + 1) } ∧
         t.nemar.lasting = lasting ∧ t.cores = s.cores)) ∧
     (∀ k : StackId, stackExists s.grade k.toNat = true →
       let x := look s.plant.dram k.toNat ({} : Stack)
       let with_ := fun (y : Stack) => { s with plant := { s.plant with dram := put s.plant.dram k.toNat y } }
       exec (.stackFailure k .port) s = .next (with_ { x with failed := true }) ∧
       exec (.stackFailure k .bothPhases) s = .next (with_ { x with phaseLost := true, failed := true }) ∧
       exec (.stackFailure k .onePhase) s = .next (with_ { x with phaseLost := true, failed := x.failed || x.phaseLost }))) ∧
  (∀ (s : State) (e : BitVec 2),
     s.plant.powerGood = true → (s.plant.edgePhases[e.toNat]?).getD 0 = 2 → s.host.state ≠ .halted →
     (∀ p, p / 8 = e.toNat → (s.zport p).state = .down) → s.fabric.fabricCmd = none →
     ∃ t, exec (.edgePhaseFail e false) s = .next t ∧ t.plant.edgeLost[e.toNat]? = some true ∧
       (∀ p, p < 32 → p / 8 = e.toNat → (t.zport p).state = .down) ∧
       (e = 0 → t.host.state = .halted ∧ ∀ i, i < 4 → t.hartFenced i = true) ∧
       (e ≠ 0 → t.hartFenced (3 + e.toNat) = true ∧ t.host.state = s.host.state) ∧
       (e.toNat % 2 = 0 → cxlExists s.grade (e.toNat / 2) = true →
         (t.cxl (e.toNat / 2)).up = false))

/-! ## The Zoinnath fabric and the pour -/

/-- READ, RESP, WRITE, WACK, ERR, POUR, PCREDIT, PNAK and CTRL: a port that is not UP takes nothing; a flit whose SEQ is not the
one expected changes nothing (R321) but that one taken before is acknowledged again (log 94). LCREDIT, LACK, LNAK and
FLIT_CRC_ERROR at a port that is UP: buffers of the far end are added, and a waiting flit leaves with the next SEQ while
credit and the replay buffer of 256 allow; the flits up to the one acknowledged leave the replay buffer; the first failure of
a SEQ is named or noted, the second of the same SEQ is lasting: the port holds its traffic and trains, counted and logged
(R320, R321, R328). That an LNAK changes the noted SEQs alone, the replay buffer standing, is log 94. -/
def Obligations.FlitSequencesAndReplayBuffersAreKept : Prop :=
  (∀ (s : State) (p : ZPort) (f : Flit) (i : Instr),
     let x := s.zport p.toNat
     i ∈ [.read p f, .resp p f, .write p f, .wack p f, .err p f, .pour p f, .pcredit p f, .pnak p f, .ctrl p f] →
     (x.isUp = false → exec i s = .next s) ∧
     (x.isUp = true → f.seq ≠ x.rxSeq → 256 < (x.rxSeq - f.seq).toNat → exec i s = .next s) ∧
     (x.isUp = true → f.seq ≠ x.rxSeq → (x.rxSeq - f.seq).toNat ≤ 256 → exec i s = .next (s.setZport p.toNat
       { x with sentLink := x.sentLink ++ [(kindLack, BitVec.ofNat 32 (x.rxSeq - 1).toNat)] })) ∧
     (x.isUp = true → f.seq = x.rxSeq → x.failedSeqs = [] → f.dst ≠ s.fabric.node → exec i s = .next (s.setZport p.toNat
       { x with rxSeq := x.rxSeq + 1, sentLink := x.sentLink ++
         [(kindLack, BitVec.ofNat 32 x.rxSeq.toNat), (kindLcredit, 1)] }))) ∧
  (∀ (s : State) (p : ZPort) (f : Flit) (seq : BitVec 12),
     let n := p.toNat
     let x := s.zport n
     let q := f.aux.extractLsb' 0 12
     let more := f.aux.toNat % 65536
     let retrains := fun (o : Host.Outcome State Fault Refusal) => ∃ t, o = .next t ∧ (t.zport n).state = .training ∧
       (t.zport n).held = true ∧ (t.zport n).replay = x.replay ∧ (t.zport n).tx = x.tx ∧
       (t.zport n).lasting = (if x.lasting = 0xFFFF then 0xFFFF else x.lasting + 1) ∧
       ∃ e ∈ t.nemar.log, e.code = rcPortState ∧ e.srcId = BitVec.ofNat 32 n
     x.isUp = true → s.host.state ≠ .halted →
     exec (.lcredit p f) s = .next (s.setZport n ({ x with credits := x.credits + more } : ZPortState).pump) ∧
     (x.tx = [] → exec (.lcredit p f) s = .next (s.setZport n { x with credits := x.credits + more })) ∧
     (∀ k, x.tx = [k] → x.held = false → 0 < x.credits + more → x.replay.length < 256 → exec (.lcredit p f) s =
       .next (s.setZport n { x with credits := x.credits + more - 1, tx := [], txSeq := x.txSeq + 1,
                                    replay := x.replay ++ [{ k with f := { k.f with seq := x.txSeq } }] })) ∧
     (s.fabric.contribs = [] →
       (∀ a k b, x.replay = a ++ k :: b → k.f.seq = q → (∀ y ∈ a, y.f.seq ≠ q) → exec (.lack p f) s =
         .next (s.setZport n ({ x with replay := b, nakSeqs := x.nakSeqs.filter (fun m => b.any (fun y => y.f.seq.toNat == m))
           } : ZPortState).pump)) ∧
       ((∀ y ∈ x.replay, y.f.seq ≠ q) → exec (.lack p f) s = .next (s.setZport n x))) ∧
     ((∀ y ∈ x.replay, y.f.seq ≠ q) → exec (.lnak p f) s = .next s) ∧
     ((∃ y ∈ x.replay, y.f.seq = q) →
       (q.toNat ∉ x.nakSeqs → exec (.lnak p f) s = .next (s.setZport n { x with nakSeqs := addNum x.nakSeqs q.toNat })) ∧
       (q.toNat ∈ x.nakSeqs → retrains (exec (.lnak p f) s))) ∧
     (seq.toNat ∉ x.failedSeqs → exec (.flitCrcError p seq) s = .next (s.setZport n { x with
       failedSeqs := addNum x.failedSeqs seq.toNat,
       sentLink := x.sentLink ++ [(kindLnak, BitVec.ofNat 32 seq.toNat)] })) ∧
     (seq.toNat ∈ x.failedSeqs → retrains (exec (.flitCrcError p seq) s)))

/-- READ and WRITE for this node, of one line: its port takes and acknowledges the flit. A line of pool or stacks is first asked
for over the mesh: one flit enters the FIFO of the attachment point that the edge die's map gives the line (R290, R301), and
the FLIT_HOP that brings the last of them ends the request. An answer with the flit's TAG and ADDR then waits at, or has left
by, the port its node's route gives: RESP with the line's bytes, WACK once exactly the line is written, ERR with cause 1
where the line is absent and 2 where its target, or its path (log 127), fails (R320, R321, R325, R327). RESP, WACK and ERR
for this node end the read or write of their TAG: RESP brings the line's bytes where the fetch will read them; the last WACK
of a tile counts it; ERR fails a read, and counts a write in its generator (R195, R199, R212, R328). -/
def Obligations.ReadsWritesAndAnswersCompleteTransfers : Prop :=
  (∀ (s : State) (p : ZPort) (f : Flit) (o : Nat),
     let x := s.zport p.toNat
     let answered := fun (t : State) (kind : BitVec 4) (more : Flit → Prop) =>
       ∃ k ∈ (t.zport o).tx ++ (t.zport o).replay, k.kind = kind ∧ k.f.tag = f.tag ∧ k.f.addr = f.addr ∧
         k.f.dst = f.src ∧ k.f.src = s.fabric.node ∧ more k.f
     let took := fun (t : State) => (t.zport p.toNat).rxSeq = x.rxSeq + 1 ∧ (t.zport p.toNat).sentLink =
       x.sentLink ++ [(kindLack, BitVec.ofNat 32 x.rxSeq.toNat), (kindLcredit, 1)]
     let reads := fun (o : Host.Outcome State Fault Refusal) (key : Nat) (at_ : State → Prop) => ∃ t, o = .next t ∧ at_ t ∧
       t.mem = s.mem ∧ answered t kindResp (fun g => ∀ j, j < 128 → g.data.extractLsb' (8 * j) 8 = getByte s.mem (key + j))
     let writes := fun (o : Host.Outcome State Fault Refusal) (key : Nat) (at_ : State → Prop) => ∃ t, o = .next t ∧ at_ t ∧
       answered t kindWack (fun _ => True) ∧
         ∀ a, getByte t.mem a = if key ≤ a ∧ a < key + 128 then f.data.extractLsb' (8 * (a - key)) 8 else getByte s.mem a
     let rows := [(Instr.read p f, false, TransitReq.read f), (.write p f, true, .write f)]
     let e := p.toNat / 8
     bit f.aux 0 = false → s.portFor f.src.toNat (f.addr.toNat % routeCount (s.route f.src.toNat)) = some o → o < 32 →
     (s.zport o).mode ≠ 1 →
     (x.isUp = true → f.seq = x.rxSeq → x.failedSeqs = [] → f.dst = s.fabric.node →
       (∀ key, s.whereIs (f.addr.toNat * 128) = .mem key → s.whereIs (f.addr.toNat * 128 + 127) = .mem (key + 127) →
         key % 128 = 0 →
         (s.edgeTarget key = none → reads (exec (.read p f) s) key took ∧ writes (exec (.write p f) s) key took) ∧
         (∀ q, s.edgeTarget key = some q → ∀ r ∈ rows,
           (∀ j, (s.mesh.maps[e]?.getD {}).point (key / 128) = some j → ∃ t g, exec r.1 s = .next t ∧ took t ∧ t.mem = s.mem ∧
             t.mesh.transits = s.mesh.transits ++ [⟨e, r.2.2, [s.mesh.nextFlit]⟩] ∧
             find? t.mesh.flits s.mesh.nextFlit = some g ∧ g.kind = .edgeReq e key r.2.1 ∧ g.fifo = true ∧
             (g.px, g.py) = edgePoint e j ∧ g.dx = physPX q ∧ g.dy = physPY q) ∧
           ((s.mesh.maps[e]?.getD {}).point (key / 128) = none →
             ∃ t, exec r.1 s = .next t ∧ took t ∧ t.mem = s.mem ∧ answered t kindErr (fun g => g.aux = 2)))) ∧
       (∀ r ∈ rows,
         (s.whereIs (f.addr.toNat * 128) = .absent → s.whereIs (f.addr.toNat * 128 + 127) = .absent →
           ∃ t, exec r.1 s = .next t ∧ took t ∧ t.mem = s.mem ∧ answered t kindErr (fun g => g.aux = 1)) ∧
         (s.whereIs (f.addr.toNat * 128) = .failed →
           ∃ t, exec r.1 s = .next t ∧ took t ∧ t.mem = s.mem ∧ answered t kindErr (fun g => g.aux = 2)))) ∧
     (∀ (n : Nat) (g : MeshFlit) (key : Nat),
       let r := s.router (physAt g.px g.py)
       let past := fun (t : State) => t.mesh.transits = [] ∧ find? t.mesh.flits n = none ∧ t.cores = s.cores
       find? s.mesh.flits n = some g → g.delivered = false → g.fifo = false → r.isolated = false → s.yields n g = false →
       s.whereIs (f.addr.toNat * 128) = .mem key → s.whereIs (f.addr.toNat * 128 + 127) = .mem (key + 127) → key % 128 = 0 →
       (s.mesh.transits = [⟨e, .read f, [n]⟩] → g.kind = .edgeBack e key → (r.choose g).1 = 5 → g.edge = true →
         isAttachment (physAt g.px g.py) = true → reads (exec (.flitHop n .clean) s) key past) ∧
       (s.mesh.transits = [⟨e, .write f, [n]⟩] → g.kind = .edgeReq e key true → (r.choose g).1 = 4 → g.edge = false →
         writes (exec (.flitHop n .clean) s) key past))) ∧
  (∀ (s : State) (p : ZPort) (f : Flit),
     let x := s.zport p.toNat
     let readIs := s.fabric.reads.find? (fun r => r.tag == f.tag && r.node == f.src && !r.failed)
     let writeIs := s.fabric.writes.find? (fun w => w.tag == f.tag && w.node == f.src && !w.failed)
     let alone := ({ s with fabric := { s.fabric with writes := [] } } : State)
     x.isUp = true → f.seq = x.rxSeq → x.failedSeqs = [] → f.dst = s.fabric.node →
     (∀ r, readIs = some r →
       let key := 2 ^ 60 + r.node.toNat * 2 ^ 48 + 128 * r.line
       128 * r.line < 2 ^ 48 →
       (∃ t, exec (.resp p f) s = .next t ∧ t.fabric.reads = s.fabric.reads.filter (fun y => y != r) ∧
         t.cores = s.cores ∧ ∀ a, getByte t.mem a =
           if key ≤ a ∧ a < key + 128 then f.data.extractLsb' (8 * (a - key)) 8 else getByte s.mem a) ∧
       (∃ t, exec (.err p f) s = .next t ∧ t.mem = s.mem ∧ t.cores = s.cores ∧ t.fabric.writes = s.fabric.writes ∧
         t.fabric.reads = s.fabric.reads.map (fun y => if y = r then { y with failed := true } else y))) ∧
     (∀ w, writeIs = some w → readIs = none → s.fabric.writes = [w] →
       let a := (s.core w.core).gen w.gen
       a.openTiles = [w.tile] → w.gen < 4 → w.counted = false → alone.tileOpen w.core w.gen w.tile = false →
       (∃ t, exec (.wack p f) s = .next t ∧ t.fabric.writes = [] ∧ t.mem = s.mem ∧
         ((t.core w.core).gen w.gen).tilesDone = a.tilesDone + 1 ∧ ((t.core w.core).gen w.gen).openTiles = [] ∧
         ((t.core w.core).gen w.gen).errs = a.errs) ∧
       (∃ t, exec (.err p f) s = .next t ∧ t.fabric.writes = [] ∧ t.mem = s.mem ∧
         ((t.core w.core).gen w.gen).errs = a.errs + 1)))

/-- ZL_PORT_UP and PORT_RETRAIN. Training ends UP on eight lanes or on one whole half; in MISMATCH where the far end names
another node or port; DOWN without a half (here with no traffic to lose). A retrain counts, and keeps every flit of a port
that comes up: those sent stand in the replay buffer as before (R321, R323, R326). That a port coming up grants 64 buffers is
log 93. EQ_LOOP_EVAL: a lane of a port that is UP takes its deviation; past MAXDEV it returns to the preset and
POLICY_CONFLICT is set, logged once; the tenth evaluation in a row within MAXDEV clears it (R54, R59, R322).
FABRIC_TRAINING_TIMEOUT: 500 ms after its commit FABRIC_SET succeeds with the ports that are UP (R376). -/
def Obligations.PortsTrainAndEqualise : Prop :=
  (∀ (s : State) (p : ZPort) (t' : PortTraining),
     let n := p.toNat
     let x := s.zport n
     let lanes := fun (l : BitVec 8) => if l = 0xFF then some (ZState.up8, (0xFF : BitVec 8))
       else if l.extractLsb' 0 4 = 0xF then some (.up4, 0x0F) else if l.extractLsb' 4 4 = 0xF then some (.up4, 0xF0) else none
     let nothing := x.replay = [] ∧ x.tx = [] ∧ s.fabric.reads = [] ∧ s.fabric.writes = [] ∧ s.fabric.contribs = [] ∧
       s.nemar.bars = [] ∧ s.fabric.reshard = none
     x.state = .training → s.fabric.fabricCmd = none →
     (x.held = false → s.fabric.owed = [] → ∀ st l, lanes t'.lanesGood = some (st, l) →
       t'.node.toNat = x.farNode → t'.rport.toNat = x.farPort →
         ∃ t, exec (.zlPortUp p t') s = .next t ∧ (t.zport n).state = st ∧ (t.zport n).lanes = l ∧
           (t.zport n).sentLink = x.sentLink ++ [(kindLcredit, 64)] ∧
           (x.mode = 1 → x.ident1 = 0 → (t.zport n).ident0 = t'.ident0 ∧ (t.zport n).ident1 = t'.ident1)) ∧
     (x.held = false → nothing → lanes t'.lanesGood ≠ none → t'.node.toNat ≠ x.farNode ∨ t'.rport.toNat ≠ x.farPort →
         ∃ t, exec (.zlPortUp p t') s = .next t ∧ (t.zport n).state = .mismatch ∧ (t.zport n).lanes = 0) ∧
     (∀ st l, x.held = true → lanes t'.lanesGood = some (st, l) →
       ∃ t, exec (.portRetrain p t'.lanesGood) s = .next t ∧ (t.zport n).state = st ∧ (t.zport n).lanes = l ∧
         (t.zport n).held = false ∧ (t.zport n).replay.take x.replay.length = x.replay ∧
         (t.zport n).replay.length + (t.zport n).tx.length = x.replay.length + x.tx.length ∧
         (t.zport n).failedSeqs = [] ∧ (t.zport n).nakSeqs = [] ∧
         (t.zport n).retrain = (if x.retrain = 0xFFFF then 0xFFFF else x.retrain + 1)) ∧
     (lanes t'.lanesGood = none → nothing →
       ∀ i, (i = .zlPortUp p t' ∧ x.held = false) ∨ (i = .portRetrain p t'.lanesGood ∧ x.held = true) →
       ∃ t, exec i s = .next t ∧ (t.zport n).state = .down ∧ (t.zport n).credits = 0 ∧ (t.zport n).held = false)) ∧
  ((∀ (s : State) (p : ZPort) (lane : BitVec 3) (dev : BitVec 8),
     let n := p.toNat
     let k := lane.toNat
     let x := s.zport n
     let maxDev := fld (s.fabric.eqBounds[n / 8]?.getD 0) 12 4
     x.isUp = true → bit x.lanes k = true →
     (dev.toNat ≤ maxDev → ∃ t, exec (.eqLoopEval p lane dev) s = .next t ∧ look (t.zport n).dev k 0 = dev.toNat ∧
       look (t.zport n).eqQuiet k 0 = Nat.min 10 (look x.eqQuiet k 0 + 1) ∧
       (k ∈ (t.zport n).conflict ↔ (k ∈ x.conflict ∧ look x.eqQuiet k 0 < 9)) ∧ t.nemar = s.nemar ∧
       ∀ j, j ≠ k → look (t.zport n).dev j 0 = look x.dev j 0) ∧
     (maxDev < dev.toNat → ∃ t, exec (.eqLoopEval p lane dev) s = .next t ∧ look (t.zport n).dev k 0 = 0 ∧
       k ∈ (t.zport n).conflict ∧ (k ∈ x.conflict → t.nemar = s.nemar) ∧
       (k ∉ x.conflict → s.host.state ≠ .halted → ∃ e ∈ t.nemar.log, e.seq = s.nemar.logNext ∧
         e.code = rcPolicyConflict ∧ e.w0 = 3 ∧ e.w1 = BitVec.ofNat 64 (8 * n + k)))) ∧
   (∀ (s : State) (k : CmdRef) (u : Nat), s.fabric.fabricCmd = some (k, u) →
     (s.nemar.usec < u + 500000 → exec .fabricTrainingTimeout s = .next s) ∧
     (u + 500000 ≤ s.nemar.usec → exec .fabricTrainingTimeout s =
       .next (({ s with fabric := { s.fabric with fabricCmd := none } } : State).succeed k s.upMask 0))))

/-- POUR, PCREDIT and PNAK, with no contribution of this module's own but one named, and no line of another slot in hand. A line
of the round in hand whose slot has no fold part, its reducer's four being taken, waits, and the slot asks; else it is stored
until the NCONTRIB-th comes; then the fold of them by κ is written at DST plus the line and, the round being whole, counted;
a line that is not of a folded slot is refused, counted and answered (R228, R336). A window granted opens; a PNAK fails the
contribution with CORE_POUR_STAT.FAIL (R336, R338). That a line is taken before its credit, and that one without a part is
kept at the reducer while the slot asks, is log 40. POUR_TIMEOUT of a round in hand whose DONE_CORE is in no enabled region,
no other slot having lines in hand: the slot's STATE is 2, its lines are dropped, FAILS counts, DONE_CORE has FAIL and a
POUR_FAIL record says so; before TIMEOUT milliseconds nothing happens (R338). Every other node that has contributed is told
with a PNAK (log 89). -/
def Obligations.PoursFoldOrFailTheirRounds : Prop :=
  (∀ (s : State) (p : ZPort) (f : Flit),
     let x := s.zport p.toNat
     let k := f.tag.toNat % 1024
     let odd := f.tag.getLsbD 10
     let kappa := f.aux.toNat % 4096
     let w := f.data.extractLsb' 0 1024
     let q := s.pourSlot k
     let n := reducers s.grade
     let taken := (s.fabric.pours.filter (fun e => e.2.part && e.1 % n == k % n)).length
     x.isUp = true → f.seq = x.rxSeq → x.failedSeqs = [] → f.dst = s.fabric.node → s.reducerLost k = false →
     s.fabric.asking = [] → s.fabric.pourWait = [] → (∀ e ∈ s.fabric.pours, e.1 ≠ k → e.2.have_ = []) →
     (s.fabric.contribs = [] → f.aux.getLsbD 12 = false → f.addr = 0 → q.folds = true → q.state ≠ 2 →
       kappa < q.ncontrib → 0 < q.lines → q.epoch = (f.aux.extractLsb' 16 16).toNat → odd = (q.rnd % 2 == 1) →
       q.written = [] → q.out = [] → s.resultWrites k 0 = [] →
       (q.part = false → 4 ≤ taken → q.have_ = [] → ∃ t, exec (.pour p f) s = .next t ∧ t.fabric.pourWait = [f] ∧
         t.fabric.asking = [k] ∧ t.pourSlot k = q ∧ (t.zport p.toNat).rxSeq = x.rxSeq + 1 ∧ t.mem = s.mem ∧
         t.cores = s.cores) ∧
       (q.part = true ∨ taken < 4 → q.have_ = [] → 2 ≤ q.ncontrib → ∃ t, exec (.pour p f) s = .next t ∧
         (t.pourSlot k).have_ = [(kappa, w)] ∧ (t.pourSlot k).part = true ∧
         (t.pourSlot k).state = 1 ∧ (t.pourSlot k).startUsec = some (q.startUsec.getD s.nemar.usec) ∧ t.mem = s.mem ∧
         t.cores = s.cores) ∧
       (∀ kappa' w' dst, q.part = true ∨ taken < 4 → q.have_ = [(kappa', w')] → kappa' ≠ kappa → kappa' < 4096 →
         q.ncontrib = 2 → q.lines = 1 →
         q.dst % 128 = 0 → q.dst / 2 ^ 48 = s.fabric.node.toNat → s.whereIs (q.dst % 2 ^ 48) = .mem dst →
         ∃ t, exec (.pour p f) s = .next t ∧
           (let v := foldLine (if kappa' < kappa then [w', w] else [w, w']);
            ∀ a, getByte t.mem a = if dst ≤ a ∧ a < dst + 128 then v.extractLsb' (8 * (a - dst)) 8 else getByte s.mem a) ∧
           (t.pourSlot k).state = 0 ∧ (t.pourSlot k).rounds = q.rounds + 1 ∧ (t.pourSlot k).rnd = q.rnd + 1 ∧
           (t.pourSlot k).part = false ∧
           (t.core q.doneCore).pourDone = (s.core q.doneCore).pourDone + 1)) ∧
     (s.fabric.contribs = [] → f.aux.getLsbD 12 = false → q.folds = false → q.have_ = [] →
       ∃ t, exec (.pour p f) s = .next t ∧ t.mem = s.mem ∧ t.cores = s.cores ∧
         (t.pourSlot k).refused = (if q.refused = 0xFFFFFFFF then q.refused else q.refused + 1) ∧
         ∀ o, s.portFor f.src.toNat (f.addr.toNat % routeCount (s.route f.src.toNat)) = some o → o < 32 →
           (s.zport o).mode ≠ 1 →
           ∃ y ∈ (t.zport o).tx ++ (t.zport o).replay, y.kind = kindPnak ∧ y.f.tag = f.tag ∧ y.f.aux = 3) ∧
     (s.fabric.contribs = [] → q.have_ = [] → odd = (q.cround % 2 == 1) → ∃ t, exec (.pcredit p f) s = .next t ∧
       t.pourSlot k = { q with cwin := Nat.max q.cwin (f.aux.toNat + 1) } ∧ t.cores = s.cores ∧ t.mem = s.mem) ∧
     (∀ y : Contribution, s.fabric.contribs = [y] → y.slot = k → odd = (y.round % 2 == 1) → s.host.state ≠ .halted →
       ∃ t, exec (.pnak p f) s = .next t ∧ t.fabric.contribs = [] ∧ (t.core y.core).pourFail = true ∧
         ∃ e ∈ t.nemar.log, e.seq = s.nemar.logNext ∧ e.code = rcPourFail ∧ e.w0 = BitVec.ofNat 64 k ∧
           e.w1 = BitVec.ofNat 64 y.kappa)) ∧
  (∀ (s : State) (k : PourSlot) (u : Nat),
     let n := k.toNat
     let q := s.pourSlot n
     q.startUsec = some u → q.state = 1 → s.fabric.contribs = [] → s.regionOf q.doneCore = none →
     s.host.state ≠ .halted →
     (s.nemar.usec < u + 1000 * q.timeout → exec (.pourTimeout k) s = .next s) ∧
     (u + 1000 * q.timeout ≤ s.nemar.usec → s.fabric.asking = [] → s.fabric.pourWait = [] →
       (∀ e ∈ s.fabric.pours, e.1 ≠ n → e.2.have_ = []) →
       ∃ t, exec (.pourTimeout k) s = .next t ∧ (t.pourSlot n).state = 2 ∧
       (t.pourSlot n).have_ = [] ∧ (t.pourSlot n).startUsec = none ∧ (t.pourSlot n).part = false ∧
       (t.pourSlot n).fails = (if q.fails = 0xFFFFFFFF then q.fails else q.fails + 1) ∧
       (t.core q.doneCore).pourFail = true ∧ ∃ e ∈ t.nemar.log, e.seq = s.nemar.logNext ∧ e.code = rcPourFail ∧
         e.w0 = BitVec.ofNat 64 n ∧ e.w2 = 0x5001 ∧
       ∀ m ∈ q.nodes, m ≠ s.fabric.node.toNat → ∀ o, s.portFor m 0 = some o → o < 32 → (s.zport o).mode ≠ 1 →
         ∃ y ∈ (t.zport o).tx ++ (t.zport o).replay, y.kind = kindPnak ∧ y.f.tag = pourTag n q.rnd ∧ y.f.aux = 3))

/-- DRAINED, COPY, COMMIT, ABANDON and RESHARD_DRAIN_TIMEOUT: the coordinator notes a report of draining and, with the last one,
starts the copies; one that comes before this module's own RESHARD is kept for it; COPY starts the copies; COMMIT of a copied
table makes the new layout epoch active, disables the slots of the old one and completes RESHARD; an abandoned one, and a
drain past its limit, complete it with RESHARD_BUSY and leave the layout (R341, R342). SHARD_COPY_COMPLETE. An entry of the
re-shard table is copied byte for byte with the others to come; its failure, and the refusal of a line that it has written to
another node, end the re-shard with RESHARD_FAIL, the layout epoch standing; the one shard of a checkpoint copy in RESTORE
whose bytes have its entry's digest completes the command, and another digest is DIGEST_MISMATCH; a shard whose mover is to
serve another copy first changes nothing (R341, R342, R378, R408, R409). -/
def Obligations.ReshardsAndMoversCopyTheirShards : Prop :=
  ((∀ (s : State) (n : NodeId), s.fabric.reshard = none →
     exec (.drained n) s = .next { s with fabric := { s.fabric with
       early := s.fabric.early ++ [(n.toNat, (s.fabric.layout + 1).toNat)] } } ∧
     exec .copy s = .next s ∧ exec .commit s = .next s ∧ exec .abandon s = .next s ∧
     exec .reshardDrainTimeout s = .next s) ∧
   ∀ (s : State) (x : Reshard) (n : NodeId),
     s.fabric.reshard = some x →
     (s.coordinates = true → x.copying = false →
       ((∃ m ∈ s.participants, m ≠ n.toNat ∧ m ∉ x.drained) → exec (.drained n) s = .next { s with fabric := { s.fabric with
         reshard := some { x with drained := addNum x.drained n.toNat } } }) ∧
       (s.peerNodes = [] → n = s.fabric.node →
         exec (.drained n) s = .next { s with fabric := { s.fabric with
           reshard := some { x with drained := addNum x.drained n.toNat, copying := true } } })) ∧
     (s.coordinates = false → exec (.drained n) s = .next s) ∧
     (x.reported = true → exec .copy s = .next { s with fabric := { s.fabric with
       reshard := some { x with copying := true } } }) ∧
     (x.copying = true → x.table.length ≤ x.copied.length → s.host.state ≠ .halted → ∃ t, exec .commit s = .next t ∧
       t.fabric.reshard = none ∧ t.fabric.layout = x.epoch ∧
       (∀ c, t.command x.ref = some c → c.ended = true) ∧
       (∀ k, ((s.pourSlot k).epoch = s.fabric.layout.toNat → bit (t.pourSlot k).w0 63 = false) ∧
         ((s.pourSlot k).epoch ≠ s.fabric.layout.toNat → t.pourSlot k = s.pourSlot k))) ∧
     (x.copying = false → exec .abandon s = .next
       ((({ s with fabric := { s.fabric with reshard := none } } : State).dropFar ownReshard (fun _ => true)).finish x.ref
         stReshardBusy 0 0)) ∧
     (x.copying = false → s.coordinates = true → s.peerNodes = [] → x.startUsec + 1000 * x.drainMs ≤ s.nemar.usec →
       exec .reshardDrainTimeout s = .next
         ((({ s with fabric := { s.fabric with reshard := none } } : State).dropFar ownReshard (fun _ => true)).finish x.ref
           stReshardBusy 0 0))) ∧
  ((∀ (s : State) (x : Reshard) (i : BitVec 12) (e : Nat × Nat × Nat) (src dst : Nat),
     s.fabric.reshard = some x → x.copying = true → x.table[i.toNat]? = some e → i.toNat ∉ x.copied →
     x.copied.length + 1 < x.table.length → e.2.2 ≤ 0x200000 → 0 < e.2.2 →
     e.1 % 0x200000 + e.2.2 ≤ 0x200000 → e.2.1 % 0x200000 + e.2.2 ≤ 0x200000 →
     e.1 / 2 ^ 48 = s.fabric.node.toNat → e.2.1 / 2 ^ 48 = s.fabric.node.toNat →
     s.whereIs (e.1 % 2 ^ 48) = .mem src → s.whereIs (e.2.1 % 2 ^ 48) = .mem dst →
     find? x.jobs i.toNat = none → s.readsOf i.toNat ownReshard = [] → s.writesOf i.toNat ownReshard = [] →
     ∃ t, exec (.shardCopyComplete (.reshard i) .confirmed) s = .next t ∧
       t.fabric.reshard = some { x with copied := addNum x.copied i.toNat, jobs := drop x.jobs i.toNat } ∧
       (∀ a, getByte t.mem a = if dst ≤ a ∧ a < dst + e.2.2 then getByte s.mem (src + (a - dst)) else getByte s.mem a)) ∧
   (∀ (s : State) (x : Reshard) (i : BitVec 12) (c : Command),
     let fails := fun (o : Host.Outcome State Fault Refusal) => ∃ t, o = .next t ∧ t.fabric.reshard = none ∧
       t.fabric.layout = s.fabric.layout ∧ (∀ d, t.command x.ref = some d → d.ended = true) ∧
       (c.dropped = true → c.ended = false → ∃ g ∈ t.nemar.finished, g.cmd = c ∧ g.status = 0x5005)
     s.fabric.reshard = some x → x.copying = true → s.command x.ref = some c → s.host.state ≠ .halted →
     (∀ o, o ≠ .confirmed → fails (exec (.shardCopyComplete (.reshard i) o) s)) ∧
     (∀ e, x.table[i.toNat]? = some e → i.toNat ∉ x.copied → s.globalHas 55 e.2.1 e.2.2 = false →
       s.onFabric i.toNat ownReshard = false → s.writesOf i.toNat ownReshard ≠ [] →
       fails (exec (.shardCopyComplete (.reshard i) .confirmed) s))) ∧
   (∀ (s : State) (k : CmdRef) (c : Command) (y : Shard) (z : CkptCopy) (src dst : Nat),
     let bs := getBytes s.mem src y.len
     s.store.copies = [z] → z = { ref := k, restore := true, shards := [y] } → s.command k = some c →
     0 < y.len → y.src % 0x200000 + y.len ≤ 0x200000 → y.dst % 0x200000 + y.len ≤ 0x200000 →
     y.src / 2 ^ 48 = s.fabric.node.toNat → y.dst / 2 ^ 48 = s.fabric.node.toNat →
     s.whereIs (y.src % 2 ^ 48) = .mem src → s.whereIs (y.dst % 2 ^ 48) = .mem dst →
     (∀ j, j < y.len → marked s.marks (src + j) = false) → s.host.state ≠ .halted →
     s.readsOf (shardKey k 0) ownCkpt = [] → s.writesOf (shardKey k 0) ownCkpt = [] →
     s.moverTurn 0 = some k →
     ∃ t, exec (.shardCopyComplete (.shard k 0) .confirmed) s = .next t ∧ t.store.copies = [] ∧
       (∀ d, t.command k = some d → d.ended = true) ∧
       (c.dropped = true → c.ended = false → ∃ g ∈ t.nemar.finished, g.cmd = c ∧
         g.status = (if sha256 bs = y.digest then 0 else 0x7001))) ∧
   (∀ (s : State) (k : CmdRef) (i : BitVec 12) (o : CopyOutcome), s.moverTurn (i.toNat % 4) ≠ some k →
     exec (.shardCopyComplete (.shard k i) o) s = .next s))

/-! ## Nemar commands (R364 to R387) -/

/-- A command whose argument word A(i) holds a bit that no field has, or a field out of its range, is refused with BAD_FIELD and
that word; one whose buffer is missing, misaligned or too short with BAD_BUFFER and the word of the submission that says so
(log 85); one whose buffer no port can reach with HOST_BUFFER. Every row of a Nemar command, at its first execution (R364,
R382). -/
def Obligations.BadCommandsAreRefused : Prop :=
  ∀ (s : State) (k : CmdRef) (c : Command) (i : Instr) (op : Nat),
    (i, op) ∈ [(.identify k, 0x01), (.resync k, 0x02), (.csrRead k, 0x03), (.csrWrite k, 0x04), (.logRead k, 0x05),
      (.faultmapRead k, 0x06), (.boundsSet k, 0x07), (.regionConfig k, 0x10), (.regionEnable k, 0x11), (.sectionLoad k, 0x12), (.run k, 0x13),
      (.regionDrain k, 0x14), (.regionFlood k, 0x15), (.regionReset k, 0x16), (.regionFree k, 0x17), (.replace k, 0x18),
      (.place k, 0x20), (.tierPool k, 0x21), (.steepSet k, 0x22), (.pageRestore k, 0x23), (.fabricSet k, 0x30),
      (.spraySet k, 0x31), (.barrierSet k, 0x32), (.pourSet k, 0x33), (.reshard k, 0x34), (.routerArb k, 0x35),
      (.ckptCopy k, 0x40), (.fwStage k, 0x50), (.fwActivate k, 0x51), (.attest k, 0x52), (.calExport k, 0x53),
      (.calImport k, 0x54)] →
    s.command k = some c → c.sub.opcode.toNat = op → c.begun = false → c.ended = false → s.atTurn c = true →
    s.host.state ≠ .halted → (op = 0x11 → s.enablingBy k = none) → (op = 0x23 → ∀ j ∈ s.tiers.restores, j.ref ≠ k) →
    (∀ j, s.argBad c.sub = some j → exec i s = .next (s.finish k 0x1002 0 (BitVec.ofNat 64 (4 + j)))) ∧
    (∀ j, s.argBad c.sub = none → bufBad c.sub = some j → exec i s = .next (s.finish k 0x1003 0 (BitVec.ofNat 64 j))) ∧
    (s.argBad c.sub = none → bufBad c.sub = none → bufMin c.sub ≠ none → s.bufUp c.sub = false →
      exec i s = .next (s.finish k 0x100C 0 2))

/-- A command in flight ends once: its completion of 32 bytes stands in its ring's CQ, or in the boot mailbox, with its status,
results and MOD_USEC; the CQ tail and the phase go on, and the command and the entries it owed are gone: one, or two of a
long command that was not acknowledged. With no port up the entry is held, what it owes beside it is released, and the
command stays in flight until it is written (R345, R351, R352, R356 to R359, R363). The key of host memory past 2^44 is the
model's. -/
def Obligations.CompletionsStandInTheirQueue : Prop :=
  ∀ (s : State) (c : Command) (status : BitVec 16) (r0 r1 : Word),
    s.command c.ref = some c → c.dropped = false → c.ended = false → s.host.state ≠ .halted →
    (∀ t, c.ref = .tag t → s.hostUp = true →
      let r := s.ring c.ring
      let h := r.cqBase.toNat + 32 * r.cqTail
      let a := if h < 2 ^ 44 then 0x100000000000 + h else 2 ^ 80 + h
      h + 32 ≤ 2 ^ 44 ∨ (2 ^ 44 ≤ h ∧ h + 32 ≤ 2 ^ 64) →
      let u := s.finish c.ref status r0 r1
      let v := u.ring c.ring
      u.command c.ref = none ∧
      getByte u.mem a = status.extractLsb' 0 8 ∧ getByte u.mem (a + 1) = status.extractLsb' 8 8 ∧
      getByte u.mem (a + 2) = t.extractLsb' 0 8 ∧
      (getByte u.mem (a + 3)).toNat = t.toNat / 256 + (if r.phase then 128 else 0) ∧
      getByte u.mem (a + 6) = BitVec.ofNat 8 c.ring.toNat ∧
      getWord u.mem (a + 8) = r0 ∧ getWord u.mem (a + 16) = r1 ∧ getWord u.mem (a + 24) = BitVec.ofNat 64 s.nemar.usec ∧
      (∀ x, (x < a ∨ a + 32 ≤ x) → getByte u.mem x = getByte s.mem x) ∧
      v.cqTail = (if r.cqTail + 1 = 2 ^ r.cqLog2 then 0 else r.cqTail + 1) ∧
      v.phase = (if r.cqTail + 1 = 2 ^ r.cqLog2 then !r.phase else r.phase) ∧
      v.cqUsed = r.cqUsed + 1 ∧ v.inflight = r.inflight - 1 ∧
      v.owed = r.owed - (if isLongOp c.sub.opcode.toNat = true ∧ c.longAcked = false then 2 else 1)) ∧
    (∀ t, c.ref = .tag t → s.hostUp = false → let u := s.finish c.ref status r0 r1
      u.mem = s.mem ∧ (∃ d, u.command c.ref = some d ∧ d.ended = true) ∧
      (u.ring c.ring).inflight = (s.ring c.ring).inflight ∧ u.host.held.length = s.host.held.length + 1 ∧
      (u.ring c.ring).owed = (s.ring c.ring).owed - (if isLongOp c.sub.opcode.toNat = true ∧ c.longAcked = false then 1 else 0)) ∧
    (c.ref = .boot →
      let u := s.finish .boot status r0 r1
      u.command .boot = none ∧ u.host.bootBusy = false ∧ u.host.bootDone = true ∧ u.mem = s.mem ∧
      getByte u.host.boot 128 = status.extractLsb' 0 8 ∧ getByte u.host.boot 129 = status.extractLsb' 8 8 ∧
      getWord u.host.boot 136 = r0 ∧ getWord u.host.boot 144 = r1 ∧
      getWord u.host.boot 152 = BitVec.ofNat 64 s.nemar.usec ∧
      (∀ x, (x < 128 ∨ 160 ≤ x) → getByte u.host.boot x = getByte s.host.boot x))

/-- IDENTIFY, RESYNC, CSR_READ, LOG_READ, FAULTMAP_READ and CAL_EXPORT write what they report into the buffer and succeed: the
header, the summary, the words of registers that are there, the event records from a number on as far as the buffer goes, the
fault map, the calibration set; RESYNC releases the finished tags it has reported, with the entries they owed. CSR_WRITE goes
the other way: a word of the buffer goes into its register, or is refused as the register's block refuses it (R370, R384,
R387, R425, R432, R467). -/
def Obligations.ReportsGoIntoTheBuffer : Prop :=
  ∀ (s : State) (k : CmdRef) (c : Command),
    let b := c.sub
    let reports := fun (i : Instr) (bs : List Byte) (r0 r1 : Word) => exec i s = .next ((s.bufWrite b 0 bs).succeed k r0 r1)
    (s.accepts k 0x01 c → reports (.identify k) (s.summaryHeader 1024) (capWord s.grade) s.hstId ∧
      (s.summaryHeader 1024).length = 1024 ∧
      ofBytes (((s.summaryHeader 1024).drop 8).take 8) = s.nemar.usec % 2 ^ 64) ∧
    (s.accepts k 0x02 c → s.nemar.finished = [] → reports (.resync k) s.summary 53248
      (BitVec.ofNat 64 (s.nemar.cmds.filter (fun d => d.ref != .boot)).length)) ∧
    (s.accepts k 0x02 c → let t := s.bufWrite b 0 s.summary
      ∃ u : State, exec (.resync k) s = .next (u.succeed k 53248 (BitVec.ofNat 64
          ((s.nemar.cmds.filter (fun d => d.ref != .boot)).length + s.nemar.finished.length))) ∧
        u.nemar = { s.nemar with finished := [] } ∧ u.mem = t.mem ∧ u.host.boot = t.host.boot ∧ u.cores = s.cores ∧
        ∀ q : RingId, u.ring q = { s.ring q with owed := (s.ring q).owed -
          ((s.nemar.finished.filter (fun f => f.cmd.ring == q)).map (fun f => f.cmd.debt)).sum }) ∧
    (s.accepts k 0x03 c → let n := fld (b.arg 1) 0 10
      (∀ j, j < n → s.csrAbsent (csrTarget ((b.arg 0).toNat + 8 * j)) = false) →
      reports (.csrRead k) ((List.range n).flatMap (fun j =>
        toBytes 8 (s.csrRead (csrTarget ((b.arg 0).toNat + 8 * j))).toNat)) (BitVec.ofNat 64 n) 0) ∧
    (s.accepts k 0x04 c → b.arg 1 = 1 → b.arg 0 = 0x080000000150 →
      exec (.csrWrite k) s = .next (({ s with nemar := { s.nemar with rngSavedSeed := s.bufWord b 0 } } : State).succeed k 1 0)) ∧
    (s.accepts k 0x04 c → b.arg 1 = 1 → let t := csrTarget (b.arg 0).toNat
      s.dieDark t = false →
      (s.csrWriteFails t = none → exec (.csrWrite k) s = .next ((s.csrPut t (s.bufWord b 0)).succeed k 1 0)) ∧
      (∀ e, s.csrWriteFails t = some e → exec (.csrWrite k) s = .next (s.finish k e 0 0x100000000))) ∧
    (s.accepts k 0x05 c → bit (b.arg 0) 63 = false → ∀ o, s.nemar.logNext = o + s.nemar.log.length →
      (∀ i e, s.nemar.log[i]? = some e → e.seq = o + i) →
      let first := max (fld (b.arg 0) 0 63) o
      let n := min (b.bufLen.toNat / 64) (s.nemar.logNext - first)
      reports (.logRead k) (((s.nemar.log.drop (first - o)).take (b.bufLen.toNat / 64)).flatMap (fun e =>
          e.words.flatMap (fun w => toBytes 8 w.toNat)))
        (BitVec.ofNat 64 n) (BitVec.ofNat 64 (min first s.nemar.logNext + n))) ∧
    (s.accepts k 0x06 c → reports (.faultmapRead k) s.faultMapBytes 8768 0 ∧ s.faultMapBytes.length = 8768) ∧
    (s.accepts k 0x53 c → reports (.calExport k) s.calBytes 31296 0 ∧ s.calBytes.length = 31296)

/-- REGION_CONFIG, REGION_RESET and REGION_FREE in the states R371 lets them act in; in any other they are refused with
REGION_STATE. A reset stops the region's cores, ends its request ABORTED and leaves it STAGED; results in flight are dropped,
which is the model's choice (log 119) (R65, R67, R371, R380). -/
def Obligations.RegionsAreConfiguredResetAndFreed : Prop :=
  ∀ (s : State) (k : CmdRef) (c : Command),
    let b := c.sub
    let r := fld (b.arg 0) 0 8
    let g := s.region r
    let wrongState := fun (i : Instr) => exec i s =
      .next (s.finish k 0x2003 0 (BitVec.ofNat 64 (r * 2 ^ 16 + g.state.code * 2 ^ 32)))
    (s.accepts k 0x10 c →
      (g.state = .free ∨ g.state = .staged → ∃ u : State, exec (.regionConfig k) s = .next (u.succeed k 0 0) ∧
        (u.region r).shRect = b.arg 1 ∧ (u.region r).shCtrl = b.arg 2 ∧ (u.region r).shStageScan = b.arg 3 ∧
        (u.region r).shWdog = BitVec.ofNat 10 (b.arg 4).toNat ∧ (u.region r).state = .staged ∧
        (u.region r).rect = g.rect ∧ (u.region r).ctrl = g.ctrl ∧ u.cores = s.cores ∧ u.mem = s.mem ∧
        ∀ q, q ≠ r → u.region q = s.region q) ∧
      (g.state ≠ .free → g.state ≠ .staged → wrongState (.regionConfig k))) ∧
    (s.accepts k 0x16 c → s.nemar.replacements = [] →
      (g.state = .free → wrongState (.regionReset k)) ∧
      (g.state ≠ .free → ∃ u : State, exec (.regionReset k) s = .next (u.succeed k (BitVec.ofNat 64 g.state.code) 0) ∧
        (u.region r).state = .staged ∧ (u.region r).reqValid = false ∧ (u.region r).drain = none ∧
        (g.reqValid = true → (u.region r).lastStatus = 0x3001) ∧
        (g.state.enabled = true → ∀ l ∈ rectCores g.rect, (u.core l).running = false ∧
          (u.core l).sregs = (s.core l).sregs ∧ ∀ q, q < 16 → ((u.core l).queue q).buf = []))) ∧
    (s.accepts k 0x17 c →
      (g.state ≠ .staged → wrongState (.regionFree k)) ∧
      (g.state = .staged → g.arbWords = none → ∃ u : State, exec (.regionFree k) s = .next (u.succeed k 0 0) ∧
        (u.region r).state = .free ∧ u.cores = s.cores ∧ ∀ q, q ≠ r → u.region q = s.region q))

/-- REGION_ENABLE of a STAGED region whose image passes: every core of the rectangle runs from address 0 of bank 0, which holds
its record's words, in phase 0 with its registers at reset; the shadow set is active and the region RUNNING; taken again the
command completes: these two executions are the model's reading (log 56). RUN makes its tag the region's request and writes
its 64 argument bytes; SECTION_LOAD writes each core's record into its staging area, tells the core, and makes the region
TIDELINE (R62, R74, R372, R374, R466). -/
def Obligations.SectionsStartAndRun : Prop :=
  ∀ (s : State) (k : CmdRef) (c : Command),
    let b := c.sub
    let r := fld (b.arg 0) 0 8
    let g := s.region r
    let a := fld (b.arg 1) 0 48
    (s.accepts k 0x11 c → s.enablingBy k = none → absentStackAt s.grade a = none → s.nemarReads a 1 = true →
      g.state = .staged →
      let im := s.readImage a g.shRect
      s.enableCheck r im = none →
      ∃ u : State, exec (.regionEnable k) s = .next u ∧ (u.region r).state = .running ∧ (u.region r).enabling = some k ∧
        (u.region r).rect = g.shRect ∧ (u.region r).gate = true ∧ (u.region r).phase = false ∧
        fld (u.region r).ctrl 16 16 = im.sectionId.toNat ∧
        ∀ l ∈ rectCores g.shRect, (u.core l).running = true ∧ (u.core l).pc = 0 ∧ (u.core l).bank = false ∧
          (u.core l).phase = false ∧ (u.core l).slot = 0 ∧ (∀ q, (u.core l).getS q = 0) ∧
          (∀ p, (u.core l).imem false p = look (im.recOf g.shRect l).words p 0)) ∧
    (∀ q, s.enablingBy k = some q → exec (.regionEnable k) s =
      .next ((s.setRegion q { s.region q with enabling := none }).succeed k
        (BitVec.ofNat 64 (rectCores (s.region q).rect).length) 0)) ∧
    (s.accepts k 0x13 c → g.state = .running ∨ g.state = .slack → g.reqValid = false → g.enabling = none →
      ∃ u : State, exec (.run k) s = .next (u.ack k) ∧ (u.region r).state = .running ∧ (u.region r).reqValid = true ∧
        (u.region r).reqTag = CmdRef.tagOf k ∧ (u.region r).done = [] ∧ (u.region r).gate = true ∧
        (u.region r).limitMs = fld (b.arg 0) 32 10 ∧
        (u.region r).doneCount = (if fld (b.arg 0) 8 15 = 0 then (rectCores g.rect).length else fld (b.arg 0) 8 15) ∧
        (fld (b.arg 1) 0 22 + 64 ≤ 0x400000 → ∀ l ∈ rectCores g.rect, ∀ j, j < 8 →
          getWord u.mem (l * 0x400000 + fld (b.arg 1) 0 22 + 8 * j) = b.arg (2 + j))) ∧
    (s.accepts k 0x12 c → absentStackAt s.grade a = none → s.nemarReads a 1 = true → g.state = .running →
      g.enabling = none → s.loadCheck r (s.readImage a g.rect) = none →
      ∃ u : State, exec (.sectionLoad k) s = .next u ∧ (u.region r).state = .tideline ∧
        (u.region r).load = some (k, (s.readImage a g.rect).sectionId) ∧
        ∀ l ∈ rectCores g.rect, (u.core l).staged = true ∧ (u.core l).stagedSent = true ∧
          (u.message .staged l 0).isSome = true ∧ (u.core l).pc = (s.core l).pc ∧ (u.core l).phase = (s.core l).phase ∧
          (fld g.stageScan 33 15 ≤ 32448 → ∀ p, p < 4096 →
            getWord u.mem (l * 0x400000 + fld g.stageScan 33 15 * 128 + 8 * p) =
              look ((s.readImage a g.rect).recOf g.rect l).words p 0))

/-- REGION_DRAIN, REGION_FLOOD and REPLACE. A drain of a RUNNING region within one die and MODE 0 closes the entry gate and makes
it EBBING, of a TIDELINE one it is kept until the section is loaded; any other drain, by its MODE, of a region over several
dies or in another state, stops the cores. A flood of a SAVED region whose images match is FLOODING; REPLACE of a LOST region
whose fences move no other region begins its scan-out, also where no spare is left to serve it (R79, R85, R86, R89, R93,
R371, R398 to R400). -/
def Obligations.RegionsDrainFloodAndAreReplaced : Prop :=
  ∀ (s : State) (k : CmdRef) (c : Command),
    let b := c.sub
    let r := fld (b.arg 0) 0 8
    let g := s.region r
    (s.accepts k 0x14 c → g.state = .running → g.drain = none → g.enabling = none →
      fld g.ctrl 2 2 = 0 → g.oneDie = true → ∃ u : State, exec (.regionDrain k) s = .next u ∧ (u.region r).state = .ebbing ∧
        (u.region r).gate = false ∧ (u.region r).drain = some (k, bit (b.arg 0) 8) ∧ u.cores = s.cores) ∧
    (s.accepts k 0x14 c → g.state = .tideline → g.drain = none → g.enabling = none → fld g.ctrl 2 2 = 0 → g.oneDie = true →
      ∃ u : State, exec (.regionDrain k) s = .next u ∧ (u.region r).state = .tideline ∧ (u.region r).gate = g.gate ∧
        (u.region r).drainHeld = true ∧ (u.region r).drain = some (k, bit (b.arg 0) 8) ∧ u.cores = s.cores) ∧
    (s.accepts k 0x14 c → g.state ∈ [.running, .tideline, .slack, .halted, .lost] → g.drain = none → g.enabling = none →
      (fld g.ctrl 2 2 ≠ 0 ∨ g.oneDie = false ∨ (g.state ≠ .running ∧ g.state ≠ .tideline)) → s.nemar.bars = [] →
      (∃ l ∈ rectCores g.rect, (s.core l).stopped = false) →
      ∃ u : State, exec (.regionDrain k) s = .next u ∧ (u.region r).state = .stopping ∧ (u.region r).scanCause = .drain ∧
        (u.region r).drain = some (k, bit (b.arg 0) 8) ∧ (u.region r).savePool = bit g.ctrl 1 ∧
        (u.region r).resume = g.returnState ∧
        (∀ l ∈ rectCores g.rect, u.core l = { s.core l with stopping := true }) ∧
        ∀ l, l ∉ rectCores g.rect → u.core l = s.core l) ∧
    (s.accepts k 0x15 c → g.state = .saved → s.nemar.replacements = [] → s.floodCheck r = none →
      ∃ u : State, exec (.regionFlood k) s = .next u ∧ (u.region r).state = .flooding ∧ (u.region r).flood = some k ∧
        u.cores = s.cores) ∧
    (s.accepts k 0x15 c → g.state = .saved → s.nemar.replacements = [] → ∀ x, s.floodCheck r = some x →
      exec (.regionFlood k) s = .next (s.finish k 0x2001 0 x.word)) ∧
    (s.accepts k 0x18 c → g.state = .lost → (∀ q ∈ s.movedRegions (s.mendable (s.reefsOf r)), q = r) →
      s.nemar.replacements = [] → s.nemar.bars = [] →
      (∃ l ∈ rectCores g.rect, (s.core l).stopped = false) →
      ∃ u : State, exec (.replace k) s = .next u ∧ (u.region r).state = .stopping ∧ (u.region r).scanCause = .replacement ∧
        (u.region r).savePool = true ∧
        u.nemar.replacements = [{ fences := (s.reefsOf r).foldl addNum [], regions := [r], cmds := [(r, k)] }] ∧
        ∀ l ∈ rectCores g.rect, (u.core l).stopping = true)

/-- PLACE, TIER_POOL, STEEP_SET and PAGE_RESTORE. PLACE of a page whose locations pass writes its entry and completes once no MU
holds it; what its arguments do not give, DIRTY, POISON and HEAT, the page keeps, which is the model's reading (log 37); a
grant joins its pool and a withdrawal leaves it, and a frame the pool may not take or give is refused; STEEP_SET commits four
windows with their fronts; PAGE_RESTORE writes the page, unmarked, and clears POISON (R267, R268, R270 to R272, R285, R376). -/
def Obligations.PlacementCommandsActOnTheirPages : Prop :=
  ∀ (s : State) (k : CmdRef) (c : Command),
    let b := c.sub
    let p := fld (b.arg 0) 0 24
    (s.accepts k 0x20 c → b.arg 1 = 1 → s.placeAbsent b p 1 = none → s.placeFails b p 1 2 0 [] = none →
      bit (s.ptEntry p).w0 55 = false → s.holders p = [] → s.tiers.inval = [] → s.tiers.waits = [] → s.tiers.moves = [] →
      s.pagesBusy k p 1 = false →
      ∃ u : State, exec (.place k) s = .next (u.succeed k 1 0) ∧ u.mem = (s.ack k).mem ∧
        (∀ e, e = u.ptEntry p →
          e.w1 = b.arg 3 ∧ e.w2 = b.arg 4 ∧ bit e.w0 55 = false ∧ bit e.w0 54 = bit (s.ptEntry p).w0 54 ∧
          bit e.w0 56 = bit (s.ptEntry p).w0 56 ∧ e.heat = (s.ptEntry p).heat ∧
          ∀ j, j ∉ [54, 55, 56] → bit e.w0 j = bit (b.arg 2) j) ∧ ∀ q, q ≠ p → u.ptEntry q = s.ptEntry q) ∧
    (s.accepts k 0x21 c → let tier := fld (b.arg 0) 0 1
      let f := fld (b.arg 1) 0 27
      fld (b.arg 2) 0 27 = 1 → s.absentStack ⟨BitVec.ofNat 2 tier, 0, BitVec.ofNat 27 f⟩ = none →
      (bit (b.arg 0) 8 = true → s.grantBad tier f = false → ∃ u : State, u.poolOf tier = addNum (s.poolOf tier) f ∧
        exec (.tierPool k) s = .next (u.succeed k (BitVec.ofNat 64 (addNum (s.poolOf tier) f).length) 0) ∧
        u.cores = s.cores ∧ u.mem = s.mem) ∧
      (bit (b.arg 0) 8 = false → f ∈ s.poolOf tier → ∃ u : State, u.poolOf tier = dropNum (s.poolOf tier) f ∧
        exec (.tierPool k) s = .next (u.succeed k (BitVec.ofNat 64 (dropNum (s.poolOf tier) f).length) 0)) ∧
      ((bit (b.arg 0) 8 = true ∧ s.grantBad tier f = true) ∨ (bit (b.arg 0) 8 = false ∧ f ∉ s.poolOf tier) →
        exec (.tierPool k) s = .next (s.finish k 0x2001 0 0x21))) ∧
    (s.accepts k 0x22 c → let r := fld (b.arg 0) 0 8
      let g := s.region r
      (∀ w, w < 4 → steepBad (b.arg (1 + 2 * w)) (b.arg (2 + 2 * w)) = false) →
      ∃ u : State, exec (.steepSet k) s = .next (u.succeed k 0 0) ∧ (∀ q, q ≠ r → u.region q = s.region q) ∧
        ∀ w, w < 4 → (u.region r).steepExt[w]? = some (b.arg (1 + 2 * w)) ∧
          (u.region r).steepCtrl[w]? = some (b.arg (2 + 2 * w)) ∧
          (bit (b.arg (2 + 2 * w)) 63 = true → bit (b.arg (2 + 2 * w)) 62 = false →
            (u.region r).steepFront[w]? = some (BitVec.ofNat 24 (fld (b.arg (1 + 2 * w)) 0 24))) ∧
          (bit (b.arg (2 + 2 * w)) 63 = true → bit (b.arg (2 + 2 * w)) 62 = true →
            (u.region r).steepFront[w]? = some (BitVec.ofNat 24
              (fld (b.arg (1 + 2 * w)) 0 24 + fld (b.arg (1 + 2 * w)) 24 24 - 1))) ∧
          (bit (b.arg (2 + 2 * w)) 63 = false → (u.region r).steepFront[w]? = g.steepFront[w]?)) ∧
    (s.accepts k 0x23 c → let e := s.ptEntry p
      ∀ src dst, absentStackAt s.grade (fld (b.arg 1) 0 48) = none → s.nemarAt (fld (b.arg 1) 0 48) = .mem src → src < 2 ^ 60 →
      bit e.w0 63 = true → bit e.w0 55 = false → bit e.w1 63 = false → bit e.w2 63 = false →
      s.placeOf (Location.ofWord e.w0) = .mem dst → locTier e.w0 ≠ 2 →
      s.holders p = [] → s.tiers.inval = [] → s.tiers.waits = [] → s.tiers.moves = [] → s.tiers.restores = [] →
      s.pagesBusy k p 1 = false → s.fabric.reads = [] → s.fabric.writes = [] →
      ∃ u : State, exec (.pageRestore k) s = .next (u.succeed k 0 0) ∧
        (s.poisonedAt (fld (b.arg 1) 0 48) = false →
          ∀ j, j < 0x200000 → getByte u.mem (dst + j) = getByte (s.ack k).mem (src + j)) ∧
        (∀ j, j < 0x20000 → dst / 16 + j ∉ u.marks) ∧
        (∀ a, (a < dst ∨ dst + 0x200000 ≤ a) → getByte u.mem a = getByte (s.ack k).mem a) ∧
        bit (u.ptEntry p).w0 56 = false ∧ bit (u.ptEntry p).w0 54 = false)

/-- BOUNDS_SET, SPRAY_SET, BARRIER_SET, ROUTER_ARB, POUR_SET and CKPT_COPY: a set that passes its check takes effect whole and
completes; one that does not is refused with its reason and nothing of it takes effect; an edge die applies its mask once the
flits it has injected are delivered; a barrier's GEN and the children heard from start with the commit while FAILS is kept,
which is the model's reading (log 34) (R301, R308, R317, R334, R378, R380, R407). -/
def Obligations.SetsTakeEffectWhole : Prop :=
  ∀ (s : State) (k : CmdRef) (c : Command),
    let b := c.sub
    (s.accepts k 0x07 c → b.arg 0 = 1 → ∀ x v, s.boundPairs b 1 = [(x, v)] → ∀ q, boundReg x = some (.qrate q) →
      quadExists s.grade q = true →
      (BoundReg.bad (.qrate q) v = false → ∃ u : State, exec (.boundsSet k) s = .next (u.succeed k 0 0) ∧
        (u.quad q).rateBounds = v &&& 0x03FFFFFF ∧ (s.liveQuad q = true → (u.quad q).twork = (s.quad q).thi)) ∧
      (BoundReg.bad (.qrate q) v = true → exec (.boundsSet k) s =
        .next (s.finish k 0x2001 0 (BitVec.ofNat 64 (0x11 + q * 2 ^ 16))))) ∧
    (s.accepts k 0x31 c → let e := fld (b.arg 0) 0 2
      let m := (b.arg 1).extractLsb' 0 16
      let n := ((List.range 16).filter (fun i => m.getLsbD i)).length
      (n ∈ [1, 2, 4, 8] → ∃ u : State, exec (.spraySet k) s = .next (u.succeed k 0 0) ∧
          u.mesh.spray = s.mesh.spray.setIfInBounds e m ∧ u.mesh.flits = s.mesh.flits ∧
          (∀ i : Fin 4, s.edgeBusy i.val = true → u.mesh.maps[i] = s.mesh.maps[i]) ∧
          (∀ i : Fin 4, s.edgeBusy i.val = false → u.mesh.maps[i].mask = u.mesh.spray[i]) ∧ u.cores = s.cores ∧ u.mem = s.mem) ∧
      (n ∉ [1, 2, 4, 8] → exec (.spraySet k) s = .next (s.finish k 0x2001 0 0x12))) ∧
    (s.accepts k 0x32 c → let j := fld (b.arg 0) 0 8 - 240
      s.barrierCheck (j + 240) [b.arg 1, b.arg 2, b.arg 3, b.arg 4] (b.arg 6) = none → (s.modBar j).en = false →
      ∃ u : State, exec (.barrierSet k) s = .next (u.succeed k 0 0) ∧
        (u.modBar j).set = #v[b.arg 1, b.arg 2, b.arg 3, b.arg 4] ∧ (u.modBar j).en = bit (b.arg 5) 63 ∧
        (u.modBar j).fbar = b.arg 6 ∧ (u.modBar j).fails = (s.modBar j).fails ∧ u.mem = s.mem) ∧
    (s.accepts k 0x32 c → let j := fld (b.arg 0) 0 8
      ∀ x, s.barrierCheck j [b.arg 1, b.arg 2, b.arg 3, b.arg 4] (b.arg 6) = some x →
        exec (.barrierSet k) s = .next (s.finish k 0x2001 0 x.word) ∧ (x.reason = 0x13 ∨ x.reason = 0x14) ∧ x.detail = j) ∧
    (s.accepts k 0x32 c → ∀ r, r < 256 → bit (b.arg (1 + r / 64)) (r % 64) = true → (s.region r).state.enabled = false →
      exec (.barrierSet k) s = .next (s.finish k 0x2001 0 (r1Reason 0x13 (fld (b.arg 0) 0 8) none))) ∧
    (s.accepts k 0x35 c → let r := fld (b.arg 0) 0 8
      let g := s.region r
      let ws := (List.range 5).map (fun i => (16 + i, b.arg (1 + i)))
      g.state = .running → g.enabling = none →
      (arbCheck ws = none → ∃ u : State, exec (.routerArb k) s =
          .next (u.succeed k (BitVec.ofNat 64 (rectCores g.rect).length) 0) ∧
        (u.region r).arbWords = some (g.rect, ws.map Prod.snd) ∧
        (∀ l ∈ rectCores g.rect, ∀ i, i < 5 → look (u.core l).arbActive (16 + i) 0 = b.arg (1 + i)) ∧
        ∀ l, l ∉ rectCores g.rect → (∀ x, g.arbWords = some x → l ∉ rectCores x.1) → u.core l = s.core l) ∧
      (∀ x, arbCheck ws = some x → exec (.routerArb k) s = .next (s.finish k 0x2001 0 (r1Reason x r none)))) ∧
    (s.accepts k 0x33 c → let n := fld (b.arg 0) 0 10
      let p := s.pourSlot n
      let q := { p with w0 := b.arg 1, w1 := b.arg 2, w2 := b.arg 3, w3 := b.arg 4 }
      n < 256 * reducers s.grade → s.pourAbsent q = none → s.pourCheck n q = false →
      ∃ u : State, exec (.pourSet k) s = .next (u.succeed k 0 0) ∧ (u.pourSlot n).w0 = b.arg 1 ∧ (u.pourSlot n).w1 = b.arg 2 ∧
        (u.pourSlot n).w2 = b.arg 3 ∧ (u.pourSlot n).w3 = b.arg 4 ∧ (u.pourSlot n).state = 0 ∧
        (u.pourSlot n).rounds = p.rounds ∧ (u.pourSlot n).have_ = [] ∧ ∀ m, m ≠ n → u.pourSlot m = s.pourSlot m) ∧
    (s.accepts k 0x33 c → let n := fld (b.arg 0) 0 10
      let q := { s.pourSlot n with w0 := b.arg 1, w1 := b.arg 2, w2 := b.arg 3, w3 := b.arg 4 }
      (256 * reducers s.grade ≤ n → exec (.pourSet k) s = .next (s.finish k 0x1005 0 49)) ∧
      (n < 256 * reducers s.grade → s.pourAbsent q = none → s.pourCheck n q = true →
        exec (.pourSet k) s = .next (s.finish k 0x2001 0 (r1Reason 0x18 n none)))) ∧
    (s.accepts k 0x40 c → let xs := (List.range (b.bufLen.toNat / 64)).map (s.shardEntry b)
      (∀ e ∈ xs.zipIdx, s.shardBad b xs e.2 e.1 = false) →
      ∃ u : State, exec (.ckptCopy k) s = .next u ∧ u.store.copies = s.store.copies ++
        [{ ref := k, restore := bit (b.arg 0) 0, shards := xs }] ∧
        u.store.turns = s.store.turns.map (fun ks => ks ++ [k]) ∧ u.cores = s.cores) ∧
    (s.accepts k 0x40 c → let xs := (List.range (b.bufLen.toNat / 64)).map (s.shardEntry b)
      ∀ i x, xs[i]? = some x → s.shardBad b xs i x = true → (∀ j y, j < i → xs[j]? = some y → s.shardBad b xs j y = false) →
      exec (.ckptCopy k) s = .next (s.finish k 0x1002 0 (BitVec.ofNat 64 (i + 2 ^ 32))))

/-- FABRIC_SET and RESHARD. A fabric set that passes its check is committed whole: node, routes, and every port, one whose
configuration is new training or, if OFF, DOWN (of a port that keeps its configuration and is not up, log 91 has it train
too); one that meets another in progress is refused with REGION_BUSY, which is the model's choice of status (log 90); a table
of entries that pass starts the re-shard, and a second one finds it busy (R323, R324, R339, R341, R376, R377). -/
def Obligations.FabricCommandsCommitTheirSets : Prop :=
  ∀ (s : State) (k : CmdRef) (c : Command),
    let b := c.sub
    (s.accepts k 0x30 c → s.fabric.fabricCmd = none → let x := s.readFabric b
      x.bad = none → s.fabric.reads = [] → s.fabric.writes = [] → s.fabric.contribs = [] → s.nemar.bars = [] →
      s.fabric.reshard = none → (∀ p, (s.zport p).state = .down ∧ (s.zport p).held = false ∧
        (s.zport p).fresh = false ∧ (s.zport p).tx = [] ∧ (s.zport p).replay = []) →
      (∃ p, p < 32 ∧ fld (x.ports.getD p 0) 32 2 ≠ 0 ∧ s.plant.edgeLost[p / 8]? = some false) →
      ∃ u : State, exec (.fabricSet k) s = .next u ∧ u.fabric.node = BitVec.ofNat 12 x.node ∧ u.fabric.routes = x.routes ∧
        u.fabric.fabricCmd = some (k, s.nemar.usec) ∧ ∀ p, p < 32 → (u.zport p).cfg = x.ports.getD p 0 ∧
          ((u.zport p).state = .training ↔
            (fld (x.ports.getD p 0) 32 2 ≠ 0 ∧ s.plant.edgeLost[p / 8]? = some false))) ∧
    (s.accepts k 0x30 c → s.fabric.fabricCmd = none → ∀ d, (s.readFabric b).bad = some d →
      exec (.fabricSet k) s = .next (s.finish k 0x2001 0 (r1Reason 0x17 d none))) ∧
    (s.accepts k 0x30 c → s.fabric.fabricCmd ≠ none → exec (.fabricSet k) s = .next (s.finish k stRegionBusy 0 0)) ∧
    (s.accepts k 0x34 c → let es := (List.range (b.bufLen.toNat / 32)).map (s.reshardEntry b)
      let t := es.map (fun e => (e.1, e.2.1, e.2.2.1))
      (∀ e ∈ es, e.2.2.2 = false) →
      (s.fabric.reshard ≠ none → exec (.reshard k) s = .next (s.finish k 0x5004 0 0)) ∧
      (s.fabric.reshard = none → s.tableBad t = true → exec (.reshard k) s = .next (s.finish k 0x2001 0 0x19)) ∧
      (s.fabric.reshard = none → s.tableBad t = false → s.poursDrained = false → s.fabric.early = [] →
        let x : Reshard := { ref := k, epoch := (b.arg 0).extractLsb' 0 16, table := t, drainMs := fld (b.arg 1) 0 10, startUsec := s.nemar.usec }
        ∃ u : State, exec (.reshard k) s = .next u ∧ u.fabric.reshard = some x ∧ u.fabric.layout = s.fabric.layout))

/-- FW_STAGE, FW_ACTIVATE, CAL_IMPORT and ATTEST act on the persistent store: a staged image is VALID or BAD as it verifies, a
VALID slot becomes ACTIVE and the one before it FALLBACK, an import's values stand, and an attestation takes the next index
of the signing key, never one twice; a command whose record finds the half full waits, and one whose program-verify fails
ends STORE_FAIL with nothing but a compaction due (R368, R428 to R431, R434, R437, R442 to R444). -/
def Obligations.StoreCommandsActOnTheStore : Prop :=
  ∀ (s : State) (k : CmdRef) (c : Command),
    let b := c.sub
    let i := fld (b.arg 0) 0 4
    (s.accepts k 0x50 c →
      (i = s.store.loaded.toNat ∨ i = s.store.fallback.toNat →
        exec (.fwStage k) s = .next (s.finish k 0x8002 0 (BitVec.ofNat 64 i))) ∧
      (i ≠ s.store.loaded.toNat → i ≠ s.store.fallback.toNat → s.store.full [8, 8] = true → exec (.fwStage k) s = .next s) ∧
      (i ≠ s.store.loaded.toNat → i ≠ s.store.fallback.toNat → s.store.full [8, 8] = false → s.store.verifyFails = true →
        exec (.fwStage k) s = .next (({ s.ack k with store := { s.store with compactDue := true } } : State).finish k 0x8004 0
          (BitVec.ofNat 64 i))) ∧
      (i ≠ s.store.loaded.toNat → i ≠ s.store.fallback.toNat → i < 4 → s.store.full [8, 8] = false →
        s.store.verifyFails = false → ∃ u : State,
        exec (.fwStage k) s = .next (if imageVerified (s.bufRead b 0 b.bufLen.toNat) then u.succeed k 0 0
          else u.finish k 0x8001 0 (BitVec.ofNat 64 i)) ∧
        (∀ y, u.store.slots[i]? = some y →
          y.state = (if imageVerified (s.bufRead b 0 b.bufLen.toNat) then 1 else 2)) ∧
        ∀ j, j ≠ i → u.store.slots[j]? = s.store.slots[j]?)) ∧
    (s.accepts k 0x51 c → (s.store.valid i = false → exec (.fwActivate k) s = .next (s.finish k 0x8002 0 (BitVec.ofNat 64 i))) ∧
      (s.store.valid i = true → s.store.full [2] = true → exec (.fwActivate k) s = .next s) ∧
      (s.store.valid i = true → s.store.full [2] = false → s.store.verifyFails = true → exec (.fwActivate k) s = .next
        (({ s with store := { s.store with compactDue := true } } : State).finish k 0x8004 0 (BitVec.ofNat 64 i))) ∧
      (s.store.valid i = true → s.store.full [2] = false → s.store.verifyFails = false → ∃ u : State, exec (.fwActivate k) s = .next (u.succeed k 0 0) ∧
        u.store.active = BitVec.ofNat 4 i ∧ u.store.fallback = s.store.active ∧ u.store.loaded = s.store.loaded ∧
        u.store.slots = s.store.slots)) ∧
    (s.accepts k 0x54 c → b.bufLen.toNat = 16 → ∀ kind key v,
      calEntry (s.bufWord b 0) (s.bufWord b 8) = (kind, key, v, false) → calAbsent s.grade kind key = none →
      key < 2 ^ 32 → s.store.full [2] = false → s.store.verifyFails = false →
      ∃ u : State, exec (.calImport k) s = .next (u.succeed k 1 0) ∧ u.calValue kind key = v ∧
        ∀ kind' key', key' < 2 ^ 32 → (kind', key') ≠ (kind, key) → u.calValue kind' key' = s.calValue kind' key') ∧
    (s.accepts k 0x52 c → s.store.attest = none →
      (s.store.sigIdx < 33554432 → s.store.full [2] = false → s.store.verifyFails = false → s.store.tree ≠ some (s.store.sigIdx / 32768) →
        s.store.treeNext ≠ some (s.store.sigIdx / 32768) →
        ∃ u : State, exec (.attest k) s = .next u ∧
          u.store.attest = some (k, s.store.sigIdx, s.reportHead (s.bufRead b 0 32)) ∧
          u.store.sigIdx = s.store.sigIdx + 1 ∧ s.store.sigIdx < u.store.sigNext) ∧
      (33554432 ≤ s.store.sigIdx → exec (.attest k) s = .next (s.finish k 0x8003 0 0)))

/-! ## The host interface -/

/-- The doorbells. A boot doorbell whose bit 0 is clear does nothing, one while a boot command is busy is dropped and counted,
any other takes the submission in the boot mailbox; a ring's doorbell moves its tail or releases completion entries, and one
of a ring with EN 0, at or past the ring's size, or that passes CQ_TAIL is dropped and counted (R351, R354, R361).
REGISTER_WRITE and HWIN_EN. An access of BAR0 that is not 64 bits wide and aligned is counted in HST_ERR.ALIGN; such a write
has no effect, such a read answers all ones, and an aligned read answers its register, the answer kept in a field of the
model (log 134); an aligned write of a doorbell, of MBX_RING_CFG or of HST_CTRL does what that row of the table does, one of
the mailbox writes its bytes, ring bases are written while idle, and a read-only register ignores it (R346 to R348, R352). -/
def Obligations.HostDoorbellsAndRegisterWritesAct : Prop :=
  (∀ (s : State) (q : RingId) (v : Word),
     let r := s.ring q
     let size := 2 ^ r.cqLog2
     let n := if (v.toNat + size - r.cqHead) % size = 0 ∧ r.cqUsed = size then r.cqUsed
       else (v.toNat + size - r.cqHead) % size
     let dropped := fun (i : Instr) => exec i s = .next { s with host := { s.host with
       errDbell := if s.host.errDbell = 0xFFFF then 0xFFFF else s.host.errDbell + 1 } }
     (bit v 0 = false → exec (.bootDoorbell v) s = .next s) ∧
     (bit v 0 = true → s.host.bootBusy = true → dropped (.bootDoorbell v)) ∧
     (bit v 0 = true → s.host.bootBusy = false → exec (.bootDoorbell v) s =
       .next (({ s with host := { s.host with bootBusy := true } } : State).checkIn
         (readSubmission (getBytes s.host.boot 0 128)) .boot 0)) ∧
     (r.en = true → v.toNat < 2 ^ r.sqLog2 → exec (.sqTailDoorbell q v) s =
       .next (s.setRing q { r with sqTail := v.toNat, sqAck := v.toNat })) ∧
     (r.en = false ∨ 2 ^ r.sqLog2 ≤ v.toNat → dropped (.sqTailDoorbell q v)) ∧
     (r.en = true → v.toNat < size → n ≤ r.cqUsed → exec (.cqHeadDoorbell q v) s =
       .next (s.setRing q { r with cqHead := v.toNat, cqUsed := r.cqUsed - n })) ∧
     (r.en = false ∨ size ≤ v.toNat ∨ r.cqUsed < n → dropped (.cqHeadDoorbell q v))) ∧
  (∀ (s : State) (q : RingId) (v : Word),
     (∀ (o : BitVec 17) (n : BitVec 4), n ≠ 8 ∨ o.toNat % 8 ≠ 0 → exec (.registerWrite o n (some v)) s =
       .next { s with host := { s.host with
         errAlign := if s.host.errAlign = 0xFFFF then 0xFFFF else s.host.errAlign + 1 } } ∧
       exec (.registerWrite o n none) s = .next { s with host := { s.host with
         errAlign := if s.host.errAlign = 0xFFFF then 0xFFFF else s.host.errAlign + 1, bar0Answer := 0xFFFFFFFFFFFFFFFF } }) ∧
     (∀ o : BitVec 17, o.toNat % 8 = 0 → exec (.registerWrite o 8 none) s =
       .next { s with host := { s.host with bar0Answer := s.bar0Reg o.toNat } }) ∧
     (∀ j, j < 512 → ∃ u : State, exec (.registerWrite (BitVec.ofNat 17 (8 * j)) 8 (some v)) s = .next u ∧
       getWord u.host.boot (8 * j) = v ∧ (∀ x, (x < 8 * j ∨ 8 * j + 8 ≤ x) → getByte u.host.boot x = getByte s.host.boot x) ∧
       u.mem = s.mem ∧ u.nemar = s.nemar) ∧
     exec (.registerWrite 0x1000 8 (some v)) s = exec (.bootDoorbell v) s ∧
     exec (.registerWrite (BitVec.ofNat 17 (0x2000 + 0x10 * q.toNat)) 8 (some v)) s = exec (.sqTailDoorbell q v) s ∧
     exec (.registerWrite (BitVec.ofNat 17 (0x2008 + 0x10 * q.toNat)) 8 (some v)) s = exec (.cqHeadDoorbell q v) s ∧
     exec (.registerWrite (BitVec.ofNat 17 (0x1110 + 0x40 * q.toNat)) 8 (some v)) s = exec (.ringEnable q v) s ∧
     ((s.ring q).en = false → (s.ring q).inflight = 0 →
       exec (.registerWrite (BitVec.ofNat 17 (0x1100 + 0x40 * q.toNat)) 8 (some v)) s =
         .next (s.setRing q { s.ring q with sqBase := v &&& 0xFFFFFFFFFFFFF000 }) ∧
       exec (.registerWrite (BitVec.ofNat 17 (0x1108 + 0x40 * q.toNat)) 8 (some v)) s =
         .next (s.setRing q { s.ring q with cqBase := v &&& 0xFFFFFFFFFFFFF000 })) ∧
     (bit v 1 = false → exec (.registerWrite 0x10018 8 (some v)) s = exec (.hwinEn (bit v 0)) s) ∧
     (bit v 1 = true → exec (.registerWrite 0x10018 8 (some v)) s = exec .ringReset (s.setHwin (bit v 0))) ∧
     (∀ en, exec (.hwinEn en) s = .next { s with host := { s.host with hwinEn := en } }) ∧
     (∀ o ∈ [0x10000, 0x10008, 0x10010, 0x10020, 0x10028], exec (.registerWrite o 8 (some v)) s = .next s))

/-- RING_ENABLE, RING_STOP, RING_RESET and INT_DELAY_EXPIRE. An enable that passes its check starts both queues at 0 in phase 1,
any other is refused with RING_CFG and EN reads 0; a stop leaves the queues and what is in flight; a reset clears EN and sets
IDLE on every ring, drops what was not yet written (counted at the reset, log 57), and the commands in flight run on with no
completion, while the outcome of one whose final completion was held is kept for RESYNC; the delay of the oldest unsignalled
completion raises its ring's vector (R352, R353, R359, R360). -/
def Obligations.RingsAreEnabledStoppedAndReset : Prop :=
  ∀ (s : State) (q : RingId) (v : Word),
    let r := s.ring q
    let f : Ring := { r with port := bit v 62, sqLog2 := fld v 52 4, cqLog2 := fld v 48 4, intDelay := fld v 24 16, intCount := fld v 16 8 }
    let fits := 4 ≤ fld v 52 4 ∧ fld v 52 4 ≤ 12 ∧ 4 ≤ fld v 48 4 ∧ fld v 48 4 ≤ 12 ∧
      (bit v 62 = false ∨ s.grade = .a) ∧ (s.host.state = .mgmt ∨ s.host.state = .ready) ∧ r.inflight = 0
    (bit v 63 = true → r.en = false → fits → exec (.ringEnable q v) s = .next (s.setRing q { f with
      en := true, refused := false, err := 0, sqHead := 0, cqTail := 0, phase := true, sqTail := 0, cqHead := 0, cqUsed := 0,
      unsig := 0, sqAck := 0 })) ∧
    (bit v 63 = true → r.en = false → ¬ fits → exec (.ringEnable q v) s =
      .next (s.setRing q { f with en := false, refused := true, err := 0x1A })) ∧
    (bit v 63 = false → exec (.ringStop q v) s = .next (s.setRing q { f with en := false })) ∧
    (∃ u : State, exec .ringReset s = .next u ∧ u.mem = s.mem ∧ u.cores = s.cores ∧ u.regions = s.regions ∧
      u.host.heldIrqs = [] ∧ (∀ h ∈ u.host.held, h.ring = none) ∧
      (∀ p : RingId, (u.ring p).en = false ∧ (u.ring p).inflight = 0 ∧ (u.ring p).sqTail = (s.ring p).sqHead ∧
        (u.ring p).sqHead = (s.ring p).sqHead ∧ (u.ring p).cqTail = (s.ring p).cqTail ∧
        (u.ring p).droppedCount = (s.ring p).droppedCount + (s.ring p).owed) ∧
      (∀ k c, s.command k = some c → c.ended = false → u.command k = some { c with dropped := c.dropped || k != .boot }) ∧
      ∀ c ∈ s.nemar.cmds, c.ended = true → ∀ h, s.host.held.find? (fun h => let x := heldCompletion h.bytes
        c.ref == .tag x.2 && !x.1.long && !x.1.dup) = some h →
          ⟨c, (heldCompletion h.bytes).1.status⟩ ∈ u.nemar.finished) ∧
    (0 < r.unsig → r.unsigUsec + r.intDelay ≤ s.nemar.usec → exec (.intDelayExpire q) s =
      .next ((s.setRing q { r with unsig := 0 }).raiseIrq q.toNat)) ∧
    (r.unsig = 0 ∨ s.nemar.usec < r.unsigUsec + r.intDelay → exec (.intDelayExpire q) s = .next s)

/-- SUBMISSION_FETCH: a ring from which nothing may be fetched, or whose turn it is not, is left alone; else its head entry is
passed and the turn goes on, and the submission joins the commands in flight with its ring and region, or is answered
TAG_BUSY when its tag is in flight; with HTIME_V its HOST_TIME is logged either way. Its opcode, the STATE and the zero
fields of its header are then checked in order, the first failure deciding the status; a long command of the boot mailbox is
refused after an unknown opcode (log 65). The keys of host memory are the model's (log 6) (R351, R355, R358, R359, R364,
R365, R367). -/
def Obligations.SubmissionsAreFetchedAndChecked : Prop :=
  (∀ (s : State) (q : RingId),
    let r := s.ring q
    let b := s.headSubmission q
    let head := if r.sqHead + 1 = 2 ^ r.sqLog2 then 0 else r.sqHead + 1
    (s.mayFetch q = true ↔ s.canFetch q = true ∧ ∀ k, k < 16 → s.canFetch (BitVec.ofNat 4 k) = true →
      (q.toNat + 15 - s.host.lastRing) % 16 ≤ (k + 15 - s.host.lastRing) % 16) ∧
    (s.mayFetch q = false → exec (.submissionFetch q) s = .next s) ∧
    (s.mayFetch q = true → s.tagBusy b.tag = false → exec (.submissionFetch q) s =
      .next ((({ s with host := { s.host with lastRing := q.toNat } } : State).setRing q { r with
        sqHead := head, inflight := r.inflight + 1, owed := r.owed + (if isLongOp b.opcode.toNat then 2 else 1) }).checkIn b (.tag b.tag) q)) ∧
    (s.mayFetch q = true → s.tagBusy b.tag = true → ∃ u : State, exec (.submissionFetch q) s = .next u ∧
      u.nemar.cmds = s.nemar.cmds ∧ (u.ring q).sqHead = head ∧ (u.ring q).inflight = r.inflight ∧
      (u.ring q).cqUsed = r.cqUsed + 1 ∧ u.host.lastRing = q.toNat ∧
      u.host.errTagdup = (if s.host.errTagdup = 0xFFFF then 0xFFFF else s.host.errTagdup + 1) ∧
      (r.cqBase.toNat + 32 * r.cqTail + 32 ≤ 2 ^ 64 → getByte u.mem (hostKey (r.cqBase.toNat + 32 * r.cqTail)) = 0x06 ∧
        getByte u.mem (hostKey (r.cqBase.toNat + 32 * r.cqTail + 1)) = 0x10) ∧
      (b.htimeV = true → ∃ e, u.nemar.log.getLast? = some e ∧ e.code = rcHostTime ∧ e.w0 = b.hostTime ∧
        e.w1 = BitVec.ofNat 64 s.nemar.usec ∧ e.w2 = BitVec.ofNat 64 q.toNat))) ∧
  (∀ h, hostKey h = if h % 2 ^ 64 < 2 ^ 44 then 0x100000000000 + h % 2 ^ 64 else 2 ^ 80 + h % 2 ^ 64) ∧
  (∀ (s : State) (b : Submission) (k : CmdRef) (q : RingId),
    let op := b.opcode.toNat
    let named : Bool := (0x10 ≤ op && op ≤ 0x18) || op == 0x22 || op == 0x35
    let c : Command := { sub := b, ref := k, ring := q, fetchUsec := s.nemar.usec,
                         region := if named then (b.arg 0).extractLsb' 0 8 else 0 }
    let t := ({ s with nemar := { s.nemar with cmds := s.nemar.cmds ++ [c] } } : State).logHostTime b (k == .boot) q
    (isKnownOp op = false → s.checkIn b k q = t.finish k 0x1001 0 0) ∧
    (isKnownOp op = true → k = .boot → isLongOp op = true → s.checkIn b k q = t.finish k 0x1007 0 0) ∧
    (isKnownOp op = true → (k ≠ .boot ∨ isLongOp op = false) →
      (s.host.state.permits op = false → s.checkIn b k q = t.finish k 0x1004 0 0) ∧
      (s.host.state.permits op = true →
        (b.zero0 = false ∨ (k ≠ .boot ∧ b.inline = true) → s.checkIn b k q = t.finish k 0x1002 0 0) ∧
        (b.zero0 = true → (k = .boot ∨ b.inline = false) →
          (b.zero3 = false → s.checkIn b k q = t.finish k 0x1002 0 3) ∧
          (b.zero3 = true → s.checkIn b k q = t)))))

/-- FIRMWARE permits IDENTIFY, RESYNC, CSR_READ, LOG_READ, FAULTMAP_READ, CAL_EXPORT and FW_ACTIVATE, MGMT those with CSR_WRITE,
BOUNDS_SET, CAL_IMPORT, FW_STAGE and ATTEST, READY every command, HALTED IDENTIFY and RESYNC only (R365); a submission of
another opcode that passes the check before it runs no more and changes no core and no region; a boot command that a halted
module refuses still completes in the mailbox (R351). -/
def Obligations.StatesPermitTheirCommands : Prop :=
  (∀ op, HState.permits .firmware op = true ↔ op ∈ [0x01, 0x02, 0x03, 0x05, 0x06, 0x53, 0x51]) ∧
  (∀ op, HState.permits .mgmt op = true ↔
    op ∈ [0x01, 0x02, 0x03, 0x05, 0x06, 0x53, 0x51, 0x04, 0x07, 0x54, 0x50, 0x52]) ∧
  (∀ op, HState.permits .ready op = true) ∧
  (∀ op, HState.permits .halted op = true ↔ op ∈ [0x01, 0x02]) ∧
  (∀ (s : State) (b : Submission) (k : CmdRef) (q : RingId),
    isKnownOp b.opcode.toNat = true → (k ≠ .boot ∨ isLongOp b.opcode.toNat = false) →
    s.host.state.permits b.opcode.toNat = false → s.host.state ≠ .halted → s.command k = none →
    (∀ x, (s.checkIn b k q).command k = some x → x.ended = true) ∧ (s.checkIn b k q).cores = s.cores ∧
      (s.checkIn b k q).regions = s.regions) ∧
  ∀ (s : State) (b : Submission) (q : RingId),
    s.host.state = .halted → s.command .boot = none → 2 < b.opcode.toNat →
    (s.checkIn b .boot q).command .boot = none ∧ (s.checkIn b .boot q).host.bootBusy = false ∧
      (s.checkIn b .boot q).host.bootDone = true

/-- The HDM window and HOST_SNOOP. A commit in READY maps its half, unless that is of an absent stack or the half of the
placement table: then VALID is cleared and the error bit set. An access to a line of the mapped half crosses the mesh from
the edge agent that serves its address, through the point that the die's map gives the line, and the FLIT_HOP that brings its
flit to its end reads the line with its mark and records it as host-held, back-invalidating the oldest entry of a full
filter, or writes the line; of an unreachable stack, or with no point to enter at (log 127), a read is answered poisoned, a
write dropped, both counted; a host snoop is answered RspI. The window is served while either port carries traffic (R290,
R300, R301, R343 to R345, R349, R350; logs 133, 138). -/
def Obligations.HdmLinesAreReadAndWritten : Prop :=
  ∀ (s : State),
    let h := s.host.hdmHalf
    let half := s.host.hdmMap
    (s.host.state = .ready → stackExists s.grade (h.toNat / 2) = true → h ≠ 5 → exec .hdmDecoderCommit s =
      .next { s with host := { s.host with hdmValid := true, hdmError := false, hdmMap := h } }) ∧
    (s.host.state ≠ .ready ∨ stackExists s.grade (h.toNat / 2) = false ∨ h = 5 → exec .hdmDecoderCommit s =
      .next { s with host := { s.host with hdmValid := false, hdmError := true } }) ∧
    (∀ a, exec (.hostSnoop a) s = .next { s with host := { s.host with rspI := s.host.rspI + 1 } }) ∧
    (∀ (o : BitVec 36) (p : Bool), s.host.hdmValid = true → ((s.cxl 0).carries = true ∨ (s.cxl 1).carries = true) →
      let a := 0x040000000000 + half.toNat * 0x1000000000 + o.toNat / 64 * 64
      let e := a / 4096 % 4
      let lost := fun (w : Option (BitVec 512)) => ∃ u : State, exec (.hdmAccess o w p) s = .next u ∧ u.mem = s.mem ∧
        u.cores = s.cores ∧ u.mesh = s.mesh ∧
        (w = none → ∃ d, u.host.hdmAnswer = some (d, true)) ∧
        u.host.errHdmPois = (if s.host.errHdmPois = 0xFFFF then 0xFFFF else s.host.errHdmPois + 1)
      (s.stackUp (half.toNat / 2) = true → ∀ w,
        (∀ j, (s.mesh.maps[e]?.getD {}).point (a / 128) = some j → ∃ u g, exec (.hdmAccess o w p) s = .next u ∧
          u.mem = s.mem ∧ u.host = s.host ∧ u.cores = s.cores ∧
          u.mesh.transits = s.mesh.transits ++ [⟨e, .hdm a w p, [s.mesh.nextFlit]⟩] ∧
          find? u.mesh.flits s.mesh.nextFlit = some g ∧ g.kind = .edgeReq e a w.isSome ∧ g.fifo = true ∧
          (g.px, g.py) = edgePoint e j ∧ g.dx = physPX (stackRouter a) ∧ g.dy = physPY (stackRouter a)) ∧
        ((s.mesh.maps[e]?.getD {}).point (a / 128) = none → lost w)) ∧
      (s.stackUp (half.toNat / 2) = false → ∀ w, lost w)) ∧
    (∀ (a n : Nat) (g : MeshFlit) (p : Bool) (d : BitVec 512),
      let e := a / 4096 % 4
      let r := s.router (physAt g.px g.py)
      a % 64 = 0 → find? s.mesh.flits n = some g → g.delivered = false → g.fifo = false → r.isolated = false →
      s.yields n g = false →
      (s.mesh.transits = [⟨e, .hdm a none p, [n]⟩] → g.kind = .edgeBack e a → (r.choose g).1 = 5 → g.edge = true →
        isAttachment (physAt g.px g.py) = true → ∀ ls, s.host.snoop[e]? = some ls →
        ∃ u : State, exec (.flitHop n .clean) s = .next u ∧ u.mem = s.mem ∧ u.marks = s.marks ∧ u.cores = s.cores ∧
          u.mesh.transits = [] ∧
          u.host.hdmAnswer = some (BitVec.ofNat 512 (ofBytes (getBytes s.mem a 64)), anyBad (s.readMem a 64)) ∧
          (∃ ks, u.host.snoop[e]? = some ks ∧ a / 64 ∈ ks) ∧
          u.host.bisnpInv = s.host.bisnpInv + (if 262144 ≤ (ls.filter (fun k => k != a / 64)).length then 1 else 0)) ∧
      (s.mesh.transits = [⟨e, .hdm a (some d) p, [n]⟩] → g.kind = .edgeReq e a true → (r.choose g).1 = 4 → g.edge = false →
        ∃ u : State, exec (.flitHop n .clean) s = .next u ∧ u.cores = s.cores ∧ u.mesh.transits = [] ∧
          (∀ j, j < 64 → getByte u.mem (a + j) = d.extractLsb' (8 * j) 8) ∧
          ∀ x, (x < a ∨ a + 64 ≤ x) → getByte u.mem x = getByte s.mem x)) ∧
    (∀ o w p, s.host.hdmValid = false ∨ ((s.cxl 0).carries = false ∧ (s.cxl 1).carries = false) → exec (.hdmAccess o w p) s = .next s)

/-- CXL_PORT_DOWN, CXL_PORT_UP, IDE_FAILURE and DOE_REQUEST on a port of the grade: a port that trains, to 32 or 64 GT/s and 8 or
16 lanes, comes up with its calibrated taps and releases what was held for it (its Bus Master Enable a free value, log 135);
one whose integrity failed has both its streams insecure and carries nothing until they are keyed again; SPDM 1.2 is
negotiated, then a key exchange and FINISH open a session, keys need the session and a secure stream its own keys, each step
refused out of turn, any other request with UnsupportedRequest (the order of the steps is log 60); the other port is
untouched (R343, R345, R434, R440, R447, R448). -/
def Obligations.CxlPortsComeAndGo : Prop :=
  ∀ (s : State) (p : BitVec 1),
    let x := s.cxl p.toNat
    let still := fun (u : State) => u.mem = s.mem ∧ u.cores = s.cores ∧ u.regions = s.regions ∧ ∀ k, k ≠ p.toNat → u.cxl k = s.cxl k
    (cxlExists s.grade p.toNat = true →
      (∃ u : State, exec (.cxlPortDown p) s = .next u ∧ u.cxl p.toNat = { x with up := false, speed := 0, width := 0 } ∧
        still u ∧ u.nemar.cmds = s.nemar.cmds) ∧
      (∃ u : State, exec (.ideFailure p) s = .next u ∧
        (u.cxl p.toNat) = { u.cxl p.toNat with ideFailed := true } ∧ (u.cxl p.toNat).carries = false ∧
        (∀ k, ((u.cxl p.toNat).stream k).secure = false ∧ ((u.cxl p.toNat).stream k).keys = false) ∧ still u) ∧
      (∀ w d i, (w = 5 ∨ w = 6) → (d = 2 ∨ d = 4) → s.plant.powerGood = true → s.plant.edgeLost[2 * p.toNat]? = some false →
        x.ideFailed = false → s.host.held = [] → ∃ u : State, exec (.cxlPortUp p w d i) s = .next u ∧
          u.cxl p.toNat = { x with up := true, speed := w, width := d, pid := i, busMaster := bit (Config.freeByte s.free) 0
                                   presets := (rangeFrom (256 + 16 * p.toNat) 16).map (s.calValue 3) } ∧
          still u ∧ u.host.heldIrqs = [] ∧ u.host.irqs = s.host.irqs ++ s.host.heldIrqs) ∧
      (∀ w d i, (w ≠ 5 ∧ w ≠ 6) ∨ (d ≠ 2 ∧ d ≠ 4) ∨ s.plant.powerGood = false ∨ s.plant.edgeLost[2 * p.toNat]? = some true →
        exec (.cxlPortUp p w d i) s = .next s) ∧
      (∀ m : DoeMessage, x.up = true → s.host.held = [] →
        let y := x.doeAnswer p.toNat m
        let refused := y = (x, .unexpectedRequest)
        ∃ u : State, exec (.doeRequest p m) s = .next u ∧ u.cxl p.toNat = { y.1 with doe := x.doe ++ [(m, y.2)] } ∧ still u ∧
          (match m with
          | .cdat => ∃ bs, y = (x, .cdat bs)
          | .spdmVersion => y = ({ x with spdm := 1, kex := false }, .version 1 2)
          | .spdmCapabilities => if x.spdm = 0 then refused else y = ({ x with spdm := max 2 x.spdm }, .capabilities)
          | .spdmAlgorithms => if x.spdm < 2 then refused else y = ({ x with spdm := 3 }, .algorithms)
          | .spdmDigests => if x.spdm < 3 then refused else ∃ bs, y = (x, .digests bs) ∧ bs.length = 48
          | .spdmCertificate => if x.spdm < 3 then refused else ∃ bs, y = (x, .certificate bs)
          | .spdmKeyExchange => if x.spdm < 3 then refused else y.1 = { x with kex := true, exchanges := x.exchanges + 1 } ∧
              ∃ bs, y.2 = .keyExchange bs ∧ bs.length = 96
          | .spdmFinish => if x.kex = false then refused else y = ({ x with kex := false, session := true }, .finish)
          | .spdmUnsupported => y = (x, .unsupportedRequest)
          | .ideKeyProgram k => if x.session = false then refused else y.2 = .keysProgrammed k ∧
              (y.1.stream k).keys = true ∧ (y.1.stream k).secure = (x.stream k).secure ∧
              (∀ j, j ≠ k → y.1.stream j = x.stream j) ∧
              ((∀ j, j ≠ k → (x.stream j).lost = false) → y.1.ideFailed = false)
          | .ideSetSecure k c => if x.session = false ∨ (x.stream k).keys = false then refused else y.2 = .nowSecure k ∧
              (y.1.stream k).secure = true ∧ (y.1.stream k).containment = (c && k == .cachemem) ∧
              (∀ j, j ≠ k → y.1.stream j = x.stream j)))) ∧
    (cxlExists s.grade p.toNat = false → exec (.cxlPortDown p) s = .next s ∧ exec (.ideFailure p) s = .next s ∧
      ∀ m, exec (.doeRequest p m) s = .next s)

/-! ## Register actions, bring-up, the store -/

/-- CLEAR zeroes the counters of the stall-counter sub-block, FREEZE sets its bit, ARB_COMMIT commits every shadow word or
refuses them all with its reason (ARB_RANGE for an AGE of 11 to 14, ARB_STARVE for 15 on a router output), GO compares the
generators, and CORE_POUR starts a contribution or is refused with FAIL (R84, R316, R335, R415). -/
def Obligations.RegisterActionsTakeEffect : Prop :=
  ∀ (s : State) (c : CoreId),
    let l := c.toNat
    let k := s.core l
    (∃ u : State, exec (.clear c) s = .next u ∧ u = s.setCore l (u.core l) ∧ (u.core l).stallTotal = 0 ∧
      (u.core l).units = Vector.replicate 8 {} ∧ (u.core l).sregs = k.sregs ∧ (u.core l).freeze = k.freeze ∧
      ∀ q, q < 16 → (u.core l).queue q = { k.queue q with stall := 0, hwm := 0 }) ∧
    (∀ on, exec (.freeze c on) s = .next (s.setCore l { k with freeze := on })) ∧
    ((∃ e ∈ k.arbShadow, 11 ≤ fld e.2 32 4 ∧ fld e.2 32 4 ≤ 14) → exec (.arbCommit c) s =
      .next (s.setCore l { k with arbRefused := true, arbReason := 0x15 })) ∧
    ((∀ e ∈ k.arbShadow, fld e.2 32 4 < 11 ∨ fld e.2 32 4 = 15) → (∃ e ∈ k.arbShadow, fld e.2 32 4 = 15 ∧ 16 ≤ e.1 ∧ e.1 ≤ 20) →
      exec (.arbCommit c) s = .next (s.setCore l { k with arbRefused := true, arbReason := 0x16 })) ∧
    ((∀ e ∈ k.arbShadow, fld e.2 32 4 < 11 ∨ (fld e.2 32 4 = 15 ∧ ¬(16 ≤ e.1 ∧ e.1 ≤ 20))) → (k.arbShadow.map Prod.fst).Nodup → ∃ u : State,
      exec (.arbCommit c) s = .next u ∧ u = s.setCore l (u.core l) ∧ (u.core l).arbRefused = false ∧
      (u.core l).arbCommits = k.arbCommits + 1 ∧ (u.core l).arbShadow = k.arbShadow ∧
      ∀ a, look (u.core l).arbActive a 0 = look k.arbShadow a (look k.arbActive a 0)) ∧
    (let n := s.nemar
      let place := fun (w : Word) => ((fld w 0 32 * 65536 + fld w 32 16 : Nat) : Int)
      let d := max (-2147483647) (min 2147483647 (place n.rngSaved - place n.rngDerived))
      ∃ u : State, exec .go s = .next u ∧ bit u.nemar.rngChk 1 = true ∧
        (bit u.nemar.rngChk 3 = true ↔ n.rngSavedSeed ≠ n.rngDerivedSeed) ∧
        (bit u.nemar.rngChk 2 = true ↔ n.rngSavedSeed ≠ n.rngDerivedSeed ∨ n.rngSaved ≠ n.rngDerived) ∧
        (fld u.nemar.rngChk 16 32 : Int) = d % 4294967296 ∧ u.cores = s.cores ∧ u.mem = s.mem ∧
        (s.host.state ≠ .halted → bit u.nemar.rngChk 2 = true → ∃ e, u.nemar.log.getLast? = some e ∧ e.code = 0xE003 ∧
          e.w0 = n.rngSaved ∧ e.w1 = n.rngDerived ∧ e.w2 = n.rngSavedSeed ∧ e.w3 = n.rngDerivedSeed)) ∧
    (∀ v, s.regionOf l ≠ none →
      let i := fld v 53 10
      let x := s.pourSlot i
      (s.pourRefused l v = false → ∃ u : State, exec (.corePour c v) s = .next u ∧ u.cores = s.cores ∧ u.mem = s.mem ∧
        (∀ j, j ≠ i → u.pourSlot j = s.pourSlot j) ∧
        ∃ e, u.fabric.contribs = s.fabric.contribs ++ [e] ∧ e.core = l ∧ e.slot = i ∧
          e.kappa = fld v 41 12 ∧ e.src = fld v 0 41 ∧ e.round = look x.begun (fld v 41 12) 0 ∧
          look (u.pourSlot i).begun (fld v 41 12) 0 = e.round + 1) ∧
      ((256 * reducers s.grade ≤ i ∨ bit x.w0 63 = false ∨ fld x.w0 0 13 ≤ fld v 41 12) → ∃ u : State,
        exec (.corePour c v) s = .next u ∧ (u.core l).pourFail = true ∧ (∀ j, j ≠ l → u.core j = s.core j) ∧
        u.fabric = s.fabric ∧ u.mem = s.mem ∧ u.core l = { k with pourFail := true }))

/-- POWER_ON and BRING_UP. Power good starts the sequence over and takes the signing key's index from the newest record; each
BRING_UP then carries out the next row of R420. The ROM mounts the half of the journal with the higher GEN, whose records
give their values, and goes no further without a valid one; it loads the image of ACTIVE, else of FALLBACK, else of the VALID
slot with the highest version, whichever verifies, and stays where it is with none; a slot that it tries and that fails is
recorded BAD. The harts of EN start, then the deputies, and the CXL ports train; STATE becomes MGMT; the outer dies and then
the inner ones come up, but for those that cannot; the module's routes are planned, the placement table is cleared and STATE
becomes READY. That a report names what fails, and what the flash does from then on, is the model's form of the row (logs 48
and 114) (R420 to R423, R426, R431, R442). -/
def Obligations.BringUpGoesRowByRow : Prop :=
  ∀ (s : State) (t : BootReport),
    let st := s.store
    let s' : State := { s with store := { st with verifyWeak := t.verifyWeak, verifyFails := t.verifyFails } }
    (s.plant.powerGood = true → exec .powerOn s = .next s) ∧
    (s.plant.powerGood = false → exec .powerOn s = .next { s with
      plant := { s.plant with powerGood := true, bootStep := 0 }
      store := { st with powerOns := st.powerOns + 1, sigIdx := st.sigNext } }) ∧
    (s.plant.powerGood = false → exec (.bringUp t) s = .next s) ∧
    (t.badRecord = none → ∀ m, s'.mount t = some m →
      (t.badHalves = [] → st.other = none → m.store.journal = st.journal) ∧
      (t.badHalves = [] → ∀ o, st.other = some o → m.store.journal = if st.gen < o.gen then o.records else st.journal) ∧
      (∀ a e b, m.store.journal = a ++ e :: b → e.kind = 5 → (∀ x ∈ b, x.kind ≠ 5) →
        m.store.sigIdx = (e.body.getD 0 0).toNat) ∧
      (∀ a e b, m.store.journal = a ++ e :: b → e.kind = 4 → (∀ x ∈ b, x.kind ≠ 4) →
        m.store.active = (e.body.getD 0 0).extractLsb' 0 4 ∧ m.store.fallback = (e.body.getD 0 0).extractLsb' 4 4)) ∧
    (s.plant.powerGood = true → s.host.state ≠ .halted →
      let row := fun (n : Nat) (u : State) => exec (.bringUp t) s = .next u ∧ u.plant.bootStep = n
      (s.plant.bootStep = 0 → s'.mount t = none → exec (.bringUp t) s = .next s') ∧
      (s.plant.bootStep = 0 → ∀ m, s'.mount t = some m →
        let act := m.store.active
        let fall := m.store.fallback
        let good := fun (i : Nat) => m.store.verifies t i
        (good act.toNat = true → ∃ u : State, row 1 u ∧ u.store.loaded = act) ∧
        (good act.toNat = false → good fall.toNat = true → ∃ u : State, row 1 u ∧ u.store.loaded = fall) ∧
        (good act.toNat = false → good fall.toNat = false →
          ∀ i, i < 4 → m.store.valid i = true → good i = true →
            (∀ j, j < 4 → j ≠ i → m.store.valid j = true → good j = true → m.store.version j < m.store.version i) →
            ∃ u : State, row 1 u ∧ u.store.loaded = BitVec.ofNat 4 i) ∧
        (good act.toNat = false → good fall.toNat = false → (∀ i, i < 4 → m.store.valid i = true → good i = false) →
          ∃ u : State, row 0 u ∧ u.store.loaded = st.loaded) ∧
        (act.toNat < 4 → good act.toNat = false → t.verifyFails = false →
          ∃ u : State, exec (.bringUp t) s = .next u ∧ (u.store.slot act.toNat).state = 2)) ∧
      (s.plant.bootStep = 1 → t.verifyFails = false → st.used + 160 ≤ 402653184 →
        ∃ u : State, row 2 u ∧ u.store.journal.length = st.journal.length + 1 ∧ ∀ i, i < 4 → u.hartRuns i = true) ∧
      (s.plant.bootStep = 2 → (t.deputyFails = true ∨ true ∈ s.plant.edgeLost.toList ∨ t.cxlUp = []) →
        exec (.bringUp t) s = .next s') ∧
      (s.plant.bootStep = 2 → t.deputyFails = false → true ∉ s.plant.edgeLost.toList → 0 ∈ t.cxlUp →
        ∃ u : State, row 3 u ∧ (u.cxl 0).up = true) ∧
      (s.plant.bootStep = 3 → ∃ u : State, row 4 u ∧ u.host.state = .mgmt) ∧
      (s.plant.bootStep = 4 → ∃ u : State, row 5 u ∧ ∀ d ∈ [0, 1, 2, 3, 4, 7, 8, 11, 12, 13, 14, 15],
        if ∃ x ∈ t.diesOut, x.toNat = d then d ∈ u.plant.dieOut else d ∈ u.plant.meshUp ∧ d ∉ u.plant.dieOut) ∧
      (s.plant.bootStep = 5 → ∃ u : State, row 6 u ∧ ∀ d ∈ [5, 6, 9, 10],
        if ∃ x ∈ t.diesOut, x.toNat = d then d ∈ u.plant.dieOut else d ∈ u.plant.meshUp ∧ d ∉ u.plant.dieOut) ∧
      (s.plant.bootStep = 6 → s'.planMeets { trigger := .bringUp, entries := t.entries, unreachable := t.unreached } = true →
        ∃ u : State, row 7 u ∧ u.host.state = .ready ∧ u.tiers.pt = [] ∧
          ∀ l, l ∈ u.nemar.unreached ↔ ∃ c ∈ t.unreached, c.toNat = l) ∧
      (s.plant.bootStep = 6 → s'.planMeets { trigger := .bringUp, entries := t.entries, unreachable := t.unreached } = false →
        exec (.bringUp t) s = .next s') ∧
      (7 ≤ s.plant.bootStep → exec (.bringUp t) s = .next s'))

/-- COUNTERS_RECORD, JOURNAL_COMPACTION and LOWER_TREE_BUILD. A COUNTERS record holds the four lifetime counts. A compaction that
is due goes in steps: the alternate half is erased, the records that still hold a present value are copied with their JSEQ,
those committed since follow with a COMPACTED record that names the newest JSEQ of the start, and the half with the next GEN
becomes active, whereupon what has waited for room is written; the old half is erased last. The tree of the index in turn is
built first, with the top tree's signature over its key, then the one after it once signing has moved in, and an attestation
that waited for its tree is answered with the report and its signature (R427, R429, R443, R444). -/
def Obligations.TheStoreIsKept : Prop :=
  ∀ (s : State),
    let st := s.store
    (s.plant.powerGood = true → 2 ≤ s.plant.bootStep → s.host.state ≠ .halted → st.verifyFails = false → st.full [4] = false →
      ∃ u : State, exec .countersRecord s = .next u ∧ u.store.jseq = st.jseq + 1 ∧ u.store.slots = st.slots ∧
      u.store.journal = st.journal ++ [⟨st.jseq, 6, 0, [BitVec.ofNat 64 st.powerOns, BitVec.ofNat 64 st.minutes,
        BitVec.ofNat 64 st.lifeTransient, BitVec.ofNat 64 st.lifeLasting]⟩]) ∧
    (st.compactDue = false → st.compaction = none → exec .journalCompaction s = .next s) ∧
    (s.plant.powerGood = true → s.host.state ≠ .halted →
      let runs := fun (u : State) => exec .journalCompaction s = .next u ∧ u.store.slots = st.slots ∧ u.store.cal = st.cal ∧
        u.cores = s.cores ∧ u.mem = s.mem
      (st.compaction = none → st.compactDue = true → ∃ u c, runs u ∧ u.store.journal = st.journal ∧ u.store.other = none ∧
        u.store.compaction = some c ∧ c.next = st.jseq ∧ c.step = 1) ∧
      (∀ c, st.compaction = some c → c.step = 1 → ∃ u d, runs u ∧ u.store.journal = st.journal ∧
        u.store.compaction = some d ∧ d.next = c.next ∧ d.step = 2 ∧
        (∀ e ∈ d.records, e.kind ≠ 1 → e ∈ st.journal ∧ e.jseq < c.next) ∧
        ∀ a e b, st.journal.filter (fun r => r.jseq < c.next) = a ++ e :: b → e.kind ∉ [1, 7, 8] →
          (∀ x ∈ b, x.kind ≠ e.kind ∨ x.key ≠ e.key) → e ∈ d.records) ∧
      (∀ c, st.compaction = some c → c.step = 2 → st.unrecorded = [] → s.nemar.replacements = [] →
        let rs := c.records ++ st.journal.filter (fun r => c.next ≤ r.jseq) ++
          [⟨st.jseq, 8, 0, [BitVec.ofNat 64 (c.next - 1), 0]⟩]
        ∃ u, runs u ∧ u.store.gen = st.gen + 1 ∧ u.store.halfB = !st.halfB ∧
          (∃ o, u.store.other = some o ∧ o.records = st.journal ∧ o.gen = st.gen) ∧
          (st.waiting = [] → u.store.journal = rs ∧ u.store.jseq = st.jseq + 1) ∧
          (∀ kind key body, st.waiting = [(kind, key, body)] → usedBy rs + recordBytes body.length ≤ 402653184 →
            u.store.journal = rs ++ [⟨st.jseq + 1, kind, key, body⟩] ∧ u.store.waiting = [])) ∧
      (∀ c, st.compaction = some c → 2 < c.step → ∃ u, runs u ∧ u.store.journal = st.journal ∧ u.store.other = none ∧
        u.store.compaction = none)) ∧
    (s.host.state = .mgmt ∨ s.host.state = .ready →
      (st.attest = none →
        let t := st.sigIdx / 32768
        (st.tree ≠ some t → st.treeNext ≠ some t → exec .lowerTreeBuild s = .next { s with store := { st with
          tree := some t, topSig := topSignature t, treeNext := none, topSigNext := [] } }) ∧
        (st.tree = some t → st.treeNext = none → st.treeUsed = some t → t < 1023 → exec .lowerTreeBuild s =
          .next { s with store := { st with treeNext := some (t + 1), topSigNext := topSignature (t + 1) } }) ∧
        (st.tree = some t → st.treeUsed ≠ some t → exec .lowerTreeBuild s = .next s)) ∧
      (∀ k q head c, st.attest = some (k, q, head) → st.tree ≠ some (q / 32768) → st.treeNext ≠ some (q / 32768) →
        s.command k = some c → s.bufUp c.sub = true → ∃ u : State,
          exec .lowerTreeBuild s = .next ((u.bufWrite c.sub 0 (reportBytes q (topSignature (q / 32768)) head)).succeed k
            (BitVec.ofNat 64 (33554432 - (q + 1))) 0) ∧
          u.store.attest = none ∧ u.store.tree = some (q / 32768) ∧ u.store.treeUsed = some (q / 32768) ∧ u.mem = s.mem)) ∧
    (s.host.state = .firmware ∨ s.host.state = .halted → exec .lowerTreeBuild s = .next s)

/-! ## Invariants and reset -/

/-- Both memories keep their canonical form: addresses strictly rising, no byte equal to what an unlisted one reads as. -/
def Obligations.MemoryKeepsItsForm : Prop :=
  ∀ s t : State, s.mem.wf = true → s.host.boot.wf = true → step s = .next t → t.mem.wf = true ∧ t.host.boot.wf = true

/-- Reset meets the invariant of the memories: nothing is listed. -/
def Obligations.ResetMemoryIsCanonical : Prop :=
  State.reset.mem.wf = true ∧ State.reset.host.boot.wf = true ∧ (∀ a, getByte State.reset.mem a = 0) ∧
  State.reset.pending = []

/-- What the spec gives for reset: regions FREE with their set zero and no core running, rings disabled, idle and zero, the host
window closed and the decoder not valid, ports OFF and DOWN, pour slots not enabled, the bound set, MOD_FAULT_CTRL,
MOD_LAYOUT and MOD_USEC at their reset values, and no command in flight (R49, R57, R65, R273, R323, R334, R340, R347, R352,
R391). -/
def Obligations.ResetHoldsTheGivenValues : Prop :=
  let s := State.reset
  (∀ r, (s.region r).state = .free ∧ (s.region r).rect = 0 ∧ (s.region r).ctrl = 0) ∧
  (∀ l, (s.core l).running = false ∧ (s.core l).pc = 0 ∧ (s.core l).bank = false) ∧
  (∀ q : RingId, (s.ring q).en = false ∧ (s.ring q).cfgWord = 0 ∧ (s.ring q).inflight = 0 ∧ (s.ring q).sqBase = 0 ∧
    (s.ring q).cqBase = 0) ∧
  s.host.hwinEn = false ∧ s.host.hdmValid = false ∧ s.host.heartbeat = 0 ∧ s.nemar.cmds = [] ∧
  (∀ p, (s.zport p).state = .down ∧ (s.zport p).cfg = 0) ∧ (∀ k, (s.pourSlot k).w0 = 0) ∧
  s.plant.pcap = 420 ∧ (∀ q, fld (s.quad q).rateBounds 16 10 = 850 ∧ fld (s.quad q).rateBounds 8 8 = 160 ∧
    fld (s.quad q).rateBounds 0 8 = 90) ∧
  fld s.tiers.bounds 36 12 = 256 ∧ fld s.tiers.bounds 28 8 = 10 ∧ fld s.tiers.bounds 16 12 = 64 ∧
  fld s.tiers.bounds 4 12 = 4 ∧ s.nemar.sramLimit = 16 ∧ s.nemar.auto = true ∧ s.fabric.layout = 0 ∧ s.nemar.usec = 0
end

