-- ==== Sys2Proof/Laws/Table.lean ====
section
/-! SUPPORT. Laws/Table.lean: reading a sparse table after a write or a removal, and the numbers of a set. -/

namespace Sys2Proof.Machine

theorem find?_put_self {α : Type} (t : Table α) (a : Nat) (v : α) : find? (put t a v) a = some v := by
  induction t with
  | nil => simp [put, find?]
  | cons e t ih =>
    obtain ⟨k, w⟩ := e
    unfold put
    by_cases h1 : a < k
    · simp [h1, find?]
    · by_cases h2 : a = k
      · simp [h2, find?]
      · simp [h1, h2, find?, ih, Ne.symm h2]

theorem find?_put_other {α : Type} (t : Table α) {a b : Nat} (v : α) (h : b ≠ a) : find? (put t a v) b = find? t b := by
  induction t with
  | nil => simp [put, find?, h.symm]
  | cons e t ih =>
    obtain ⟨k, w⟩ := e
    unfold put
    by_cases h1 : a < k
    · simp [h1, find?, h.symm]
    · by_cases h2 : a = k
      · subst h2; simp [find?, h.symm]
      · simp [h1, h2, find?, ih]

theorem find?_drop_self {α : Type} (t : Table α) (a : Nat) : find? (drop t a) a = none := by
  induction t with
  | nil => rfl
  | cons e t ih =>
    obtain ⟨k, w⟩ := e
    by_cases h : k = a
    · subst h; simpa [drop] using ih
    · simpa [drop, h, find?] using ih

theorem find?_drop_other {α : Type} (t : Table α) {a b : Nat} (h : b ≠ a) : find? (drop t a) b = find? t b := by
  induction t with
  | nil => rfl
  | cons e t ih =>
    obtain ⟨k, w⟩ := e
    by_cases h1 : k = a
    · subst h1
      have : find? (drop ((k, w) :: t) k) b = find? (drop t k) b := by simp [drop]
      rw [this, ih]; simp [find?, h.symm]
    · simp only [drop, ne_eq, decide_not] at ih
      simp [drop, h1, find?, ih]

/-- Reading a table after a write. -/
theorem look_put {α : Type} (t : Table α) (a b : Nat) (v d : α) : look (put t a v) b d = if b = a then v else look t b d := by
  by_cases h : b = a
  · subst h; simp [look, find?_put_self]
  · simp [look, find?_put_other t v h, h]

@[simp] theorem look_put_self {α : Type} (t : Table α) (a : Nat) (v d : α) : look (put t a v) a d = v := by
  simp [look_put]

theorem look_put_other {α : Type} (t : Table α) {a b : Nat} (v d : α) (h : b ≠ a) : look (put t a v) b d = look t b d := by
  simp [look_put, h]

/-- Reading a table after a removal. -/
theorem look_drop {α : Type} (t : Table α) (a b : Nat) (d : α) : look (drop t a) b d = if b = a then d else look t b d := by
  by_cases h : b = a
  · subst h; simp [look, find?_drop_self]
  · simp [look, find?_drop_other t h, h]

/-- Two writes of one key: the later stands. -/
theorem put_put {α : Type} (t : Table α) (a : Nat) (v w : α) : put (put t a v) a w = put t a w := by
  induction t with
  | nil => simp [put]
  | cons e t ih =>
    obtain ⟨k, x⟩ := e
    unfold put
    by_cases h1 : a < k
    · simp [h1, put]
    · by_cases h2 : a = k
      · subst h2; simp [put]
      · simp [h1, h2, put, ih]

theorem mem_addNum (t : NumSet) (a b : Nat) : b ∈ addNum t a ↔ b = a ∨ b ∈ t := by
  induction t with
  | nil => simp [addNum]
  | cons k t ih =>
    unfold addNum
    by_cases h1 : a < k
    · simp [h1]
    · by_cases h2 : a = k
      · subst h2; simp
      · simp [h1, h2, ih, or_left_comm]

theorem mem_dropNum (t : NumSet) (a b : Nat) : b ∈ dropNum t a ↔ b ∈ t ∧ b ≠ a := by simp [dropNum]

end Sys2Proof.Machine
end

