-- ==== Sys2Proof/Laws/Memory.lean ====
section
/-! SUPPORT. Laws/Memory.lean: reading a byte after a write, and the canonical form that every memory operation keeps. -/

namespace Sys2Proof.Machine

/-- Reading a byte after one byte is written. -/
theorem getByte_setByte (m : Memory) (a x : Nat) (b : Byte) :
    getByte (setByte m a b) x = if x = a then b else getByte m x := by
  unfold setByte getByte
  by_cases h : b = unlisted
  · simp [h, look_drop]
  · simp [h, look_put]

/-- Reading a byte after bytes are written: the written one in their range, else as before. -/
theorem getByte_setBytes (m : Memory) (a x : Nat) (bs : List Byte) :
    getByte (setBytes m a bs) x = if a ≤ x ∧ x < a + bs.length then bs.getD (x - a) 0 else getByte m x := by
  induction bs generalizing m a with
  | nil =>
    have : ¬ (a ≤ x ∧ x < a + ([] : List Byte).length) := by simp
    rw [if_neg this]; rfl
  | cons b t ih =>
    rw [setBytes, ih, getByte_setByte]
    by_cases h1 : x = a
    · subst h1
      have : ¬ (x + 1 ≤ x ∧ x < x + 1 + t.length) := by omega
      have h : x ≤ x ∧ x < x + (b :: t).length := by simp
      rw [if_neg this, if_pos rfl, if_pos h]; simp
    · by_cases h2 : a + 1 ≤ x ∧ x < a + 1 + t.length
      · have h : a ≤ x ∧ x < a + (b :: t).length := by simp only [List.length_cons]; omega
        obtain ⟨k, hk⟩ : ∃ k, x - a = k + 1 := ⟨x - a - 1, by omega⟩
        have : x - (a + 1) = k := by omega
        rw [if_pos h2, if_pos h, hk, this]; simp
      · have h : ¬ (a ≤ x ∧ x < a + (b :: t).length) := by simp only [List.length_cons]; omega
        rw [if_neg h2, if_neg h1, if_neg h]

/-- Bytes outside a write read as before. -/
theorem getByte_setBytes_outside (m : Memory) (a x : Nat) (bs : List Byte) (h : x < a ∨ a + bs.length ≤ x) :
    getByte (setBytes m a bs) x = getByte m x := by
  rw [getByte_setBytes, if_neg (by omega)]

theorem Memory.above_le {m : Memory} {lo hi : Nat} (h : lo ≤ hi) (w : Memory.above hi m = true) :
    Memory.above lo m = true := by
  cases m with
  | nil => rfl
  | cons e t =>
    obtain ⟨a, b⟩ := e
    simp [Memory.above] at w ⊢
    exact ⟨⟨by omega, w.1.2⟩, w.2⟩

theorem Memory.above_put {m : Memory} {lo a : Nat} {b : Byte} (w : Memory.above lo m = true) (h : lo ≤ a)
    (hb : b ≠ unlisted) : Memory.above lo (put m a b) = true := by
  induction m generalizing lo with
  | nil => simp [put, Memory.above, h, hb]
  | cons e t ih =>
    obtain ⟨k, c⟩ := e
    simp [Memory.above] at w
    unfold put
    by_cases h1 : a < k
    · have h3 : a + 1 ≤ k := h1
      simp [h1, h3, Memory.above, h, hb, w.1.2, w.2]
    · by_cases h2 : a = k
      · subst h2; simp [Memory.above, h, hb, w.2]
      · have := ih w.2 (by omega)
        simp [h1, h2, Memory.above, w.1.1, w.1.2, this]

theorem Memory.above_filter {m : Memory} {lo : Nat} (p : Host.Cell → Bool) (w : Memory.above lo m = true) :
    Memory.above lo (m.filter p) = true := by
  induction m generalizing lo with
  | nil => rfl
  | cons e t ih =>
    obtain ⟨k, c⟩ := e
    simp [Memory.above] at w
    by_cases h : p (k, c) = true
    · simp [h, Memory.above, w.1.1, w.1.2, ih w.2]
    · simp only [Bool.not_eq_true] at h
      simp [h, Memory.above_le (by omega : lo ≤ k + 1) (ih w.2)]

/-- Removing cells keeps the canonical form. -/
theorem Memory.wf_filter {m : Memory} (p : Host.Cell → Bool) (w : m.wf = true) : Memory.wf (m.filter p) = true :=
  Memory.above_filter p w

/-- A write of one byte keeps the canonical form. -/
theorem Memory.wf_setByte {m : Memory} (a : Nat) (b : Byte) (w : m.wf = true) : (setByte m a b).wf = true := by
  unfold setByte
  by_cases h : b = unlisted
  · simp only [h, if_true]; exact Memory.above_filter _ w
  · simp only [h, if_false]; exact Memory.above_put w (Nat.zero_le a) h

/-- A write of bytes keeps the canonical form. -/
theorem Memory.wf_setBytes {m : Memory} (a : Nat) (bs : List Byte) (w : m.wf = true) : (setBytes m a bs).wf = true := by
  induction bs generalizing m a with
  | nil => exact w
  | cons b t ih => exact ih _ (Memory.wf_setByte a b w)

/-- The module's byte memory keeps its canonical form over a write. -/
theorem State.wf_writeMem {s : State} (a : Nat) (bs : List (Byte × Bool)) (w : s.mem.wf = true) :
    (s.writeMem a bs).mem.wf = true := Memory.wf_setBytes a _ w

/-- Two canonical memories that read alike are equal data. -/
theorem Memory.wf_ext {m n : Memory} (hm : m.wf = true) (hn : n.wf = true) (h : ∀ a, getByte m a = getByte n a) :
    m = n := by
  have below : ∀ (t : Memory) (lo a : Nat), Memory.above lo t = true → a < lo → getByte t a = unlisted := by
    intro t
    induction t with
    | nil => intros; rfl
    | cons e t ih =>
      obtain ⟨k, c⟩ := e
      intro lo a w hlt
      simp [Memory.above] at w
      have hk : k ≠ a := by omega
      have := ih (k + 1) a w.2 (by omega)
      simpa [getByte, look, find?, hk] using this
  have go : ∀ (m n : Memory) (lo : Nat), Memory.above lo m = true → Memory.above lo n = true →
      (∀ a, getByte m a = getByte n a) → m = n := by
    intro m
    induction m with
    | nil =>
      intro n lo _ wn h
      cases n with
      | nil => rfl
      | cons e t =>
        obtain ⟨k, c⟩ := e
        simp [Memory.above] at wn
        have := h k
        simp [getByte, look, find?] at this
        exact absurd this.symm wn.1.2
    | cons e t ih =>
      obtain ⟨k, c⟩ := e
      intro n lo wm wn h
      cases n with
      | nil =>
        simp [Memory.above] at wm
        have := h k
        simp [getByte, look, find?] at this
        exact absurd this wm.1.2
      | cons e' t' =>
        obtain ⟨k', c'⟩ := e'
        simp [Memory.above] at wm wn
        have hk : k = k' := by
          rcases Nat.lt_trichotomy k k' with hlt | heq | hgt
          · have h0 := h k
            have h1 := below t' (k' + 1) k wn.2 (by omega)
            have : k' ≠ k := by omega
            simp [getByte, look, find?, this] at h0 h1
            exact absurd (h0.trans h1) wm.1.2
          · exact heq
          · have h0 := h k'
            have h1 := below t (k + 1) k' wm.2 (by omega)
            have : k ≠ k' := by omega
            simp [getByte, look, find?, this] at h0 h1
            exact absurd (h0.symm.trans h1) wn.1.2
        subst hk
        have hc : c = c' := by simpa [getByte, look, find?] using h k
        subst hc
        rw [ih t' (k + 1) wm.2 wn.2]
        intro a
        by_cases ha : k = a
        · subst ha
          rw [below t (k + 1) k wm.2 (by omega), below t' (k + 1) k wn.2 (by omega)]
        · simpa [getByte, look, find?, ha] using h a
  exact go m n 0 hm hn h

/-- Reset lists no byte. -/
theorem Memory.wf_reset : State.reset.mem.wf = true := rfl

end Sys2Proof.Machine
end

