-- ==== Sys2Proof/Laws/State.lean ====
section
/-! SUPPORT. Laws/State.lean: one lemma per field per named update of State and Core, true by definition, so that no later
proof unfolds a record update; and what each table reads as after its own update. -/

namespace Sys2Proof.Machine

/-! ## State.setCore -/

@[simp] theorem State.setCore_grade (s : State) (l : Nat) (c : Core) : (s.setCore l c).grade = s.grade := rfl
@[simp] theorem State.setCore_mem (s : State) (l : Nat) (c : Core) : (s.setCore l c).mem = s.mem := rfl
@[simp] theorem State.setCore_marks (s : State) (l : Nat) (c : Core) : (s.setCore l c).marks = s.marks := rfl
@[simp] theorem State.setCore_regions (s : State) (l : Nat) (c : Core) : (s.setCore l c).regions = s.regions := rfl
@[simp] theorem State.setCore_images (s : State) (l : Nat) (c : Core) : (s.setCore l c).images = s.images := rfl
@[simp] theorem State.setCore_nemar (s : State) (l : Nat) (c : Core) : (s.setCore l c).nemar = s.nemar := rfl
@[simp] theorem State.setCore_host (s : State) (l : Nat) (c : Core) : (s.setCore l c).host = s.host := rfl
@[simp] theorem State.setCore_tiers (s : State) (l : Nat) (c : Core) : (s.setCore l c).tiers = s.tiers := rfl
@[simp] theorem State.setCore_mesh (s : State) (l : Nat) (c : Core) : (s.setCore l c).mesh = s.mesh := rfl
@[simp] theorem State.setCore_plant (s : State) (l : Nat) (c : Core) : (s.setCore l c).plant = s.plant := rfl
@[simp] theorem State.setCore_fabric (s : State) (l : Nat) (c : Core) : (s.setCore l c).fabric = s.fabric := rfl
@[simp] theorem State.setCore_store (s : State) (l : Nat) (c : Core) : (s.setCore l c).store = s.store := rfl
@[simp] theorem State.setCore_free (s : State) (l : Nat) (c : Core) : (s.setCore l c).free = s.free := rfl
@[simp] theorem State.setCore_pending (s : State) (l : Nat) (c : Core) : (s.setCore l c).pending = s.pending := rfl

/-! ## State.setRegion -/

@[simp] theorem State.setRegion_grade (s : State) (r : Nat) (g : Region) : (s.setRegion r g).grade = s.grade := rfl
@[simp] theorem State.setRegion_cores (s : State) (r : Nat) (g : Region) : (s.setRegion r g).cores = s.cores := rfl
@[simp] theorem State.setRegion_mem (s : State) (r : Nat) (g : Region) : (s.setRegion r g).mem = s.mem := rfl
@[simp] theorem State.setRegion_marks (s : State) (r : Nat) (g : Region) : (s.setRegion r g).marks = s.marks := rfl
@[simp] theorem State.setRegion_images (s : State) (r : Nat) (g : Region) : (s.setRegion r g).images = s.images := rfl
@[simp] theorem State.setRegion_nemar (s : State) (r : Nat) (g : Region) : (s.setRegion r g).nemar = s.nemar := rfl
@[simp] theorem State.setRegion_host (s : State) (r : Nat) (g : Region) : (s.setRegion r g).host = s.host := rfl
@[simp] theorem State.setRegion_tiers (s : State) (r : Nat) (g : Region) : (s.setRegion r g).tiers = s.tiers := rfl
@[simp] theorem State.setRegion_mesh (s : State) (r : Nat) (g : Region) : (s.setRegion r g).mesh = s.mesh := rfl
@[simp] theorem State.setRegion_plant (s : State) (r : Nat) (g : Region) : (s.setRegion r g).plant = s.plant := rfl
@[simp] theorem State.setRegion_fabric (s : State) (r : Nat) (g : Region) : (s.setRegion r g).fabric = s.fabric := rfl
@[simp] theorem State.setRegion_store (s : State) (r : Nat) (g : Region) : (s.setRegion r g).store = s.store := rfl
@[simp] theorem State.setRegion_free (s : State) (r : Nat) (g : Region) : (s.setRegion r g).free = s.free := rfl
@[simp] theorem State.setRegion_pending (s : State) (r : Nat) (g : Region) : (s.setRegion r g).pending = s.pending := rfl

/-! ## State.setQuad -/

@[simp] theorem State.setQuad_grade (s : State) (q : Nat) (v : Quadrant) : (s.setQuad q v).grade = s.grade := rfl
@[simp] theorem State.setQuad_cores (s : State) (q : Nat) (v : Quadrant) : (s.setQuad q v).cores = s.cores := rfl
@[simp] theorem State.setQuad_mem (s : State) (q : Nat) (v : Quadrant) : (s.setQuad q v).mem = s.mem := rfl
@[simp] theorem State.setQuad_marks (s : State) (q : Nat) (v : Quadrant) : (s.setQuad q v).marks = s.marks := rfl
@[simp] theorem State.setQuad_regions (s : State) (q : Nat) (v : Quadrant) : (s.setQuad q v).regions = s.regions := rfl
@[simp] theorem State.setQuad_images (s : State) (q : Nat) (v : Quadrant) : (s.setQuad q v).images = s.images := rfl
@[simp] theorem State.setQuad_nemar (s : State) (q : Nat) (v : Quadrant) : (s.setQuad q v).nemar = s.nemar := rfl
@[simp] theorem State.setQuad_host (s : State) (q : Nat) (v : Quadrant) : (s.setQuad q v).host = s.host := rfl
@[simp] theorem State.setQuad_tiers (s : State) (q : Nat) (v : Quadrant) : (s.setQuad q v).tiers = s.tiers := rfl
@[simp] theorem State.setQuad_mesh (s : State) (q : Nat) (v : Quadrant) : (s.setQuad q v).mesh = s.mesh := rfl
@[simp] theorem State.setQuad_fabric (s : State) (q : Nat) (v : Quadrant) : (s.setQuad q v).fabric = s.fabric := rfl
@[simp] theorem State.setQuad_store (s : State) (q : Nat) (v : Quadrant) : (s.setQuad q v).store = s.store := rfl
@[simp] theorem State.setQuad_free (s : State) (q : Nat) (v : Quadrant) : (s.setQuad q v).free = s.free := rfl
@[simp] theorem State.setQuad_pending (s : State) (q : Nat) (v : Quadrant) : (s.setQuad q v).pending = s.pending := rfl

/-! ## State.writeMem -/

@[simp] theorem State.writeMem_grade (s : State) (a : Nat) (bs : List (Byte × Bool)) : (s.writeMem a bs).grade = s.grade := rfl
@[simp] theorem State.writeMem_cores (s : State) (a : Nat) (bs : List (Byte × Bool)) : (s.writeMem a bs).cores = s.cores := rfl
@[simp] theorem State.writeMem_regions (s : State) (a : Nat) (bs : List (Byte × Bool)) : (s.writeMem a bs).regions = s.regions := rfl
@[simp] theorem State.writeMem_images (s : State) (a : Nat) (bs : List (Byte × Bool)) : (s.writeMem a bs).images = s.images := rfl
@[simp] theorem State.writeMem_nemar (s : State) (a : Nat) (bs : List (Byte × Bool)) : (s.writeMem a bs).nemar = s.nemar := rfl
@[simp] theorem State.writeMem_tiers (s : State) (a : Nat) (bs : List (Byte × Bool)) : (s.writeMem a bs).tiers = s.tiers := rfl
@[simp] theorem State.writeMem_mesh (s : State) (a : Nat) (bs : List (Byte × Bool)) : (s.writeMem a bs).mesh = s.mesh := rfl
@[simp] theorem State.writeMem_plant (s : State) (a : Nat) (bs : List (Byte × Bool)) : (s.writeMem a bs).plant = s.plant := rfl
@[simp] theorem State.writeMem_fabric (s : State) (a : Nat) (bs : List (Byte × Bool)) : (s.writeMem a bs).fabric = s.fabric := rfl
@[simp] theorem State.writeMem_store (s : State) (a : Nat) (bs : List (Byte × Bool)) : (s.writeMem a bs).store = s.store := rfl
@[simp] theorem State.writeMem_free (s : State) (a : Nat) (bs : List (Byte × Bool)) : (s.writeMem a bs).free = s.free := rfl
@[simp] theorem State.writeMem_pending (s : State) (a : Nat) (bs : List (Byte × Bool)) : (s.writeMem a bs).pending = s.pending := rfl

/-! ## State.setRing -/

@[simp] theorem State.setRing_grade (s : State) (q : RingId) (r : Ring) : (s.setRing q r).grade = s.grade := rfl
@[simp] theorem State.setRing_cores (s : State) (q : RingId) (r : Ring) : (s.setRing q r).cores = s.cores := rfl
@[simp] theorem State.setRing_mem (s : State) (q : RingId) (r : Ring) : (s.setRing q r).mem = s.mem := rfl
@[simp] theorem State.setRing_marks (s : State) (q : RingId) (r : Ring) : (s.setRing q r).marks = s.marks := rfl
@[simp] theorem State.setRing_regions (s : State) (q : RingId) (r : Ring) : (s.setRing q r).regions = s.regions := rfl
@[simp] theorem State.setRing_images (s : State) (q : RingId) (r : Ring) : (s.setRing q r).images = s.images := rfl
@[simp] theorem State.setRing_nemar (s : State) (q : RingId) (r : Ring) : (s.setRing q r).nemar = s.nemar := rfl
@[simp] theorem State.setRing_tiers (s : State) (q : RingId) (r : Ring) : (s.setRing q r).tiers = s.tiers := rfl
@[simp] theorem State.setRing_mesh (s : State) (q : RingId) (r : Ring) : (s.setRing q r).mesh = s.mesh := rfl
@[simp] theorem State.setRing_plant (s : State) (q : RingId) (r : Ring) : (s.setRing q r).plant = s.plant := rfl
@[simp] theorem State.setRing_fabric (s : State) (q : RingId) (r : Ring) : (s.setRing q r).fabric = s.fabric := rfl
@[simp] theorem State.setRing_store (s : State) (q : RingId) (r : Ring) : (s.setRing q r).store = s.store := rfl
@[simp] theorem State.setRing_free (s : State) (q : RingId) (r : Ring) : (s.setRing q r).free = s.free := rfl
@[simp] theorem State.setRing_pending (s : State) (q : RingId) (r : Ring) : (s.setRing q r).pending = s.pending := rfl

/-! ## State.setCxl -/

@[simp] theorem State.setCxl_grade (s : State) (p : Nat) (x : CxlPort) : (s.setCxl p x).grade = s.grade := rfl
@[simp] theorem State.setCxl_cores (s : State) (p : Nat) (x : CxlPort) : (s.setCxl p x).cores = s.cores := rfl
@[simp] theorem State.setCxl_mem (s : State) (p : Nat) (x : CxlPort) : (s.setCxl p x).mem = s.mem := rfl
@[simp] theorem State.setCxl_marks (s : State) (p : Nat) (x : CxlPort) : (s.setCxl p x).marks = s.marks := rfl
@[simp] theorem State.setCxl_regions (s : State) (p : Nat) (x : CxlPort) : (s.setCxl p x).regions = s.regions := rfl
@[simp] theorem State.setCxl_images (s : State) (p : Nat) (x : CxlPort) : (s.setCxl p x).images = s.images := rfl
@[simp] theorem State.setCxl_nemar (s : State) (p : Nat) (x : CxlPort) : (s.setCxl p x).nemar = s.nemar := rfl
@[simp] theorem State.setCxl_tiers (s : State) (p : Nat) (x : CxlPort) : (s.setCxl p x).tiers = s.tiers := rfl
@[simp] theorem State.setCxl_mesh (s : State) (p : Nat) (x : CxlPort) : (s.setCxl p x).mesh = s.mesh := rfl
@[simp] theorem State.setCxl_plant (s : State) (p : Nat) (x : CxlPort) : (s.setCxl p x).plant = s.plant := rfl
@[simp] theorem State.setCxl_fabric (s : State) (p : Nat) (x : CxlPort) : (s.setCxl p x).fabric = s.fabric := rfl
@[simp] theorem State.setCxl_store (s : State) (p : Nat) (x : CxlPort) : (s.setCxl p x).store = s.store := rfl
@[simp] theorem State.setCxl_free (s : State) (p : Nat) (x : CxlPort) : (s.setCxl p x).free = s.free := rfl
@[simp] theorem State.setCxl_pending (s : State) (p : Nat) (x : CxlPort) : (s.setCxl p x).pending = s.pending := rfl

/-! ## State.setHwin -/

@[simp] theorem State.setHwin_grade (s : State) (en : Bool) : (s.setHwin en).grade = s.grade := rfl
@[simp] theorem State.setHwin_cores (s : State) (en : Bool) : (s.setHwin en).cores = s.cores := rfl
@[simp] theorem State.setHwin_mem (s : State) (en : Bool) : (s.setHwin en).mem = s.mem := rfl
@[simp] theorem State.setHwin_marks (s : State) (en : Bool) : (s.setHwin en).marks = s.marks := rfl
@[simp] theorem State.setHwin_regions (s : State) (en : Bool) : (s.setHwin en).regions = s.regions := rfl
@[simp] theorem State.setHwin_images (s : State) (en : Bool) : (s.setHwin en).images = s.images := rfl
@[simp] theorem State.setHwin_nemar (s : State) (en : Bool) : (s.setHwin en).nemar = s.nemar := rfl
@[simp] theorem State.setHwin_tiers (s : State) (en : Bool) : (s.setHwin en).tiers = s.tiers := rfl
@[simp] theorem State.setHwin_mesh (s : State) (en : Bool) : (s.setHwin en).mesh = s.mesh := rfl
@[simp] theorem State.setHwin_plant (s : State) (en : Bool) : (s.setHwin en).plant = s.plant := rfl
@[simp] theorem State.setHwin_fabric (s : State) (en : Bool) : (s.setHwin en).fabric = s.fabric := rfl
@[simp] theorem State.setHwin_store (s : State) (en : Bool) : (s.setHwin en).store = s.store := rfl
@[simp] theorem State.setHwin_free (s : State) (en : Bool) : (s.setHwin en).free = s.free := rfl
@[simp] theorem State.setHwin_pending (s : State) (en : Bool) : (s.setHwin en).pending = s.pending := rfl

/-! ## State.mapCommand -/

@[simp] theorem State.mapCommand_grade (s : State) (k : CmdRef) (f : Command → Command) : (s.mapCommand k f).grade = s.grade := rfl
@[simp] theorem State.mapCommand_cores (s : State) (k : CmdRef) (f : Command → Command) : (s.mapCommand k f).cores = s.cores := rfl
@[simp] theorem State.mapCommand_mem (s : State) (k : CmdRef) (f : Command → Command) : (s.mapCommand k f).mem = s.mem := rfl
@[simp] theorem State.mapCommand_marks (s : State) (k : CmdRef) (f : Command → Command) : (s.mapCommand k f).marks = s.marks := rfl
@[simp] theorem State.mapCommand_regions (s : State) (k : CmdRef) (f : Command → Command) : (s.mapCommand k f).regions = s.regions := rfl
@[simp] theorem State.mapCommand_images (s : State) (k : CmdRef) (f : Command → Command) : (s.mapCommand k f).images = s.images := rfl
@[simp] theorem State.mapCommand_host (s : State) (k : CmdRef) (f : Command → Command) : (s.mapCommand k f).host = s.host := rfl
@[simp] theorem State.mapCommand_tiers (s : State) (k : CmdRef) (f : Command → Command) : (s.mapCommand k f).tiers = s.tiers := rfl
@[simp] theorem State.mapCommand_mesh (s : State) (k : CmdRef) (f : Command → Command) : (s.mapCommand k f).mesh = s.mesh := rfl
@[simp] theorem State.mapCommand_plant (s : State) (k : CmdRef) (f : Command → Command) : (s.mapCommand k f).plant = s.plant := rfl
@[simp] theorem State.mapCommand_fabric (s : State) (k : CmdRef) (f : Command → Command) : (s.mapCommand k f).fabric = s.fabric := rfl
@[simp] theorem State.mapCommand_store (s : State) (k : CmdRef) (f : Command → Command) : (s.mapCommand k f).store = s.store := rfl
@[simp] theorem State.mapCommand_free (s : State) (k : CmdRef) (f : Command → Command) : (s.mapCommand k f).free = s.free := rfl
@[simp] theorem State.mapCommand_pending (s : State) (k : CmdRef) (f : Command → Command) : (s.mapCommand k f).pending = s.pending := rfl

/-! ## State.dropCommand -/

@[simp] theorem State.dropCommand_grade (s : State) (k : CmdRef) : (s.dropCommand k).grade = s.grade := rfl
@[simp] theorem State.dropCommand_cores (s : State) (k : CmdRef) : (s.dropCommand k).cores = s.cores := rfl
@[simp] theorem State.dropCommand_mem (s : State) (k : CmdRef) : (s.dropCommand k).mem = s.mem := rfl
@[simp] theorem State.dropCommand_marks (s : State) (k : CmdRef) : (s.dropCommand k).marks = s.marks := rfl
@[simp] theorem State.dropCommand_regions (s : State) (k : CmdRef) : (s.dropCommand k).regions = s.regions := rfl
@[simp] theorem State.dropCommand_images (s : State) (k : CmdRef) : (s.dropCommand k).images = s.images := rfl
@[simp] theorem State.dropCommand_host (s : State) (k : CmdRef) : (s.dropCommand k).host = s.host := rfl
@[simp] theorem State.dropCommand_tiers (s : State) (k : CmdRef) : (s.dropCommand k).tiers = s.tiers := rfl
@[simp] theorem State.dropCommand_mesh (s : State) (k : CmdRef) : (s.dropCommand k).mesh = s.mesh := rfl
@[simp] theorem State.dropCommand_plant (s : State) (k : CmdRef) : (s.dropCommand k).plant = s.plant := rfl
@[simp] theorem State.dropCommand_fabric (s : State) (k : CmdRef) : (s.dropCommand k).fabric = s.fabric := rfl
@[simp] theorem State.dropCommand_store (s : State) (k : CmdRef) : (s.dropCommand k).store = s.store := rfl
@[simp] theorem State.dropCommand_free (s : State) (k : CmdRef) : (s.dropCommand k).free = s.free := rfl
@[simp] theorem State.dropCommand_pending (s : State) (k : CmdRef) : (s.dropCommand k).pending = s.pending := rfl

/-! ## State.setPour -/

@[simp] theorem State.setPour_grade (s : State) (k : Nat) (p : PourSlotState) : (s.setPour k p).grade = s.grade := rfl
@[simp] theorem State.setPour_cores (s : State) (k : Nat) (p : PourSlotState) : (s.setPour k p).cores = s.cores := rfl
@[simp] theorem State.setPour_mem (s : State) (k : Nat) (p : PourSlotState) : (s.setPour k p).mem = s.mem := rfl
@[simp] theorem State.setPour_marks (s : State) (k : Nat) (p : PourSlotState) : (s.setPour k p).marks = s.marks := rfl
@[simp] theorem State.setPour_regions (s : State) (k : Nat) (p : PourSlotState) : (s.setPour k p).regions = s.regions := rfl
@[simp] theorem State.setPour_images (s : State) (k : Nat) (p : PourSlotState) : (s.setPour k p).images = s.images := rfl
@[simp] theorem State.setPour_nemar (s : State) (k : Nat) (p : PourSlotState) : (s.setPour k p).nemar = s.nemar := rfl
@[simp] theorem State.setPour_host (s : State) (k : Nat) (p : PourSlotState) : (s.setPour k p).host = s.host := rfl
@[simp] theorem State.setPour_tiers (s : State) (k : Nat) (p : PourSlotState) : (s.setPour k p).tiers = s.tiers := rfl
@[simp] theorem State.setPour_mesh (s : State) (k : Nat) (p : PourSlotState) : (s.setPour k p).mesh = s.mesh := rfl
@[simp] theorem State.setPour_plant (s : State) (k : Nat) (p : PourSlotState) : (s.setPour k p).plant = s.plant := rfl
@[simp] theorem State.setPour_store (s : State) (k : Nat) (p : PourSlotState) : (s.setPour k p).store = s.store := rfl
@[simp] theorem State.setPour_free (s : State) (k : Nat) (p : PourSlotState) : (s.setPour k p).free = s.free := rfl
@[simp] theorem State.setPour_pending (s : State) (k : Nat) (p : PourSlotState) : (s.setPour k p).pending = s.pending := rfl

/-! ## State.setZport -/

@[simp] theorem State.setZport_grade (s : State) (p : Nat) (x : ZPortState) : (s.setZport p x).grade = s.grade := rfl
@[simp] theorem State.setZport_cores (s : State) (p : Nat) (x : ZPortState) : (s.setZport p x).cores = s.cores := rfl
@[simp] theorem State.setZport_mem (s : State) (p : Nat) (x : ZPortState) : (s.setZport p x).mem = s.mem := rfl
@[simp] theorem State.setZport_marks (s : State) (p : Nat) (x : ZPortState) : (s.setZport p x).marks = s.marks := rfl
@[simp] theorem State.setZport_regions (s : State) (p : Nat) (x : ZPortState) : (s.setZport p x).regions = s.regions := rfl
@[simp] theorem State.setZport_images (s : State) (p : Nat) (x : ZPortState) : (s.setZport p x).images = s.images := rfl
@[simp] theorem State.setZport_nemar (s : State) (p : Nat) (x : ZPortState) : (s.setZport p x).nemar = s.nemar := rfl
@[simp] theorem State.setZport_host (s : State) (p : Nat) (x : ZPortState) : (s.setZport p x).host = s.host := rfl
@[simp] theorem State.setZport_tiers (s : State) (p : Nat) (x : ZPortState) : (s.setZport p x).tiers = s.tiers := rfl
@[simp] theorem State.setZport_mesh (s : State) (p : Nat) (x : ZPortState) : (s.setZport p x).mesh = s.mesh := rfl
@[simp] theorem State.setZport_plant (s : State) (p : Nat) (x : ZPortState) : (s.setZport p x).plant = s.plant := rfl
@[simp] theorem State.setZport_store (s : State) (p : Nat) (x : ZPortState) : (s.setZport p x).store = s.store := rfl
@[simp] theorem State.setZport_free (s : State) (p : Nat) (x : ZPortState) : (s.setZport p x).free = s.free := rfl
@[simp] theorem State.setZport_pending (s : State) (p : Nat) (x : ZPortState) : (s.setZport p x).pending = s.pending := rfl

/-! ## State.setReshard -/

@[simp] theorem State.setReshard_grade (s : State) (x : Option Reshard) : (s.setReshard x).grade = s.grade := rfl
@[simp] theorem State.setReshard_cores (s : State) (x : Option Reshard) : (s.setReshard x).cores = s.cores := rfl
@[simp] theorem State.setReshard_mem (s : State) (x : Option Reshard) : (s.setReshard x).mem = s.mem := rfl
@[simp] theorem State.setReshard_marks (s : State) (x : Option Reshard) : (s.setReshard x).marks = s.marks := rfl
@[simp] theorem State.setReshard_regions (s : State) (x : Option Reshard) : (s.setReshard x).regions = s.regions := rfl
@[simp] theorem State.setReshard_images (s : State) (x : Option Reshard) : (s.setReshard x).images = s.images := rfl
@[simp] theorem State.setReshard_nemar (s : State) (x : Option Reshard) : (s.setReshard x).nemar = s.nemar := rfl
@[simp] theorem State.setReshard_host (s : State) (x : Option Reshard) : (s.setReshard x).host = s.host := rfl
@[simp] theorem State.setReshard_tiers (s : State) (x : Option Reshard) : (s.setReshard x).tiers = s.tiers := rfl
@[simp] theorem State.setReshard_mesh (s : State) (x : Option Reshard) : (s.setReshard x).mesh = s.mesh := rfl
@[simp] theorem State.setReshard_plant (s : State) (x : Option Reshard) : (s.setReshard x).plant = s.plant := rfl
@[simp] theorem State.setReshard_store (s : State) (x : Option Reshard) : (s.setReshard x).store = s.store := rfl
@[simp] theorem State.setReshard_free (s : State) (x : Option Reshard) : (s.setReshard x).free = s.free := rfl
@[simp] theorem State.setReshard_pending (s : State) (x : Option Reshard) : (s.setReshard x).pending = s.pending := rfl

/-! ## State.setModBar -/

@[simp] theorem State.setModBar_grade (s : State) (j : Nat) (m : ModBarrier) : (s.setModBar j m).grade = s.grade := rfl
@[simp] theorem State.setModBar_cores (s : State) (j : Nat) (m : ModBarrier) : (s.setModBar j m).cores = s.cores := rfl
@[simp] theorem State.setModBar_mem (s : State) (j : Nat) (m : ModBarrier) : (s.setModBar j m).mem = s.mem := rfl
@[simp] theorem State.setModBar_marks (s : State) (j : Nat) (m : ModBarrier) : (s.setModBar j m).marks = s.marks := rfl
@[simp] theorem State.setModBar_regions (s : State) (j : Nat) (m : ModBarrier) : (s.setModBar j m).regions = s.regions := rfl
@[simp] theorem State.setModBar_images (s : State) (j : Nat) (m : ModBarrier) : (s.setModBar j m).images = s.images := rfl
@[simp] theorem State.setModBar_host (s : State) (j : Nat) (m : ModBarrier) : (s.setModBar j m).host = s.host := rfl
@[simp] theorem State.setModBar_tiers (s : State) (j : Nat) (m : ModBarrier) : (s.setModBar j m).tiers = s.tiers := rfl
@[simp] theorem State.setModBar_mesh (s : State) (j : Nat) (m : ModBarrier) : (s.setModBar j m).mesh = s.mesh := rfl
@[simp] theorem State.setModBar_plant (s : State) (j : Nat) (m : ModBarrier) : (s.setModBar j m).plant = s.plant := rfl
@[simp] theorem State.setModBar_fabric (s : State) (j : Nat) (m : ModBarrier) : (s.setModBar j m).fabric = s.fabric := rfl
@[simp] theorem State.setModBar_store (s : State) (j : Nat) (m : ModBarrier) : (s.setModBar j m).store = s.store := rfl
@[simp] theorem State.setModBar_free (s : State) (j : Nat) (m : ModBarrier) : (s.setModBar j m).free = s.free := rfl
@[simp] theorem State.setModBar_pending (s : State) (j : Nat) (m : ModBarrier) : (s.setModBar j m).pending = s.pending := rfl

/-! ## State.setBarCount -/

@[simp] theorem State.setBarCount_grade (s : State) (x : BarCount) : (s.setBarCount x).grade = s.grade := rfl
@[simp] theorem State.setBarCount_cores (s : State) (x : BarCount) : (s.setBarCount x).cores = s.cores := rfl
@[simp] theorem State.setBarCount_mem (s : State) (x : BarCount) : (s.setBarCount x).mem = s.mem := rfl
@[simp] theorem State.setBarCount_marks (s : State) (x : BarCount) : (s.setBarCount x).marks = s.marks := rfl
@[simp] theorem State.setBarCount_regions (s : State) (x : BarCount) : (s.setBarCount x).regions = s.regions := rfl
@[simp] theorem State.setBarCount_images (s : State) (x : BarCount) : (s.setBarCount x).images = s.images := rfl
@[simp] theorem State.setBarCount_host (s : State) (x : BarCount) : (s.setBarCount x).host = s.host := rfl
@[simp] theorem State.setBarCount_tiers (s : State) (x : BarCount) : (s.setBarCount x).tiers = s.tiers := rfl
@[simp] theorem State.setBarCount_mesh (s : State) (x : BarCount) : (s.setBarCount x).mesh = s.mesh := rfl
@[simp] theorem State.setBarCount_plant (s : State) (x : BarCount) : (s.setBarCount x).plant = s.plant := rfl
@[simp] theorem State.setBarCount_fabric (s : State) (x : BarCount) : (s.setBarCount x).fabric = s.fabric := rfl
@[simp] theorem State.setBarCount_store (s : State) (x : BarCount) : (s.setBarCount x).store = s.store := rfl
@[simp] theorem State.setBarCount_free (s : State) (x : BarCount) : (s.setBarCount x).free = s.free := rfl
@[simp] theorem State.setBarCount_pending (s : State) (x : BarCount) : (s.setBarCount x).pending = s.pending := rfl

/-! ## State.setHart -/

@[simp] theorem State.setHart_grade (s : State) (i : Nat) (h : HartState) : (s.setHart i h).grade = s.grade := rfl
@[simp] theorem State.setHart_cores (s : State) (i : Nat) (h : HartState) : (s.setHart i h).cores = s.cores := rfl
@[simp] theorem State.setHart_mem (s : State) (i : Nat) (h : HartState) : (s.setHart i h).mem = s.mem := rfl
@[simp] theorem State.setHart_marks (s : State) (i : Nat) (h : HartState) : (s.setHart i h).marks = s.marks := rfl
@[simp] theorem State.setHart_regions (s : State) (i : Nat) (h : HartState) : (s.setHart i h).regions = s.regions := rfl
@[simp] theorem State.setHart_images (s : State) (i : Nat) (h : HartState) : (s.setHart i h).images = s.images := rfl
@[simp] theorem State.setHart_host (s : State) (i : Nat) (h : HartState) : (s.setHart i h).host = s.host := rfl
@[simp] theorem State.setHart_tiers (s : State) (i : Nat) (h : HartState) : (s.setHart i h).tiers = s.tiers := rfl
@[simp] theorem State.setHart_mesh (s : State) (i : Nat) (h : HartState) : (s.setHart i h).mesh = s.mesh := rfl
@[simp] theorem State.setHart_plant (s : State) (i : Nat) (h : HartState) : (s.setHart i h).plant = s.plant := rfl
@[simp] theorem State.setHart_fabric (s : State) (i : Nat) (h : HartState) : (s.setHart i h).fabric = s.fabric := rfl
@[simp] theorem State.setHart_store (s : State) (i : Nat) (h : HartState) : (s.setHart i h).store = s.store := rfl
@[simp] theorem State.setHart_free (s : State) (i : Nat) (h : HartState) : (s.setHart i h).free = s.free := rfl
@[simp] theorem State.setHart_pending (s : State) (i : Nat) (h : HartState) : (s.setHart i h).pending = s.pending := rfl

/-! ## State.setRouter -/

@[simp] theorem State.setRouter_grade (s : State) (p : Nat) (r : Router) : (s.setRouter p r).grade = s.grade := rfl
@[simp] theorem State.setRouter_cores (s : State) (p : Nat) (r : Router) : (s.setRouter p r).cores = s.cores := rfl
@[simp] theorem State.setRouter_mem (s : State) (p : Nat) (r : Router) : (s.setRouter p r).mem = s.mem := rfl
@[simp] theorem State.setRouter_marks (s : State) (p : Nat) (r : Router) : (s.setRouter p r).marks = s.marks := rfl
@[simp] theorem State.setRouter_regions (s : State) (p : Nat) (r : Router) : (s.setRouter p r).regions = s.regions := rfl
@[simp] theorem State.setRouter_images (s : State) (p : Nat) (r : Router) : (s.setRouter p r).images = s.images := rfl
@[simp] theorem State.setRouter_nemar (s : State) (p : Nat) (r : Router) : (s.setRouter p r).nemar = s.nemar := rfl
@[simp] theorem State.setRouter_host (s : State) (p : Nat) (r : Router) : (s.setRouter p r).host = s.host := rfl
@[simp] theorem State.setRouter_tiers (s : State) (p : Nat) (r : Router) : (s.setRouter p r).tiers = s.tiers := rfl
@[simp] theorem State.setRouter_plant (s : State) (p : Nat) (r : Router) : (s.setRouter p r).plant = s.plant := rfl
@[simp] theorem State.setRouter_fabric (s : State) (p : Nat) (r : Router) : (s.setRouter p r).fabric = s.fabric := rfl
@[simp] theorem State.setRouter_store (s : State) (p : Nat) (r : Router) : (s.setRouter p r).store = s.store := rfl
@[simp] theorem State.setRouter_free (s : State) (p : Nat) (r : Router) : (s.setRouter p r).free = s.free := rfl
@[simp] theorem State.setRouter_pending (s : State) (p : Nat) (r : Router) : (s.setRouter p r).pending = s.pending := rfl

/-! ## State.setFlit -/

@[simp] theorem State.setFlit_grade (s : State) (n : Nat) (f : MeshFlit) : (s.setFlit n f).grade = s.grade := rfl
@[simp] theorem State.setFlit_cores (s : State) (n : Nat) (f : MeshFlit) : (s.setFlit n f).cores = s.cores := rfl
@[simp] theorem State.setFlit_mem (s : State) (n : Nat) (f : MeshFlit) : (s.setFlit n f).mem = s.mem := rfl
@[simp] theorem State.setFlit_marks (s : State) (n : Nat) (f : MeshFlit) : (s.setFlit n f).marks = s.marks := rfl
@[simp] theorem State.setFlit_regions (s : State) (n : Nat) (f : MeshFlit) : (s.setFlit n f).regions = s.regions := rfl
@[simp] theorem State.setFlit_images (s : State) (n : Nat) (f : MeshFlit) : (s.setFlit n f).images = s.images := rfl
@[simp] theorem State.setFlit_nemar (s : State) (n : Nat) (f : MeshFlit) : (s.setFlit n f).nemar = s.nemar := rfl
@[simp] theorem State.setFlit_host (s : State) (n : Nat) (f : MeshFlit) : (s.setFlit n f).host = s.host := rfl
@[simp] theorem State.setFlit_tiers (s : State) (n : Nat) (f : MeshFlit) : (s.setFlit n f).tiers = s.tiers := rfl
@[simp] theorem State.setFlit_plant (s : State) (n : Nat) (f : MeshFlit) : (s.setFlit n f).plant = s.plant := rfl
@[simp] theorem State.setFlit_fabric (s : State) (n : Nat) (f : MeshFlit) : (s.setFlit n f).fabric = s.fabric := rfl
@[simp] theorem State.setFlit_store (s : State) (n : Nat) (f : MeshFlit) : (s.setFlit n f).store = s.store := rfl
@[simp] theorem State.setFlit_free (s : State) (n : Nat) (f : MeshFlit) : (s.setFlit n f).free = s.free := rfl
@[simp] theorem State.setFlit_pending (s : State) (n : Nat) (f : MeshFlit) : (s.setFlit n f).pending = s.pending := rfl

/-! ## State.dropFlit -/

@[simp] theorem State.dropFlit_grade (s : State) (n : Nat) : (s.dropFlit n).grade = s.grade := rfl
@[simp] theorem State.dropFlit_cores (s : State) (n : Nat) : (s.dropFlit n).cores = s.cores := rfl
@[simp] theorem State.dropFlit_mem (s : State) (n : Nat) : (s.dropFlit n).mem = s.mem := rfl
@[simp] theorem State.dropFlit_marks (s : State) (n : Nat) : (s.dropFlit n).marks = s.marks := rfl
@[simp] theorem State.dropFlit_regions (s : State) (n : Nat) : (s.dropFlit n).regions = s.regions := rfl
@[simp] theorem State.dropFlit_images (s : State) (n : Nat) : (s.dropFlit n).images = s.images := rfl
@[simp] theorem State.dropFlit_nemar (s : State) (n : Nat) : (s.dropFlit n).nemar = s.nemar := rfl
@[simp] theorem State.dropFlit_host (s : State) (n : Nat) : (s.dropFlit n).host = s.host := rfl
@[simp] theorem State.dropFlit_tiers (s : State) (n : Nat) : (s.dropFlit n).tiers = s.tiers := rfl
@[simp] theorem State.dropFlit_plant (s : State) (n : Nat) : (s.dropFlit n).plant = s.plant := rfl
@[simp] theorem State.dropFlit_fabric (s : State) (n : Nat) : (s.dropFlit n).fabric = s.fabric := rfl
@[simp] theorem State.dropFlit_store (s : State) (n : Nat) : (s.dropFlit n).store = s.store := rfl
@[simp] theorem State.dropFlit_free (s : State) (n : Nat) : (s.dropFlit n).free = s.free := rfl
@[simp] theorem State.dropFlit_pending (s : State) (n : Nat) : (s.dropFlit n).pending = s.pending := rfl

/-! ## Core.addPending -/

@[simp] theorem Core.addPending_sregs (c : Core) (p : Pending) : (c.addPending p).sregs = c.sregs := rfl
@[simp] theorem Core.addPending_pc (c : Core) (p : Pending) : (c.addPending p).pc = c.pc := rfl
@[simp] theorem Core.addPending_bank (c : Core) (p : Pending) : (c.addPending p).bank = c.bank := rfl
@[simp] theorem Core.addPending_slot (c : Core) (p : Pending) : (c.addPending p).slot = c.slot := rfl
@[simp] theorem Core.addPending_idleUntil (c : Core) (p : Pending) : (c.addPending p).idleUntil = c.idleUntil := rfl
@[simp] theorem Core.addPending_waiting (c : Core) (p : Pending) : (c.addPending p).waiting = c.waiting := rfl
@[simp] theorem Core.addPending_iss (c : Core) (p : Pending) : (c.addPending p).iss = c.iss := rfl
@[simp] theorem Core.addPending_refbeats (c : Core) (p : Pending) : (c.addPending p).refbeats = c.refbeats := rfl
@[simp] theorem Core.addPending_ended (c : Core) (p : Pending) : (c.addPending p).ended = c.ended := rfl
@[simp] theorem Core.addPending_faulted (c : Core) (p : Pending) : (c.addPending p).faulted = c.faulted := rfl
@[simp] theorem Core.addPending_spoison (c : Core) (p : Pending) : (c.addPending p).spoison = c.spoison := rfl
@[simp] theorem Core.addPending_evtLost (c : Core) (p : Pending) : (c.addPending p).evtLost = c.evtLost := rfl
@[simp] theorem Core.addPending_faultReg (c : Core) (p : Pending) : (c.addPending p).faultReg = c.faultReg := rfl
@[simp] theorem Core.addPending_faultSlot (c : Core) (p : Pending) : (c.addPending p).faultSlot = c.faultSlot := rfl
@[simp] theorem Core.addPending_running (c : Core) (p : Pending) : (c.addPending p).running = c.running := rfl
@[simp] theorem Core.addPending_stopping (c : Core) (p : Pending) : (c.addPending p).stopping = c.stopping := rfl
@[simp] theorem Core.addPending_stopped (c : Core) (p : Pending) : (c.addPending p).stopped = c.stopped := rfl
@[simp] theorem Core.addPending_off (c : Core) (p : Pending) : (c.addPending p).off = c.off := rfl
@[simp] theorem Core.addPending_imem0 (c : Core) (p : Pending) : (c.addPending p).imem0 = c.imem0 := rfl
@[simp] theorem Core.addPending_imem1 (c : Core) (p : Pending) : (c.addPending p).imem1 = c.imem1 := rfl
@[simp] theorem Core.addPending_phase (c : Core) (p : Pending) : (c.addPending p).phase = c.phase := rfl
@[simp] theorem Core.addPending_staged (c : Core) (p : Pending) : (c.addPending p).staged = c.staged := rfl
@[simp] theorem Core.addPending_stagedSent (c : Core) (p : Pending) : (c.addPending p).stagedSent = c.stagedSent := rfl
@[simp] theorem Core.addPending_stagedHere (c : Core) (p : Pending) : (c.addPending p).stagedHere = c.stagedHere := rfl
@[simp] theorem Core.addPending_fromSlack (c : Core) (p : Pending) : (c.addPending p).fromSlack = c.fromSlack := rfl
@[simp] theorem Core.addPending_switched (c : Core) (p : Pending) : (c.addPending p).switched = c.switched := rfl
@[simp] theorem Core.addPending_matQ (c : Core) (p : Pending) : (c.addPending p).matQ = c.matQ := rfl
@[simp] theorem Core.addPending_vecQ (c : Core) (p : Pending) : (c.addPending p).vecQ = c.vecQ := rfl
@[simp] theorem Core.addPending_matTail (c : Core) (p : Pending) : (c.addPending p).matTail = c.matTail := rfl
@[simp] theorem Core.addPending_vecTail (c : Core) (p : Pending) : (c.addPending p).vecTail = c.vecTail := rfl
@[simp] theorem Core.addPending_matFrom (c : Core) (p : Pending) : (c.addPending p).matFrom = c.matFrom := rfl
@[simp] theorem Core.addPending_vecFrom (c : Core) (p : Pending) : (c.addPending p).vecFrom = c.vecFrom := rfl
@[simp] theorem Core.addPending_walkEnd (c : Core) (p : Pending) : (c.addPending p).walkEnd = c.walkEnd := rfl
@[simp] theorem Core.addPending_matA (c : Core) (p : Pending) : (c.addPending p).matA = c.matA := rfl
@[simp] theorem Core.addPending_vecA (c : Core) (p : Pending) : (c.addPending p).vecA = c.vecA := rfl
@[simp] theorem Core.addPending_fetchQ (c : Core) (p : Pending) : (c.addPending p).fetchQ = c.fetchQ := rfl
@[simp] theorem Core.addPending_dmaQ (c : Core) (p : Pending) : (c.addPending p).dmaQ = c.dmaQ := rfl
@[simp] theorem Core.addPending_plane0 (c : Core) (p : Pending) : (c.addPending p).plane0 = c.plane0 := rfl
@[simp] theorem Core.addPending_plane1 (c : Core) (p : Pending) : (c.addPending p).plane1 = c.plane1 := rfl
@[simp] theorem Core.addPending_classErr (c : Core) (p : Pending) : (c.addPending p).classErr = c.classErr := rfl
@[simp] theorem Core.addPending_seqPos (c : Core) (p : Pending) : (c.addPending p).seqPos = c.seqPos := rfl
@[simp] theorem Core.addPending_acc (c : Core) (p : Pending) : (c.addPending p).acc = c.acc := rfl
@[simp] theorem Core.addPending_accMarks (c : Core) (p : Pending) : (c.addPending p).accMarks = c.accMarks := rfl
@[simp] theorem Core.addPending_vregs (c : Core) (p : Pending) : (c.addPending p).vregs = c.vregs := rfl
@[simp] theorem Core.addPending_vregMarks (c : Core) (p : Pending) : (c.addPending p).vregMarks = c.vregMarks := rfl
@[simp] theorem Core.addPending_cache (c : Core) (p : Pending) : (c.addPending p).cache = c.cache := rfl
@[simp] theorem Core.addPending_cacheMarks (c : Core) (p : Pending) : (c.addPending p).cacheMarks = c.cacheMarks := rfl
@[simp] theorem Core.addPending_vecStatus (c : Core) (p : Pending) : (c.addPending p).vecStatus = c.vecStatus := rfl
@[simp] theorem Core.addPending_htapCfg (c : Core) (p : Pending) : (c.addPending p).htapCfg = c.htapCfg := rfl
@[simp] theorem Core.addPending_rngSeed (c : Core) (p : Pending) : (c.addPending p).rngSeed = c.rngSeed := rfl
@[simp] theorem Core.addPending_rngCtx (c : Core) (p : Pending) : (c.addPending p).rngCtx = c.rngCtx := rfl
@[simp] theorem Core.addPending_htapBins (c : Core) (p : Pending) : (c.addPending p).htapBins = c.htapBins := rfl
@[simp] theorem Core.addPending_htapPois (c : Core) (p : Pending) : (c.addPending p).htapPois = c.htapPois := rfl
@[simp] theorem Core.addPending_htapInstr (c : Core) (p : Pending) : (c.addPending p).htapInstr = c.htapInstr := rfl
@[simp] theorem Core.addPending_tapBusy (c : Core) (p : Pending) : (c.addPending p).tapBusy = c.tapBusy := rfl
@[simp] theorem Core.addPending_sq (c : Core) (p : Pending) : (c.addPending p).sq = c.sq := rfl
@[simp] theorem Core.addPending_ag (c : Core) (p : Pending) : (c.addPending p).ag = c.ag := rfl
@[simp] theorem Core.addPending_rdl (c : Core) (p : Pending) : (c.addPending p).rdl = c.rdl := rfl
@[simp] theorem Core.addPending_dma (c : Core) (p : Pending) : (c.addPending p).dma = c.dma := rfl
@[simp] theorem Core.addPending_pk (c : Core) (p : Pending) : (c.addPending p).pk = c.pk := rfl
@[simp] theorem Core.addPending_evts (c : Core) (p : Pending) : (c.addPending p).evts = c.evts := rfl
@[simp] theorem Core.addPending_barArr (c : Core) (p : Pending) : (c.addPending p).barArr = c.barArr := rfl
@[simp] theorem Core.addPending_barRel (c : Core) (p : Pending) : (c.addPending p).barRel = c.barRel := rfl
@[simp] theorem Core.addPending_barFail (c : Core) (p : Pending) : (c.addPending p).barFail = c.barFail := rfl
@[simp] theorem Core.addPending_barOut (c : Core) (p : Pending) : (c.addPending p).barOut = c.barOut := rfl
@[simp] theorem Core.addPending_barGen (c : Core) (p : Pending) : (c.addPending p).barGen = c.barGen := rfl
@[simp] theorem Core.addPending_pourDone (c : Core) (p : Pending) : (c.addPending p).pourDone = c.pourDone := rfl
@[simp] theorem Core.addPending_pourSent (c : Core) (p : Pending) : (c.addPending p).pourSent = c.pourSent := rfl
@[simp] theorem Core.addPending_pourFail (c : Core) (p : Pending) : (c.addPending p).pourFail = c.pourFail := rfl
@[simp] theorem Core.addPending_units (c : Core) (p : Pending) : (c.addPending p).units = c.units := rfl
@[simp] theorem Core.addPending_stallTotal (c : Core) (p : Pending) : (c.addPending p).stallTotal = c.stallTotal := rfl
@[simp] theorem Core.addPending_freeze (c : Core) (p : Pending) : (c.addPending p).freeze = c.freeze := rfl
@[simp] theorem Core.addPending_arbShadow (c : Core) (p : Pending) : (c.addPending p).arbShadow = c.arbShadow := rfl
@[simp] theorem Core.addPending_arbActive (c : Core) (p : Pending) : (c.addPending p).arbActive = c.arbActive := rfl
@[simp] theorem Core.addPending_arbCommits (c : Core) (p : Pending) : (c.addPending p).arbCommits = c.arbCommits := rfl
@[simp] theorem Core.addPending_arbRefused (c : Core) (p : Pending) : (c.addPending p).arbRefused = c.arbRefused := rfl
@[simp] theorem Core.addPending_arbReason (c : Core) (p : Pending) : (c.addPending p).arbReason = c.arbReason := rfl
@[simp] theorem Core.addPending_arbs (c : Core) (p : Pending) : (c.addPending p).arbs = c.arbs := rfl
@[simp] theorem Core.addPending_cuParked (c : Core) (p : Pending) : (c.addPending p).cuParked = c.cuParked := rfl
@[simp] theorem Core.addPending_vecBeat (c : Core) (p : Pending) : (c.addPending p).vecBeat = c.vecBeat := rfl
@[simp] theorem Core.addPending_imemErr (c : Core) (p : Pending) : (c.addPending p).imemErr = c.imemErr := rfl
@[simp] theorem Core.addPending_accErr (c : Core) (p : Pending) : (c.addPending p).accErr = c.accErr := rfl
@[simp] theorem Core.addPending_vregErr (c : Core) (p : Pending) : (c.addPending p).vregErr = c.vregErr := rfl
@[simp] theorem Core.addPending_cacheErr (c : Core) (p : Pending) : (c.addPending p).cacheErr = c.cacheErr := rfl
@[simp] theorem Core.addPending_ptCache (c : Core) (p : Pending) : (c.addPending p).ptCache = c.ptCache := rfl
@[simp] theorem Core.addPending_ptMiss (c : Core) (p : Pending) : (c.addPending p).ptMiss = c.ptMiss := rfl
@[simp] theorem Core.addPending_ptRetry (c : Core) (p : Pending) : (c.addPending p).ptRetry = c.ptRetry := rfl
@[simp] theorem Core.addPending_steepMiss (c : Core) (p : Pending) : (c.addPending p).steepMiss = c.steepMiss := rfl
@[simp] theorem Core.addPending_lateRow (c : Core) (p : Pending) : (c.addPending p).lateRow = c.lateRow := rfl
@[simp] theorem Core.addPending_starvedTicks (c : Core) (p : Pending) : (c.addPending p).starvedTicks = c.starvedTicks := rfl
@[simp] theorem Core.addPending_starved (c : Core) (p : Pending) : (c.addPending p).starved = c.starved := rfl
@[simp] theorem Core.addPending_probeMissed (c : Core) (p : Pending) : (c.addPending p).probeMissed = c.probeMissed := rfl

/-! ## Core.setQueue -/

@[simp] theorem Core.setQueue_sregs (c : Core) (n : Nat) (q : StreamQueue) : (c.setQueue n q).sregs = c.sregs := rfl
@[simp] theorem Core.setQueue_pc (c : Core) (n : Nat) (q : StreamQueue) : (c.setQueue n q).pc = c.pc := rfl
@[simp] theorem Core.setQueue_bank (c : Core) (n : Nat) (q : StreamQueue) : (c.setQueue n q).bank = c.bank := rfl
@[simp] theorem Core.setQueue_slot (c : Core) (n : Nat) (q : StreamQueue) : (c.setQueue n q).slot = c.slot := rfl
@[simp] theorem Core.setQueue_idleUntil (c : Core) (n : Nat) (q : StreamQueue) : (c.setQueue n q).idleUntil = c.idleUntil := rfl
@[simp] theorem Core.setQueue_waiting (c : Core) (n : Nat) (q : StreamQueue) : (c.setQueue n q).waiting = c.waiting := rfl
@[simp] theorem Core.setQueue_iss (c : Core) (n : Nat) (q : StreamQueue) : (c.setQueue n q).iss = c.iss := rfl
@[simp] theorem Core.setQueue_refbeats (c : Core) (n : Nat) (q : StreamQueue) : (c.setQueue n q).refbeats = c.refbeats := rfl
@[simp] theorem Core.setQueue_ended (c : Core) (n : Nat) (q : StreamQueue) : (c.setQueue n q).ended = c.ended := rfl
@[simp] theorem Core.setQueue_faulted (c : Core) (n : Nat) (q : StreamQueue) : (c.setQueue n q).faulted = c.faulted := rfl
@[simp] theorem Core.setQueue_spoison (c : Core) (n : Nat) (q : StreamQueue) : (c.setQueue n q).spoison = c.spoison := rfl
@[simp] theorem Core.setQueue_evtLost (c : Core) (n : Nat) (q : StreamQueue) : (c.setQueue n q).evtLost = c.evtLost := rfl
@[simp] theorem Core.setQueue_faultReg (c : Core) (n : Nat) (q : StreamQueue) : (c.setQueue n q).faultReg = c.faultReg := rfl
@[simp] theorem Core.setQueue_faultSlot (c : Core) (n : Nat) (q : StreamQueue) : (c.setQueue n q).faultSlot = c.faultSlot := rfl
@[simp] theorem Core.setQueue_running (c : Core) (n : Nat) (q : StreamQueue) : (c.setQueue n q).running = c.running := rfl
@[simp] theorem Core.setQueue_stopping (c : Core) (n : Nat) (q : StreamQueue) : (c.setQueue n q).stopping = c.stopping := rfl
@[simp] theorem Core.setQueue_stopped (c : Core) (n : Nat) (q : StreamQueue) : (c.setQueue n q).stopped = c.stopped := rfl
@[simp] theorem Core.setQueue_off (c : Core) (n : Nat) (q : StreamQueue) : (c.setQueue n q).off = c.off := rfl
@[simp] theorem Core.setQueue_imem0 (c : Core) (n : Nat) (q : StreamQueue) : (c.setQueue n q).imem0 = c.imem0 := rfl
@[simp] theorem Core.setQueue_imem1 (c : Core) (n : Nat) (q : StreamQueue) : (c.setQueue n q).imem1 = c.imem1 := rfl
@[simp] theorem Core.setQueue_phase (c : Core) (n : Nat) (q : StreamQueue) : (c.setQueue n q).phase = c.phase := rfl
@[simp] theorem Core.setQueue_staged (c : Core) (n : Nat) (q : StreamQueue) : (c.setQueue n q).staged = c.staged := rfl
@[simp] theorem Core.setQueue_stagedSent (c : Core) (n : Nat) (q : StreamQueue) : (c.setQueue n q).stagedSent = c.stagedSent := rfl
@[simp] theorem Core.setQueue_stagedHere (c : Core) (n : Nat) (q : StreamQueue) : (c.setQueue n q).stagedHere = c.stagedHere := rfl
@[simp] theorem Core.setQueue_fromSlack (c : Core) (n : Nat) (q : StreamQueue) : (c.setQueue n q).fromSlack = c.fromSlack := rfl
@[simp] theorem Core.setQueue_switched (c : Core) (n : Nat) (q : StreamQueue) : (c.setQueue n q).switched = c.switched := rfl
@[simp] theorem Core.setQueue_pend (c : Core) (n : Nat) (q : StreamQueue) : (c.setQueue n q).pend = c.pend := rfl
@[simp] theorem Core.setQueue_matQ (c : Core) (n : Nat) (q : StreamQueue) : (c.setQueue n q).matQ = c.matQ := rfl
@[simp] theorem Core.setQueue_vecQ (c : Core) (n : Nat) (q : StreamQueue) : (c.setQueue n q).vecQ = c.vecQ := rfl
@[simp] theorem Core.setQueue_matTail (c : Core) (n : Nat) (q : StreamQueue) : (c.setQueue n q).matTail = c.matTail := rfl
@[simp] theorem Core.setQueue_vecTail (c : Core) (n : Nat) (q : StreamQueue) : (c.setQueue n q).vecTail = c.vecTail := rfl
@[simp] theorem Core.setQueue_matFrom (c : Core) (n : Nat) (q : StreamQueue) : (c.setQueue n q).matFrom = c.matFrom := rfl
@[simp] theorem Core.setQueue_vecFrom (c : Core) (n : Nat) (q : StreamQueue) : (c.setQueue n q).vecFrom = c.vecFrom := rfl
@[simp] theorem Core.setQueue_walkEnd (c : Core) (n : Nat) (q : StreamQueue) : (c.setQueue n q).walkEnd = c.walkEnd := rfl
@[simp] theorem Core.setQueue_matA (c : Core) (n : Nat) (q : StreamQueue) : (c.setQueue n q).matA = c.matA := rfl
@[simp] theorem Core.setQueue_vecA (c : Core) (n : Nat) (q : StreamQueue) : (c.setQueue n q).vecA = c.vecA := rfl
@[simp] theorem Core.setQueue_fetchQ (c : Core) (n : Nat) (q : StreamQueue) : (c.setQueue n q).fetchQ = c.fetchQ := rfl
@[simp] theorem Core.setQueue_dmaQ (c : Core) (n : Nat) (q : StreamQueue) : (c.setQueue n q).dmaQ = c.dmaQ := rfl
@[simp] theorem Core.setQueue_plane0 (c : Core) (n : Nat) (q : StreamQueue) : (c.setQueue n q).plane0 = c.plane0 := rfl
@[simp] theorem Core.setQueue_plane1 (c : Core) (n : Nat) (q : StreamQueue) : (c.setQueue n q).plane1 = c.plane1 := rfl
@[simp] theorem Core.setQueue_classErr (c : Core) (n : Nat) (q : StreamQueue) : (c.setQueue n q).classErr = c.classErr := rfl
@[simp] theorem Core.setQueue_seqPos (c : Core) (n : Nat) (q : StreamQueue) : (c.setQueue n q).seqPos = c.seqPos := rfl
@[simp] theorem Core.setQueue_acc (c : Core) (n : Nat) (q : StreamQueue) : (c.setQueue n q).acc = c.acc := rfl
@[simp] theorem Core.setQueue_accMarks (c : Core) (n : Nat) (q : StreamQueue) : (c.setQueue n q).accMarks = c.accMarks := rfl
@[simp] theorem Core.setQueue_vregs (c : Core) (n : Nat) (q : StreamQueue) : (c.setQueue n q).vregs = c.vregs := rfl
@[simp] theorem Core.setQueue_vregMarks (c : Core) (n : Nat) (q : StreamQueue) : (c.setQueue n q).vregMarks = c.vregMarks := rfl
@[simp] theorem Core.setQueue_cache (c : Core) (n : Nat) (q : StreamQueue) : (c.setQueue n q).cache = c.cache := rfl
@[simp] theorem Core.setQueue_cacheMarks (c : Core) (n : Nat) (q : StreamQueue) : (c.setQueue n q).cacheMarks = c.cacheMarks := rfl
@[simp] theorem Core.setQueue_vecStatus (c : Core) (n : Nat) (q : StreamQueue) : (c.setQueue n q).vecStatus = c.vecStatus := rfl
@[simp] theorem Core.setQueue_htapCfg (c : Core) (n : Nat) (q : StreamQueue) : (c.setQueue n q).htapCfg = c.htapCfg := rfl
@[simp] theorem Core.setQueue_rngSeed (c : Core) (n : Nat) (q : StreamQueue) : (c.setQueue n q).rngSeed = c.rngSeed := rfl
@[simp] theorem Core.setQueue_rngCtx (c : Core) (n : Nat) (q : StreamQueue) : (c.setQueue n q).rngCtx = c.rngCtx := rfl
@[simp] theorem Core.setQueue_htapBins (c : Core) (n : Nat) (q : StreamQueue) : (c.setQueue n q).htapBins = c.htapBins := rfl
@[simp] theorem Core.setQueue_htapPois (c : Core) (n : Nat) (q : StreamQueue) : (c.setQueue n q).htapPois = c.htapPois := rfl
@[simp] theorem Core.setQueue_htapInstr (c : Core) (n : Nat) (q : StreamQueue) : (c.setQueue n q).htapInstr = c.htapInstr := rfl
@[simp] theorem Core.setQueue_tapBusy (c : Core) (n : Nat) (q : StreamQueue) : (c.setQueue n q).tapBusy = c.tapBusy := rfl
@[simp] theorem Core.setQueue_ag (c : Core) (n : Nat) (q : StreamQueue) : (c.setQueue n q).ag = c.ag := rfl
@[simp] theorem Core.setQueue_rdl (c : Core) (n : Nat) (q : StreamQueue) : (c.setQueue n q).rdl = c.rdl := rfl
@[simp] theorem Core.setQueue_dma (c : Core) (n : Nat) (q : StreamQueue) : (c.setQueue n q).dma = c.dma := rfl
@[simp] theorem Core.setQueue_pk (c : Core) (n : Nat) (q : StreamQueue) : (c.setQueue n q).pk = c.pk := rfl
@[simp] theorem Core.setQueue_evts (c : Core) (n : Nat) (q : StreamQueue) : (c.setQueue n q).evts = c.evts := rfl
@[simp] theorem Core.setQueue_barArr (c : Core) (n : Nat) (q : StreamQueue) : (c.setQueue n q).barArr = c.barArr := rfl
@[simp] theorem Core.setQueue_barRel (c : Core) (n : Nat) (q : StreamQueue) : (c.setQueue n q).barRel = c.barRel := rfl
@[simp] theorem Core.setQueue_barFail (c : Core) (n : Nat) (q : StreamQueue) : (c.setQueue n q).barFail = c.barFail := rfl
@[simp] theorem Core.setQueue_barOut (c : Core) (n : Nat) (q : StreamQueue) : (c.setQueue n q).barOut = c.barOut := rfl
@[simp] theorem Core.setQueue_barGen (c : Core) (n : Nat) (q : StreamQueue) : (c.setQueue n q).barGen = c.barGen := rfl
@[simp] theorem Core.setQueue_pourDone (c : Core) (n : Nat) (q : StreamQueue) : (c.setQueue n q).pourDone = c.pourDone := rfl
@[simp] theorem Core.setQueue_pourSent (c : Core) (n : Nat) (q : StreamQueue) : (c.setQueue n q).pourSent = c.pourSent := rfl
@[simp] theorem Core.setQueue_pourFail (c : Core) (n : Nat) (q : StreamQueue) : (c.setQueue n q).pourFail = c.pourFail := rfl
@[simp] theorem Core.setQueue_units (c : Core) (n : Nat) (q : StreamQueue) : (c.setQueue n q).units = c.units := rfl
@[simp] theorem Core.setQueue_stallTotal (c : Core) (n : Nat) (q : StreamQueue) : (c.setQueue n q).stallTotal = c.stallTotal := rfl
@[simp] theorem Core.setQueue_freeze (c : Core) (n : Nat) (q : StreamQueue) : (c.setQueue n q).freeze = c.freeze := rfl
@[simp] theorem Core.setQueue_arbShadow (c : Core) (n : Nat) (q : StreamQueue) : (c.setQueue n q).arbShadow = c.arbShadow := rfl
@[simp] theorem Core.setQueue_arbActive (c : Core) (n : Nat) (q : StreamQueue) : (c.setQueue n q).arbActive = c.arbActive := rfl
@[simp] theorem Core.setQueue_arbCommits (c : Core) (n : Nat) (q : StreamQueue) : (c.setQueue n q).arbCommits = c.arbCommits := rfl
@[simp] theorem Core.setQueue_arbRefused (c : Core) (n : Nat) (q : StreamQueue) : (c.setQueue n q).arbRefused = c.arbRefused := rfl
@[simp] theorem Core.setQueue_arbReason (c : Core) (n : Nat) (q : StreamQueue) : (c.setQueue n q).arbReason = c.arbReason := rfl
@[simp] theorem Core.setQueue_arbs (c : Core) (n : Nat) (q : StreamQueue) : (c.setQueue n q).arbs = c.arbs := rfl
@[simp] theorem Core.setQueue_cuParked (c : Core) (n : Nat) (q : StreamQueue) : (c.setQueue n q).cuParked = c.cuParked := rfl
@[simp] theorem Core.setQueue_vecBeat (c : Core) (n : Nat) (q : StreamQueue) : (c.setQueue n q).vecBeat = c.vecBeat := rfl
@[simp] theorem Core.setQueue_imemErr (c : Core) (n : Nat) (q : StreamQueue) : (c.setQueue n q).imemErr = c.imemErr := rfl
@[simp] theorem Core.setQueue_accErr (c : Core) (n : Nat) (q : StreamQueue) : (c.setQueue n q).accErr = c.accErr := rfl
@[simp] theorem Core.setQueue_vregErr (c : Core) (n : Nat) (q : StreamQueue) : (c.setQueue n q).vregErr = c.vregErr := rfl
@[simp] theorem Core.setQueue_cacheErr (c : Core) (n : Nat) (q : StreamQueue) : (c.setQueue n q).cacheErr = c.cacheErr := rfl
@[simp] theorem Core.setQueue_ptCache (c : Core) (n : Nat) (q : StreamQueue) : (c.setQueue n q).ptCache = c.ptCache := rfl
@[simp] theorem Core.setQueue_ptMiss (c : Core) (n : Nat) (q : StreamQueue) : (c.setQueue n q).ptMiss = c.ptMiss := rfl
@[simp] theorem Core.setQueue_ptRetry (c : Core) (n : Nat) (q : StreamQueue) : (c.setQueue n q).ptRetry = c.ptRetry := rfl
@[simp] theorem Core.setQueue_steepMiss (c : Core) (n : Nat) (q : StreamQueue) : (c.setQueue n q).steepMiss = c.steepMiss := rfl
@[simp] theorem Core.setQueue_lateRow (c : Core) (n : Nat) (q : StreamQueue) : (c.setQueue n q).lateRow = c.lateRow := rfl
@[simp] theorem Core.setQueue_starvedTicks (c : Core) (n : Nat) (q : StreamQueue) : (c.setQueue n q).starvedTicks = c.starvedTicks := rfl
@[simp] theorem Core.setQueue_starved (c : Core) (n : Nat) (q : StreamQueue) : (c.setQueue n q).starved = c.starved := rfl
@[simp] theorem Core.setQueue_probeMissed (c : Core) (n : Nat) (q : StreamQueue) : (c.setQueue n q).probeMissed = c.probeMissed := rfl

/-! ## Core.setGen -/

@[simp] theorem Core.setGen_sregs (c : Core) (g : Nat) (a : AddrGen) : (c.setGen g a).sregs = c.sregs := rfl
@[simp] theorem Core.setGen_pc (c : Core) (g : Nat) (a : AddrGen) : (c.setGen g a).pc = c.pc := rfl
@[simp] theorem Core.setGen_bank (c : Core) (g : Nat) (a : AddrGen) : (c.setGen g a).bank = c.bank := rfl
@[simp] theorem Core.setGen_slot (c : Core) (g : Nat) (a : AddrGen) : (c.setGen g a).slot = c.slot := rfl
@[simp] theorem Core.setGen_idleUntil (c : Core) (g : Nat) (a : AddrGen) : (c.setGen g a).idleUntil = c.idleUntil := rfl
@[simp] theorem Core.setGen_waiting (c : Core) (g : Nat) (a : AddrGen) : (c.setGen g a).waiting = c.waiting := rfl
@[simp] theorem Core.setGen_iss (c : Core) (g : Nat) (a : AddrGen) : (c.setGen g a).iss = c.iss := rfl
@[simp] theorem Core.setGen_refbeats (c : Core) (g : Nat) (a : AddrGen) : (c.setGen g a).refbeats = c.refbeats := rfl
@[simp] theorem Core.setGen_ended (c : Core) (g : Nat) (a : AddrGen) : (c.setGen g a).ended = c.ended := rfl
@[simp] theorem Core.setGen_faulted (c : Core) (g : Nat) (a : AddrGen) : (c.setGen g a).faulted = c.faulted := rfl
@[simp] theorem Core.setGen_spoison (c : Core) (g : Nat) (a : AddrGen) : (c.setGen g a).spoison = c.spoison := rfl
@[simp] theorem Core.setGen_evtLost (c : Core) (g : Nat) (a : AddrGen) : (c.setGen g a).evtLost = c.evtLost := rfl
@[simp] theorem Core.setGen_faultReg (c : Core) (g : Nat) (a : AddrGen) : (c.setGen g a).faultReg = c.faultReg := rfl
@[simp] theorem Core.setGen_faultSlot (c : Core) (g : Nat) (a : AddrGen) : (c.setGen g a).faultSlot = c.faultSlot := rfl
@[simp] theorem Core.setGen_running (c : Core) (g : Nat) (a : AddrGen) : (c.setGen g a).running = c.running := rfl
@[simp] theorem Core.setGen_stopping (c : Core) (g : Nat) (a : AddrGen) : (c.setGen g a).stopping = c.stopping := rfl
@[simp] theorem Core.setGen_stopped (c : Core) (g : Nat) (a : AddrGen) : (c.setGen g a).stopped = c.stopped := rfl
@[simp] theorem Core.setGen_off (c : Core) (g : Nat) (a : AddrGen) : (c.setGen g a).off = c.off := rfl
@[simp] theorem Core.setGen_imem0 (c : Core) (g : Nat) (a : AddrGen) : (c.setGen g a).imem0 = c.imem0 := rfl
@[simp] theorem Core.setGen_imem1 (c : Core) (g : Nat) (a : AddrGen) : (c.setGen g a).imem1 = c.imem1 := rfl
@[simp] theorem Core.setGen_phase (c : Core) (g : Nat) (a : AddrGen) : (c.setGen g a).phase = c.phase := rfl
@[simp] theorem Core.setGen_staged (c : Core) (g : Nat) (a : AddrGen) : (c.setGen g a).staged = c.staged := rfl
@[simp] theorem Core.setGen_stagedSent (c : Core) (g : Nat) (a : AddrGen) : (c.setGen g a).stagedSent = c.stagedSent := rfl
@[simp] theorem Core.setGen_stagedHere (c : Core) (g : Nat) (a : AddrGen) : (c.setGen g a).stagedHere = c.stagedHere := rfl
@[simp] theorem Core.setGen_fromSlack (c : Core) (g : Nat) (a : AddrGen) : (c.setGen g a).fromSlack = c.fromSlack := rfl
@[simp] theorem Core.setGen_switched (c : Core) (g : Nat) (a : AddrGen) : (c.setGen g a).switched = c.switched := rfl
@[simp] theorem Core.setGen_pend (c : Core) (g : Nat) (a : AddrGen) : (c.setGen g a).pend = c.pend := rfl
@[simp] theorem Core.setGen_matQ (c : Core) (g : Nat) (a : AddrGen) : (c.setGen g a).matQ = c.matQ := rfl
@[simp] theorem Core.setGen_vecQ (c : Core) (g : Nat) (a : AddrGen) : (c.setGen g a).vecQ = c.vecQ := rfl
@[simp] theorem Core.setGen_matTail (c : Core) (g : Nat) (a : AddrGen) : (c.setGen g a).matTail = c.matTail := rfl
@[simp] theorem Core.setGen_vecTail (c : Core) (g : Nat) (a : AddrGen) : (c.setGen g a).vecTail = c.vecTail := rfl
@[simp] theorem Core.setGen_matFrom (c : Core) (g : Nat) (a : AddrGen) : (c.setGen g a).matFrom = c.matFrom := rfl
@[simp] theorem Core.setGen_vecFrom (c : Core) (g : Nat) (a : AddrGen) : (c.setGen g a).vecFrom = c.vecFrom := rfl
@[simp] theorem Core.setGen_walkEnd (c : Core) (g : Nat) (a : AddrGen) : (c.setGen g a).walkEnd = c.walkEnd := rfl
@[simp] theorem Core.setGen_matA (c : Core) (g : Nat) (a : AddrGen) : (c.setGen g a).matA = c.matA := rfl
@[simp] theorem Core.setGen_vecA (c : Core) (g : Nat) (a : AddrGen) : (c.setGen g a).vecA = c.vecA := rfl
@[simp] theorem Core.setGen_fetchQ (c : Core) (g : Nat) (a : AddrGen) : (c.setGen g a).fetchQ = c.fetchQ := rfl
@[simp] theorem Core.setGen_dmaQ (c : Core) (g : Nat) (a : AddrGen) : (c.setGen g a).dmaQ = c.dmaQ := rfl
@[simp] theorem Core.setGen_plane0 (c : Core) (g : Nat) (a : AddrGen) : (c.setGen g a).plane0 = c.plane0 := rfl
@[simp] theorem Core.setGen_plane1 (c : Core) (g : Nat) (a : AddrGen) : (c.setGen g a).plane1 = c.plane1 := rfl
@[simp] theorem Core.setGen_classErr (c : Core) (g : Nat) (a : AddrGen) : (c.setGen g a).classErr = c.classErr := rfl
@[simp] theorem Core.setGen_seqPos (c : Core) (g : Nat) (a : AddrGen) : (c.setGen g a).seqPos = c.seqPos := rfl
@[simp] theorem Core.setGen_acc (c : Core) (g : Nat) (a : AddrGen) : (c.setGen g a).acc = c.acc := rfl
@[simp] theorem Core.setGen_accMarks (c : Core) (g : Nat) (a : AddrGen) : (c.setGen g a).accMarks = c.accMarks := rfl
@[simp] theorem Core.setGen_vregs (c : Core) (g : Nat) (a : AddrGen) : (c.setGen g a).vregs = c.vregs := rfl
@[simp] theorem Core.setGen_vregMarks (c : Core) (g : Nat) (a : AddrGen) : (c.setGen g a).vregMarks = c.vregMarks := rfl
@[simp] theorem Core.setGen_cache (c : Core) (g : Nat) (a : AddrGen) : (c.setGen g a).cache = c.cache := rfl
@[simp] theorem Core.setGen_cacheMarks (c : Core) (g : Nat) (a : AddrGen) : (c.setGen g a).cacheMarks = c.cacheMarks := rfl
@[simp] theorem Core.setGen_vecStatus (c : Core) (g : Nat) (a : AddrGen) : (c.setGen g a).vecStatus = c.vecStatus := rfl
@[simp] theorem Core.setGen_htapCfg (c : Core) (g : Nat) (a : AddrGen) : (c.setGen g a).htapCfg = c.htapCfg := rfl
@[simp] theorem Core.setGen_rngSeed (c : Core) (g : Nat) (a : AddrGen) : (c.setGen g a).rngSeed = c.rngSeed := rfl
@[simp] theorem Core.setGen_rngCtx (c : Core) (g : Nat) (a : AddrGen) : (c.setGen g a).rngCtx = c.rngCtx := rfl
@[simp] theorem Core.setGen_htapBins (c : Core) (g : Nat) (a : AddrGen) : (c.setGen g a).htapBins = c.htapBins := rfl
@[simp] theorem Core.setGen_htapPois (c : Core) (g : Nat) (a : AddrGen) : (c.setGen g a).htapPois = c.htapPois := rfl
@[simp] theorem Core.setGen_htapInstr (c : Core) (g : Nat) (a : AddrGen) : (c.setGen g a).htapInstr = c.htapInstr := rfl
@[simp] theorem Core.setGen_tapBusy (c : Core) (g : Nat) (a : AddrGen) : (c.setGen g a).tapBusy = c.tapBusy := rfl
@[simp] theorem Core.setGen_sq (c : Core) (g : Nat) (a : AddrGen) : (c.setGen g a).sq = c.sq := rfl
@[simp] theorem Core.setGen_rdl (c : Core) (g : Nat) (a : AddrGen) : (c.setGen g a).rdl = c.rdl := rfl
@[simp] theorem Core.setGen_dma (c : Core) (g : Nat) (a : AddrGen) : (c.setGen g a).dma = c.dma := rfl
@[simp] theorem Core.setGen_pk (c : Core) (g : Nat) (a : AddrGen) : (c.setGen g a).pk = c.pk := rfl
@[simp] theorem Core.setGen_evts (c : Core) (g : Nat) (a : AddrGen) : (c.setGen g a).evts = c.evts := rfl
@[simp] theorem Core.setGen_barArr (c : Core) (g : Nat) (a : AddrGen) : (c.setGen g a).barArr = c.barArr := rfl
@[simp] theorem Core.setGen_barRel (c : Core) (g : Nat) (a : AddrGen) : (c.setGen g a).barRel = c.barRel := rfl
@[simp] theorem Core.setGen_barFail (c : Core) (g : Nat) (a : AddrGen) : (c.setGen g a).barFail = c.barFail := rfl
@[simp] theorem Core.setGen_barOut (c : Core) (g : Nat) (a : AddrGen) : (c.setGen g a).barOut = c.barOut := rfl
@[simp] theorem Core.setGen_barGen (c : Core) (g : Nat) (a : AddrGen) : (c.setGen g a).barGen = c.barGen := rfl
@[simp] theorem Core.setGen_pourDone (c : Core) (g : Nat) (a : AddrGen) : (c.setGen g a).pourDone = c.pourDone := rfl
@[simp] theorem Core.setGen_pourSent (c : Core) (g : Nat) (a : AddrGen) : (c.setGen g a).pourSent = c.pourSent := rfl
@[simp] theorem Core.setGen_pourFail (c : Core) (g : Nat) (a : AddrGen) : (c.setGen g a).pourFail = c.pourFail := rfl
@[simp] theorem Core.setGen_units (c : Core) (g : Nat) (a : AddrGen) : (c.setGen g a).units = c.units := rfl
@[simp] theorem Core.setGen_stallTotal (c : Core) (g : Nat) (a : AddrGen) : (c.setGen g a).stallTotal = c.stallTotal := rfl
@[simp] theorem Core.setGen_freeze (c : Core) (g : Nat) (a : AddrGen) : (c.setGen g a).freeze = c.freeze := rfl
@[simp] theorem Core.setGen_arbShadow (c : Core) (g : Nat) (a : AddrGen) : (c.setGen g a).arbShadow = c.arbShadow := rfl
@[simp] theorem Core.setGen_arbActive (c : Core) (g : Nat) (a : AddrGen) : (c.setGen g a).arbActive = c.arbActive := rfl
@[simp] theorem Core.setGen_arbCommits (c : Core) (g : Nat) (a : AddrGen) : (c.setGen g a).arbCommits = c.arbCommits := rfl
@[simp] theorem Core.setGen_arbRefused (c : Core) (g : Nat) (a : AddrGen) : (c.setGen g a).arbRefused = c.arbRefused := rfl
@[simp] theorem Core.setGen_arbReason (c : Core) (g : Nat) (a : AddrGen) : (c.setGen g a).arbReason = c.arbReason := rfl
@[simp] theorem Core.setGen_arbs (c : Core) (g : Nat) (a : AddrGen) : (c.setGen g a).arbs = c.arbs := rfl
@[simp] theorem Core.setGen_cuParked (c : Core) (g : Nat) (a : AddrGen) : (c.setGen g a).cuParked = c.cuParked := rfl
@[simp] theorem Core.setGen_vecBeat (c : Core) (g : Nat) (a : AddrGen) : (c.setGen g a).vecBeat = c.vecBeat := rfl
@[simp] theorem Core.setGen_imemErr (c : Core) (g : Nat) (a : AddrGen) : (c.setGen g a).imemErr = c.imemErr := rfl
@[simp] theorem Core.setGen_accErr (c : Core) (g : Nat) (a : AddrGen) : (c.setGen g a).accErr = c.accErr := rfl
@[simp] theorem Core.setGen_vregErr (c : Core) (g : Nat) (a : AddrGen) : (c.setGen g a).vregErr = c.vregErr := rfl
@[simp] theorem Core.setGen_cacheErr (c : Core) (g : Nat) (a : AddrGen) : (c.setGen g a).cacheErr = c.cacheErr := rfl
@[simp] theorem Core.setGen_ptCache (c : Core) (g : Nat) (a : AddrGen) : (c.setGen g a).ptCache = c.ptCache := rfl
@[simp] theorem Core.setGen_ptMiss (c : Core) (g : Nat) (a : AddrGen) : (c.setGen g a).ptMiss = c.ptMiss := rfl
@[simp] theorem Core.setGen_ptRetry (c : Core) (g : Nat) (a : AddrGen) : (c.setGen g a).ptRetry = c.ptRetry := rfl
@[simp] theorem Core.setGen_steepMiss (c : Core) (g : Nat) (a : AddrGen) : (c.setGen g a).steepMiss = c.steepMiss := rfl
@[simp] theorem Core.setGen_lateRow (c : Core) (g : Nat) (a : AddrGen) : (c.setGen g a).lateRow = c.lateRow := rfl
@[simp] theorem Core.setGen_starvedTicks (c : Core) (g : Nat) (a : AddrGen) : (c.setGen g a).starvedTicks = c.starvedTicks := rfl
@[simp] theorem Core.setGen_starved (c : Core) (g : Nat) (a : AddrGen) : (c.setGen g a).starved = c.starved := rfl
@[simp] theorem Core.setGen_probeMissed (c : Core) (g : Nat) (a : AddrGen) : (c.setGen g a).probeMissed = c.probeMissed := rfl

/-! ## Core.setChan -/

@[simp] theorem Core.setChan_sregs (c : Core) (ch : Nat) (d : DmaChannel) : (c.setChan ch d).sregs = c.sregs := rfl
@[simp] theorem Core.setChan_pc (c : Core) (ch : Nat) (d : DmaChannel) : (c.setChan ch d).pc = c.pc := rfl
@[simp] theorem Core.setChan_bank (c : Core) (ch : Nat) (d : DmaChannel) : (c.setChan ch d).bank = c.bank := rfl
@[simp] theorem Core.setChan_slot (c : Core) (ch : Nat) (d : DmaChannel) : (c.setChan ch d).slot = c.slot := rfl
@[simp] theorem Core.setChan_idleUntil (c : Core) (ch : Nat) (d : DmaChannel) : (c.setChan ch d).idleUntil = c.idleUntil := rfl
@[simp] theorem Core.setChan_waiting (c : Core) (ch : Nat) (d : DmaChannel) : (c.setChan ch d).waiting = c.waiting := rfl
@[simp] theorem Core.setChan_iss (c : Core) (ch : Nat) (d : DmaChannel) : (c.setChan ch d).iss = c.iss := rfl
@[simp] theorem Core.setChan_refbeats (c : Core) (ch : Nat) (d : DmaChannel) : (c.setChan ch d).refbeats = c.refbeats := rfl
@[simp] theorem Core.setChan_ended (c : Core) (ch : Nat) (d : DmaChannel) : (c.setChan ch d).ended = c.ended := rfl
@[simp] theorem Core.setChan_faulted (c : Core) (ch : Nat) (d : DmaChannel) : (c.setChan ch d).faulted = c.faulted := rfl
@[simp] theorem Core.setChan_spoison (c : Core) (ch : Nat) (d : DmaChannel) : (c.setChan ch d).spoison = c.spoison := rfl
@[simp] theorem Core.setChan_evtLost (c : Core) (ch : Nat) (d : DmaChannel) : (c.setChan ch d).evtLost = c.evtLost := rfl
@[simp] theorem Core.setChan_faultReg (c : Core) (ch : Nat) (d : DmaChannel) : (c.setChan ch d).faultReg = c.faultReg := rfl
@[simp] theorem Core.setChan_faultSlot (c : Core) (ch : Nat) (d : DmaChannel) : (c.setChan ch d).faultSlot = c.faultSlot := rfl
@[simp] theorem Core.setChan_running (c : Core) (ch : Nat) (d : DmaChannel) : (c.setChan ch d).running = c.running := rfl
@[simp] theorem Core.setChan_stopping (c : Core) (ch : Nat) (d : DmaChannel) : (c.setChan ch d).stopping = c.stopping := rfl
@[simp] theorem Core.setChan_stopped (c : Core) (ch : Nat) (d : DmaChannel) : (c.setChan ch d).stopped = c.stopped := rfl
@[simp] theorem Core.setChan_off (c : Core) (ch : Nat) (d : DmaChannel) : (c.setChan ch d).off = c.off := rfl
@[simp] theorem Core.setChan_imem0 (c : Core) (ch : Nat) (d : DmaChannel) : (c.setChan ch d).imem0 = c.imem0 := rfl
@[simp] theorem Core.setChan_imem1 (c : Core) (ch : Nat) (d : DmaChannel) : (c.setChan ch d).imem1 = c.imem1 := rfl
@[simp] theorem Core.setChan_phase (c : Core) (ch : Nat) (d : DmaChannel) : (c.setChan ch d).phase = c.phase := rfl
@[simp] theorem Core.setChan_staged (c : Core) (ch : Nat) (d : DmaChannel) : (c.setChan ch d).staged = c.staged := rfl
@[simp] theorem Core.setChan_stagedSent (c : Core) (ch : Nat) (d : DmaChannel) : (c.setChan ch d).stagedSent = c.stagedSent := rfl
@[simp] theorem Core.setChan_stagedHere (c : Core) (ch : Nat) (d : DmaChannel) : (c.setChan ch d).stagedHere = c.stagedHere := rfl
@[simp] theorem Core.setChan_fromSlack (c : Core) (ch : Nat) (d : DmaChannel) : (c.setChan ch d).fromSlack = c.fromSlack := rfl
@[simp] theorem Core.setChan_switched (c : Core) (ch : Nat) (d : DmaChannel) : (c.setChan ch d).switched = c.switched := rfl
@[simp] theorem Core.setChan_pend (c : Core) (ch : Nat) (d : DmaChannel) : (c.setChan ch d).pend = c.pend := rfl
@[simp] theorem Core.setChan_matQ (c : Core) (ch : Nat) (d : DmaChannel) : (c.setChan ch d).matQ = c.matQ := rfl
@[simp] theorem Core.setChan_vecQ (c : Core) (ch : Nat) (d : DmaChannel) : (c.setChan ch d).vecQ = c.vecQ := rfl
@[simp] theorem Core.setChan_matTail (c : Core) (ch : Nat) (d : DmaChannel) : (c.setChan ch d).matTail = c.matTail := rfl
@[simp] theorem Core.setChan_vecTail (c : Core) (ch : Nat) (d : DmaChannel) : (c.setChan ch d).vecTail = c.vecTail := rfl
@[simp] theorem Core.setChan_matFrom (c : Core) (ch : Nat) (d : DmaChannel) : (c.setChan ch d).matFrom = c.matFrom := rfl
@[simp] theorem Core.setChan_vecFrom (c : Core) (ch : Nat) (d : DmaChannel) : (c.setChan ch d).vecFrom = c.vecFrom := rfl
@[simp] theorem Core.setChan_walkEnd (c : Core) (ch : Nat) (d : DmaChannel) : (c.setChan ch d).walkEnd = c.walkEnd := rfl
@[simp] theorem Core.setChan_matA (c : Core) (ch : Nat) (d : DmaChannel) : (c.setChan ch d).matA = c.matA := rfl
@[simp] theorem Core.setChan_vecA (c : Core) (ch : Nat) (d : DmaChannel) : (c.setChan ch d).vecA = c.vecA := rfl
@[simp] theorem Core.setChan_fetchQ (c : Core) (ch : Nat) (d : DmaChannel) : (c.setChan ch d).fetchQ = c.fetchQ := rfl
@[simp] theorem Core.setChan_dmaQ (c : Core) (ch : Nat) (d : DmaChannel) : (c.setChan ch d).dmaQ = c.dmaQ := rfl
@[simp] theorem Core.setChan_plane0 (c : Core) (ch : Nat) (d : DmaChannel) : (c.setChan ch d).plane0 = c.plane0 := rfl
@[simp] theorem Core.setChan_plane1 (c : Core) (ch : Nat) (d : DmaChannel) : (c.setChan ch d).plane1 = c.plane1 := rfl
@[simp] theorem Core.setChan_classErr (c : Core) (ch : Nat) (d : DmaChannel) : (c.setChan ch d).classErr = c.classErr := rfl
@[simp] theorem Core.setChan_seqPos (c : Core) (ch : Nat) (d : DmaChannel) : (c.setChan ch d).seqPos = c.seqPos := rfl
@[simp] theorem Core.setChan_acc (c : Core) (ch : Nat) (d : DmaChannel) : (c.setChan ch d).acc = c.acc := rfl
@[simp] theorem Core.setChan_accMarks (c : Core) (ch : Nat) (d : DmaChannel) : (c.setChan ch d).accMarks = c.accMarks := rfl
@[simp] theorem Core.setChan_vregs (c : Core) (ch : Nat) (d : DmaChannel) : (c.setChan ch d).vregs = c.vregs := rfl
@[simp] theorem Core.setChan_vregMarks (c : Core) (ch : Nat) (d : DmaChannel) : (c.setChan ch d).vregMarks = c.vregMarks := rfl
@[simp] theorem Core.setChan_cache (c : Core) (ch : Nat) (d : DmaChannel) : (c.setChan ch d).cache = c.cache := rfl
@[simp] theorem Core.setChan_cacheMarks (c : Core) (ch : Nat) (d : DmaChannel) : (c.setChan ch d).cacheMarks = c.cacheMarks := rfl
@[simp] theorem Core.setChan_vecStatus (c : Core) (ch : Nat) (d : DmaChannel) : (c.setChan ch d).vecStatus = c.vecStatus := rfl
@[simp] theorem Core.setChan_htapCfg (c : Core) (ch : Nat) (d : DmaChannel) : (c.setChan ch d).htapCfg = c.htapCfg := rfl
@[simp] theorem Core.setChan_rngSeed (c : Core) (ch : Nat) (d : DmaChannel) : (c.setChan ch d).rngSeed = c.rngSeed := rfl
@[simp] theorem Core.setChan_rngCtx (c : Core) (ch : Nat) (d : DmaChannel) : (c.setChan ch d).rngCtx = c.rngCtx := rfl
@[simp] theorem Core.setChan_htapBins (c : Core) (ch : Nat) (d : DmaChannel) : (c.setChan ch d).htapBins = c.htapBins := rfl
@[simp] theorem Core.setChan_htapPois (c : Core) (ch : Nat) (d : DmaChannel) : (c.setChan ch d).htapPois = c.htapPois := rfl
@[simp] theorem Core.setChan_htapInstr (c : Core) (ch : Nat) (d : DmaChannel) : (c.setChan ch d).htapInstr = c.htapInstr := rfl
@[simp] theorem Core.setChan_tapBusy (c : Core) (ch : Nat) (d : DmaChannel) : (c.setChan ch d).tapBusy = c.tapBusy := rfl
@[simp] theorem Core.setChan_sq (c : Core) (ch : Nat) (d : DmaChannel) : (c.setChan ch d).sq = c.sq := rfl
@[simp] theorem Core.setChan_ag (c : Core) (ch : Nat) (d : DmaChannel) : (c.setChan ch d).ag = c.ag := rfl
@[simp] theorem Core.setChan_rdl (c : Core) (ch : Nat) (d : DmaChannel) : (c.setChan ch d).rdl = c.rdl := rfl
@[simp] theorem Core.setChan_pk (c : Core) (ch : Nat) (d : DmaChannel) : (c.setChan ch d).pk = c.pk := rfl
@[simp] theorem Core.setChan_evts (c : Core) (ch : Nat) (d : DmaChannel) : (c.setChan ch d).evts = c.evts := rfl
@[simp] theorem Core.setChan_barArr (c : Core) (ch : Nat) (d : DmaChannel) : (c.setChan ch d).barArr = c.barArr := rfl
@[simp] theorem Core.setChan_barRel (c : Core) (ch : Nat) (d : DmaChannel) : (c.setChan ch d).barRel = c.barRel := rfl
@[simp] theorem Core.setChan_barFail (c : Core) (ch : Nat) (d : DmaChannel) : (c.setChan ch d).barFail = c.barFail := rfl
@[simp] theorem Core.setChan_barOut (c : Core) (ch : Nat) (d : DmaChannel) : (c.setChan ch d).barOut = c.barOut := rfl
@[simp] theorem Core.setChan_barGen (c : Core) (ch : Nat) (d : DmaChannel) : (c.setChan ch d).barGen = c.barGen := rfl
@[simp] theorem Core.setChan_pourDone (c : Core) (ch : Nat) (d : DmaChannel) : (c.setChan ch d).pourDone = c.pourDone := rfl
@[simp] theorem Core.setChan_pourSent (c : Core) (ch : Nat) (d : DmaChannel) : (c.setChan ch d).pourSent = c.pourSent := rfl
@[simp] theorem Core.setChan_pourFail (c : Core) (ch : Nat) (d : DmaChannel) : (c.setChan ch d).pourFail = c.pourFail := rfl
@[simp] theorem Core.setChan_units (c : Core) (ch : Nat) (d : DmaChannel) : (c.setChan ch d).units = c.units := rfl
@[simp] theorem Core.setChan_stallTotal (c : Core) (ch : Nat) (d : DmaChannel) : (c.setChan ch d).stallTotal = c.stallTotal := rfl
@[simp] theorem Core.setChan_freeze (c : Core) (ch : Nat) (d : DmaChannel) : (c.setChan ch d).freeze = c.freeze := rfl
@[simp] theorem Core.setChan_arbShadow (c : Core) (ch : Nat) (d : DmaChannel) : (c.setChan ch d).arbShadow = c.arbShadow := rfl
@[simp] theorem Core.setChan_arbActive (c : Core) (ch : Nat) (d : DmaChannel) : (c.setChan ch d).arbActive = c.arbActive := rfl
@[simp] theorem Core.setChan_arbCommits (c : Core) (ch : Nat) (d : DmaChannel) : (c.setChan ch d).arbCommits = c.arbCommits := rfl
@[simp] theorem Core.setChan_arbRefused (c : Core) (ch : Nat) (d : DmaChannel) : (c.setChan ch d).arbRefused = c.arbRefused := rfl
@[simp] theorem Core.setChan_arbReason (c : Core) (ch : Nat) (d : DmaChannel) : (c.setChan ch d).arbReason = c.arbReason := rfl
@[simp] theorem Core.setChan_arbs (c : Core) (ch : Nat) (d : DmaChannel) : (c.setChan ch d).arbs = c.arbs := rfl
@[simp] theorem Core.setChan_cuParked (c : Core) (ch : Nat) (d : DmaChannel) : (c.setChan ch d).cuParked = c.cuParked := rfl
@[simp] theorem Core.setChan_vecBeat (c : Core) (ch : Nat) (d : DmaChannel) : (c.setChan ch d).vecBeat = c.vecBeat := rfl
@[simp] theorem Core.setChan_imemErr (c : Core) (ch : Nat) (d : DmaChannel) : (c.setChan ch d).imemErr = c.imemErr := rfl
@[simp] theorem Core.setChan_accErr (c : Core) (ch : Nat) (d : DmaChannel) : (c.setChan ch d).accErr = c.accErr := rfl
@[simp] theorem Core.setChan_vregErr (c : Core) (ch : Nat) (d : DmaChannel) : (c.setChan ch d).vregErr = c.vregErr := rfl
@[simp] theorem Core.setChan_cacheErr (c : Core) (ch : Nat) (d : DmaChannel) : (c.setChan ch d).cacheErr = c.cacheErr := rfl
@[simp] theorem Core.setChan_ptCache (c : Core) (ch : Nat) (d : DmaChannel) : (c.setChan ch d).ptCache = c.ptCache := rfl
@[simp] theorem Core.setChan_ptMiss (c : Core) (ch : Nat) (d : DmaChannel) : (c.setChan ch d).ptMiss = c.ptMiss := rfl
@[simp] theorem Core.setChan_ptRetry (c : Core) (ch : Nat) (d : DmaChannel) : (c.setChan ch d).ptRetry = c.ptRetry := rfl
@[simp] theorem Core.setChan_steepMiss (c : Core) (ch : Nat) (d : DmaChannel) : (c.setChan ch d).steepMiss = c.steepMiss := rfl
@[simp] theorem Core.setChan_lateRow (c : Core) (ch : Nat) (d : DmaChannel) : (c.setChan ch d).lateRow = c.lateRow := rfl
@[simp] theorem Core.setChan_starvedTicks (c : Core) (ch : Nat) (d : DmaChannel) : (c.setChan ch d).starvedTicks = c.starvedTicks := rfl
@[simp] theorem Core.setChan_starved (c : Core) (ch : Nat) (d : DmaChannel) : (c.setChan ch d).starved = c.starved := rfl
@[simp] theorem Core.setChan_probeMissed (c : Core) (ch : Nat) (d : DmaChannel) : (c.setChan ch d).probeMissed = c.probeMissed := rfl

/-! ## Core.setS -/

@[simp] theorem Core.setS_pc (c : Core) (r : BitVec 5) (v : Word) : (c.setS r v).pc = c.pc := by
  rw [Core.setS]; split <;> rfl
@[simp] theorem Core.setS_bank (c : Core) (r : BitVec 5) (v : Word) : (c.setS r v).bank = c.bank := by
  rw [Core.setS]; split <;> rfl
@[simp] theorem Core.setS_slot (c : Core) (r : BitVec 5) (v : Word) : (c.setS r v).slot = c.slot := by
  rw [Core.setS]; split <;> rfl
@[simp] theorem Core.setS_idleUntil (c : Core) (r : BitVec 5) (v : Word) : (c.setS r v).idleUntil = c.idleUntil := by
  rw [Core.setS]; split <;> rfl
@[simp] theorem Core.setS_waiting (c : Core) (r : BitVec 5) (v : Word) : (c.setS r v).waiting = c.waiting := by
  rw [Core.setS]; split <;> rfl
@[simp] theorem Core.setS_iss (c : Core) (r : BitVec 5) (v : Word) : (c.setS r v).iss = c.iss := by
  rw [Core.setS]; split <;> rfl
@[simp] theorem Core.setS_refbeats (c : Core) (r : BitVec 5) (v : Word) : (c.setS r v).refbeats = c.refbeats := by
  rw [Core.setS]; split <;> rfl
@[simp] theorem Core.setS_ended (c : Core) (r : BitVec 5) (v : Word) : (c.setS r v).ended = c.ended := by
  rw [Core.setS]; split <;> rfl
@[simp] theorem Core.setS_faulted (c : Core) (r : BitVec 5) (v : Word) : (c.setS r v).faulted = c.faulted := by
  rw [Core.setS]; split <;> rfl
@[simp] theorem Core.setS_spoison (c : Core) (r : BitVec 5) (v : Word) : (c.setS r v).spoison = c.spoison := by
  rw [Core.setS]; split <;> rfl
@[simp] theorem Core.setS_evtLost (c : Core) (r : BitVec 5) (v : Word) : (c.setS r v).evtLost = c.evtLost := by
  rw [Core.setS]; split <;> rfl
@[simp] theorem Core.setS_faultReg (c : Core) (r : BitVec 5) (v : Word) : (c.setS r v).faultReg = c.faultReg := by
  rw [Core.setS]; split <;> rfl
@[simp] theorem Core.setS_faultSlot (c : Core) (r : BitVec 5) (v : Word) : (c.setS r v).faultSlot = c.faultSlot := by
  rw [Core.setS]; split <;> rfl
@[simp] theorem Core.setS_running (c : Core) (r : BitVec 5) (v : Word) : (c.setS r v).running = c.running := by
  rw [Core.setS]; split <;> rfl
@[simp] theorem Core.setS_stopping (c : Core) (r : BitVec 5) (v : Word) : (c.setS r v).stopping = c.stopping := by
  rw [Core.setS]; split <;> rfl
@[simp] theorem Core.setS_stopped (c : Core) (r : BitVec 5) (v : Word) : (c.setS r v).stopped = c.stopped := by
  rw [Core.setS]; split <;> rfl
@[simp] theorem Core.setS_off (c : Core) (r : BitVec 5) (v : Word) : (c.setS r v).off = c.off := by
  rw [Core.setS]; split <;> rfl
@[simp] theorem Core.setS_imem0 (c : Core) (r : BitVec 5) (v : Word) : (c.setS r v).imem0 = c.imem0 := by
  rw [Core.setS]; split <;> rfl
@[simp] theorem Core.setS_imem1 (c : Core) (r : BitVec 5) (v : Word) : (c.setS r v).imem1 = c.imem1 := by
  rw [Core.setS]; split <;> rfl
@[simp] theorem Core.setS_phase (c : Core) (r : BitVec 5) (v : Word) : (c.setS r v).phase = c.phase := by
  rw [Core.setS]; split <;> rfl
@[simp] theorem Core.setS_staged (c : Core) (r : BitVec 5) (v : Word) : (c.setS r v).staged = c.staged := by
  rw [Core.setS]; split <;> rfl
@[simp] theorem Core.setS_stagedSent (c : Core) (r : BitVec 5) (v : Word) : (c.setS r v).stagedSent = c.stagedSent := by
  rw [Core.setS]; split <;> rfl
@[simp] theorem Core.setS_stagedHere (c : Core) (r : BitVec 5) (v : Word) : (c.setS r v).stagedHere = c.stagedHere := by
  rw [Core.setS]; split <;> rfl
@[simp] theorem Core.setS_fromSlack (c : Core) (r : BitVec 5) (v : Word) : (c.setS r v).fromSlack = c.fromSlack := by
  rw [Core.setS]; split <;> rfl
@[simp] theorem Core.setS_switched (c : Core) (r : BitVec 5) (v : Word) : (c.setS r v).switched = c.switched := by
  rw [Core.setS]; split <;> rfl
@[simp] theorem Core.setS_pend (c : Core) (r : BitVec 5) (v : Word) : (c.setS r v).pend = c.pend := by
  rw [Core.setS]; split <;> rfl
@[simp] theorem Core.setS_matQ (c : Core) (r : BitVec 5) (v : Word) : (c.setS r v).matQ = c.matQ := by
  rw [Core.setS]; split <;> rfl
@[simp] theorem Core.setS_vecQ (c : Core) (r : BitVec 5) (v : Word) : (c.setS r v).vecQ = c.vecQ := by
  rw [Core.setS]; split <;> rfl
@[simp] theorem Core.setS_matTail (c : Core) (r : BitVec 5) (v : Word) : (c.setS r v).matTail = c.matTail := by
  rw [Core.setS]; split <;> rfl
@[simp] theorem Core.setS_vecTail (c : Core) (r : BitVec 5) (v : Word) : (c.setS r v).vecTail = c.vecTail := by
  rw [Core.setS]; split <;> rfl
@[simp] theorem Core.setS_matFrom (c : Core) (r : BitVec 5) (v : Word) : (c.setS r v).matFrom = c.matFrom := by
  rw [Core.setS]; split <;> rfl
@[simp] theorem Core.setS_vecFrom (c : Core) (r : BitVec 5) (v : Word) : (c.setS r v).vecFrom = c.vecFrom := by
  rw [Core.setS]; split <;> rfl
@[simp] theorem Core.setS_walkEnd (c : Core) (r : BitVec 5) (v : Word) : (c.setS r v).walkEnd = c.walkEnd := by
  rw [Core.setS]; split <;> rfl
@[simp] theorem Core.setS_matA (c : Core) (r : BitVec 5) (v : Word) : (c.setS r v).matA = c.matA := by
  rw [Core.setS]; split <;> rfl
@[simp] theorem Core.setS_vecA (c : Core) (r : BitVec 5) (v : Word) : (c.setS r v).vecA = c.vecA := by
  rw [Core.setS]; split <;> rfl
@[simp] theorem Core.setS_fetchQ (c : Core) (r : BitVec 5) (v : Word) : (c.setS r v).fetchQ = c.fetchQ := by
  rw [Core.setS]; split <;> rfl
@[simp] theorem Core.setS_dmaQ (c : Core) (r : BitVec 5) (v : Word) : (c.setS r v).dmaQ = c.dmaQ := by
  rw [Core.setS]; split <;> rfl
@[simp] theorem Core.setS_plane0 (c : Core) (r : BitVec 5) (v : Word) : (c.setS r v).plane0 = c.plane0 := by
  rw [Core.setS]; split <;> rfl
@[simp] theorem Core.setS_plane1 (c : Core) (r : BitVec 5) (v : Word) : (c.setS r v).plane1 = c.plane1 := by
  rw [Core.setS]; split <;> rfl
@[simp] theorem Core.setS_classErr (c : Core) (r : BitVec 5) (v : Word) : (c.setS r v).classErr = c.classErr := by
  rw [Core.setS]; split <;> rfl
@[simp] theorem Core.setS_seqPos (c : Core) (r : BitVec 5) (v : Word) : (c.setS r v).seqPos = c.seqPos := by
  rw [Core.setS]; split <;> rfl
@[simp] theorem Core.setS_acc (c : Core) (r : BitVec 5) (v : Word) : (c.setS r v).acc = c.acc := by
  rw [Core.setS]; split <;> rfl
@[simp] theorem Core.setS_accMarks (c : Core) (r : BitVec 5) (v : Word) : (c.setS r v).accMarks = c.accMarks := by
  rw [Core.setS]; split <;> rfl
@[simp] theorem Core.setS_vregs (c : Core) (r : BitVec 5) (v : Word) : (c.setS r v).vregs = c.vregs := by
  rw [Core.setS]; split <;> rfl
@[simp] theorem Core.setS_vregMarks (c : Core) (r : BitVec 5) (v : Word) : (c.setS r v).vregMarks = c.vregMarks := by
  rw [Core.setS]; split <;> rfl
@[simp] theorem Core.setS_cache (c : Core) (r : BitVec 5) (v : Word) : (c.setS r v).cache = c.cache := by
  rw [Core.setS]; split <;> rfl
@[simp] theorem Core.setS_cacheMarks (c : Core) (r : BitVec 5) (v : Word) : (c.setS r v).cacheMarks = c.cacheMarks := by
  rw [Core.setS]; split <;> rfl
@[simp] theorem Core.setS_vecStatus (c : Core) (r : BitVec 5) (v : Word) : (c.setS r v).vecStatus = c.vecStatus := by
  rw [Core.setS]; split <;> rfl
@[simp] theorem Core.setS_htapCfg (c : Core) (r : BitVec 5) (v : Word) : (c.setS r v).htapCfg = c.htapCfg := by
  rw [Core.setS]; split <;> rfl
@[simp] theorem Core.setS_rngSeed (c : Core) (r : BitVec 5) (v : Word) : (c.setS r v).rngSeed = c.rngSeed := by
  rw [Core.setS]; split <;> rfl
@[simp] theorem Core.setS_rngCtx (c : Core) (r : BitVec 5) (v : Word) : (c.setS r v).rngCtx = c.rngCtx := by
  rw [Core.setS]; split <;> rfl
@[simp] theorem Core.setS_htapBins (c : Core) (r : BitVec 5) (v : Word) : (c.setS r v).htapBins = c.htapBins := by
  rw [Core.setS]; split <;> rfl
@[simp] theorem Core.setS_htapPois (c : Core) (r : BitVec 5) (v : Word) : (c.setS r v).htapPois = c.htapPois := by
  rw [Core.setS]; split <;> rfl
@[simp] theorem Core.setS_htapInstr (c : Core) (r : BitVec 5) (v : Word) : (c.setS r v).htapInstr = c.htapInstr := by
  rw [Core.setS]; split <;> rfl
@[simp] theorem Core.setS_tapBusy (c : Core) (r : BitVec 5) (v : Word) : (c.setS r v).tapBusy = c.tapBusy := by
  rw [Core.setS]; split <;> rfl
@[simp] theorem Core.setS_sq (c : Core) (r : BitVec 5) (v : Word) : (c.setS r v).sq = c.sq := by
  rw [Core.setS]; split <;> rfl
@[simp] theorem Core.setS_ag (c : Core) (r : BitVec 5) (v : Word) : (c.setS r v).ag = c.ag := by
  rw [Core.setS]; split <;> rfl
@[simp] theorem Core.setS_rdl (c : Core) (r : BitVec 5) (v : Word) : (c.setS r v).rdl = c.rdl := by
  rw [Core.setS]; split <;> rfl
@[simp] theorem Core.setS_dma (c : Core) (r : BitVec 5) (v : Word) : (c.setS r v).dma = c.dma := by
  rw [Core.setS]; split <;> rfl
@[simp] theorem Core.setS_pk (c : Core) (r : BitVec 5) (v : Word) : (c.setS r v).pk = c.pk := by
  rw [Core.setS]; split <;> rfl
@[simp] theorem Core.setS_evts (c : Core) (r : BitVec 5) (v : Word) : (c.setS r v).evts = c.evts := by
  rw [Core.setS]; split <;> rfl
@[simp] theorem Core.setS_barArr (c : Core) (r : BitVec 5) (v : Word) : (c.setS r v).barArr = c.barArr := by
  rw [Core.setS]; split <;> rfl
@[simp] theorem Core.setS_barRel (c : Core) (r : BitVec 5) (v : Word) : (c.setS r v).barRel = c.barRel := by
  rw [Core.setS]; split <;> rfl
@[simp] theorem Core.setS_barFail (c : Core) (r : BitVec 5) (v : Word) : (c.setS r v).barFail = c.barFail := by
  rw [Core.setS]; split <;> rfl
@[simp] theorem Core.setS_barOut (c : Core) (r : BitVec 5) (v : Word) : (c.setS r v).barOut = c.barOut := by
  rw [Core.setS]; split <;> rfl
@[simp] theorem Core.setS_barGen (c : Core) (r : BitVec 5) (v : Word) : (c.setS r v).barGen = c.barGen := by
  rw [Core.setS]; split <;> rfl
@[simp] theorem Core.setS_pourDone (c : Core) (r : BitVec 5) (v : Word) : (c.setS r v).pourDone = c.pourDone := by
  rw [Core.setS]; split <;> rfl
@[simp] theorem Core.setS_pourSent (c : Core) (r : BitVec 5) (v : Word) : (c.setS r v).pourSent = c.pourSent := by
  rw [Core.setS]; split <;> rfl
@[simp] theorem Core.setS_pourFail (c : Core) (r : BitVec 5) (v : Word) : (c.setS r v).pourFail = c.pourFail := by
  rw [Core.setS]; split <;> rfl
@[simp] theorem Core.setS_units (c : Core) (r : BitVec 5) (v : Word) : (c.setS r v).units = c.units := by
  rw [Core.setS]; split <;> rfl
@[simp] theorem Core.setS_stallTotal (c : Core) (r : BitVec 5) (v : Word) : (c.setS r v).stallTotal = c.stallTotal := by
  rw [Core.setS]; split <;> rfl
@[simp] theorem Core.setS_freeze (c : Core) (r : BitVec 5) (v : Word) : (c.setS r v).freeze = c.freeze := by
  rw [Core.setS]; split <;> rfl
@[simp] theorem Core.setS_arbShadow (c : Core) (r : BitVec 5) (v : Word) : (c.setS r v).arbShadow = c.arbShadow := by
  rw [Core.setS]; split <;> rfl
@[simp] theorem Core.setS_arbActive (c : Core) (r : BitVec 5) (v : Word) : (c.setS r v).arbActive = c.arbActive := by
  rw [Core.setS]; split <;> rfl
@[simp] theorem Core.setS_arbCommits (c : Core) (r : BitVec 5) (v : Word) : (c.setS r v).arbCommits = c.arbCommits := by
  rw [Core.setS]; split <;> rfl
@[simp] theorem Core.setS_arbRefused (c : Core) (r : BitVec 5) (v : Word) : (c.setS r v).arbRefused = c.arbRefused := by
  rw [Core.setS]; split <;> rfl
@[simp] theorem Core.setS_arbReason (c : Core) (r : BitVec 5) (v : Word) : (c.setS r v).arbReason = c.arbReason := by
  rw [Core.setS]; split <;> rfl
@[simp] theorem Core.setS_arbs (c : Core) (r : BitVec 5) (v : Word) : (c.setS r v).arbs = c.arbs := by
  rw [Core.setS]; split <;> rfl
@[simp] theorem Core.setS_cuParked (c : Core) (r : BitVec 5) (v : Word) : (c.setS r v).cuParked = c.cuParked := by
  rw [Core.setS]; split <;> rfl
@[simp] theorem Core.setS_vecBeat (c : Core) (r : BitVec 5) (v : Word) : (c.setS r v).vecBeat = c.vecBeat := by
  rw [Core.setS]; split <;> rfl
@[simp] theorem Core.setS_imemErr (c : Core) (r : BitVec 5) (v : Word) : (c.setS r v).imemErr = c.imemErr := by
  rw [Core.setS]; split <;> rfl
@[simp] theorem Core.setS_accErr (c : Core) (r : BitVec 5) (v : Word) : (c.setS r v).accErr = c.accErr := by
  rw [Core.setS]; split <;> rfl
@[simp] theorem Core.setS_vregErr (c : Core) (r : BitVec 5) (v : Word) : (c.setS r v).vregErr = c.vregErr := by
  rw [Core.setS]; split <;> rfl
@[simp] theorem Core.setS_cacheErr (c : Core) (r : BitVec 5) (v : Word) : (c.setS r v).cacheErr = c.cacheErr := by
  rw [Core.setS]; split <;> rfl
@[simp] theorem Core.setS_ptCache (c : Core) (r : BitVec 5) (v : Word) : (c.setS r v).ptCache = c.ptCache := by
  rw [Core.setS]; split <;> rfl
@[simp] theorem Core.setS_ptMiss (c : Core) (r : BitVec 5) (v : Word) : (c.setS r v).ptMiss = c.ptMiss := by
  rw [Core.setS]; split <;> rfl
@[simp] theorem Core.setS_ptRetry (c : Core) (r : BitVec 5) (v : Word) : (c.setS r v).ptRetry = c.ptRetry := by
  rw [Core.setS]; split <;> rfl
@[simp] theorem Core.setS_steepMiss (c : Core) (r : BitVec 5) (v : Word) : (c.setS r v).steepMiss = c.steepMiss := by
  rw [Core.setS]; split <;> rfl
@[simp] theorem Core.setS_lateRow (c : Core) (r : BitVec 5) (v : Word) : (c.setS r v).lateRow = c.lateRow := by
  rw [Core.setS]; split <;> rfl
@[simp] theorem Core.setS_starvedTicks (c : Core) (r : BitVec 5) (v : Word) : (c.setS r v).starvedTicks = c.starvedTicks := by
  rw [Core.setS]; split <;> rfl
@[simp] theorem Core.setS_starved (c : Core) (r : BitVec 5) (v : Word) : (c.setS r v).starved = c.starved := by
  rw [Core.setS]; split <;> rfl
@[simp] theorem Core.setS_probeMissed (c : Core) (r : BitVec 5) (v : Word) : (c.setS r v).probeMissed = c.probeMissed := by
  rw [Core.setS]; split <;> rfl

/-! ## Reading a table after its update -/

theorem State.core_setCore (s : State) (l k : Nat) (c : Core) : (s.setCore l c).core k = if k = l then c else s.core k :=
  look_put s.cores l k c _

@[simp] theorem State.core_setCore_self (s : State) (l : Nat) (c : Core) : (s.setCore l c).core l = c := by
  simp [State.core_setCore]

theorem State.core_setCore_other (s : State) {l k : Nat} (c : Core) (h : k ≠ l) : (s.setCore l c).core k = s.core k := by
  simp [State.core_setCore, h]

@[simp] theorem State.setCore_setCore (s : State) (l : Nat) (c d : Core) : (s.setCore l c).setCore l d = s.setCore l d := by
  simp [State.setCore, put_put]

theorem State.region_setRegion (s : State) (r k : Nat) (g : Region) :
    (s.setRegion r g).region k = if k = r then g else s.region k := look_put s.regions r k g _

@[simp] theorem State.region_setRegion_self (s : State) (r : Nat) (g : Region) : (s.setRegion r g).region r = g := by
  simp [State.region_setRegion]

@[simp] theorem State.core_setRegion (s : State) (r k : Nat) (g : Region) : (s.setRegion r g).core k = s.core k := rfl

@[simp] theorem State.region_setCore (s : State) (l k : Nat) (c : Core) : (s.setCore l c).region k = s.region k := rfl

@[simp] theorem State.core_writeMem (s : State) (a k : Nat) (bs : List (Byte × Bool)) :
    (s.writeMem a bs).core k = s.core k := rfl

@[simp] theorem State.region_writeMem (s : State) (a k : Nat) (bs : List (Byte × Bool)) :
    (s.writeMem a bs).region k = s.region k := rfl

theorem State.quad_setQuad (s : State) (q k : Nat) (v : Quadrant) :
    (s.setQuad q v).quad k = if k = q then v else s.quad k := look_put s.plant.quads q k v _

@[simp] theorem State.quad_setQuad_self (s : State) (q : Nat) (v : Quadrant) : (s.setQuad q v).quad q = v := by
  simp [State.quad_setQuad]

theorem State.modBar_setModBar (s : State) (j k : Nat) (m : ModBarrier) :
    (s.setModBar j m).modBar k = if k = j then m else s.modBar k := look_put s.nemar.bars j k m _

/-- A scalar register after a write of one: s0 discards it (R96). -/
theorem Core.getS_setS (c : Core) (r q : BitVec 5) (v : Word) :
    (c.setS r v).getS q = if q = r ∧ r ≠ 0 then v else c.getS q := by
  by_cases h0 : r = 0
  · rw [if_neg (fun h : q = r ∧ r ≠ 0 => h.2 h0), Core.setS, if_pos h0]
  · rw [Core.setS, if_neg h0]
    by_cases hq : q = 0
    · rw [if_neg (fun h : q = r ∧ r ≠ 0 => h0 (h.1.symm.trans hq)), Core.getS, Core.getS, if_pos hq, if_pos hq]
    · rw [Core.getS, Core.getS, if_neg hq, if_neg hq]
      by_cases h : q = r
      · rw [if_pos ⟨h, h0⟩, h]; exact look_put_self _ _ _ _
      · rw [if_neg (fun e : q = r ∧ r ≠ 0 => h e.1)]
        exact look_put_other _ _ _ (fun e => h (BitVec.eq_of_toNat_eq e))

@[simp] theorem Core.getS_zero (c : Core) : c.getS 0 = 0 := rfl

theorem Core.getS_addPending (c : Core) (p : Pending) (r : BitVec 5) : (c.addPending p).getS r = c.getS r := rfl

end Sys2Proof.Machine
end

