-- ==== Sys2Proof/Laws/Slots.lean ====
section
/-! SUPPORT. Laws/Slots.lean: what opening a slot, issuing an instruction and finishing it do to a core with nothing in
flight, each said once. -/

namespace Sys2Proof.Machine

theorem Core.setUnit_self (c : Core) (u : Nat) (_ : u < 8) : c.setUnit u (c.unit u) = c := by
  unfold Core.setUnit
  by_cases h : c.freeze = true
  · rw [if_pos h]
  · rw [if_neg h]
    have : c.units.setIfInBounds u (c.unit u) = c.units := by
      apply Vector.ext
      intro i hi
      by_cases e : u = i
      · subst e; simp [Core.unit, hi]
      · simp [e]
    rw [this]

theorem Core.heldSlots_zero (c : Core) (u : Nat) : c.heldSlots u 0 = 0 := by
  have h : ∀ t f : Nat, Nat.min (c.slot + 0) t - Nat.max c.slot f = 0 := by
    intro t f
    have h1 : Nat.min (c.slot + 0) t ≤ c.slot := Nat.min_le_left _ _
    have h2 : c.slot ≤ Nat.max c.slot f := Nat.le_max_left _ _
    omega
  unfold Core.heldSlots
  split <;> first | rfl | exact h _ _ | simp

theorem Core.addBusy_zero (c : Core) : c.addBusy (c.heldUnits 0) = c := by
  have h : c.heldUnits 0 = [0, 0, 0, 0, 0, 0, 0] := by
    simp [Core.heldUnits, Core.heldSlots_zero, List.range, List.range.loop]
  rw [h]
  have hz : ∀ (d : Core) (u : Nat), u < 8 → d.setUnit u { d.unit u with busy := (d.unit u).busy + BitVec.ofNat 64 0 } = d := by
    intro d u hu
    have : ({ d.unit u with busy := (d.unit u).busy + BitVec.ofNat 64 0 } : UnitCount) = d.unit u := by simp
    rw [this, Core.setUnit_self d u hu]
  simp only [Core.addBusy, List.zipIdx, List.foldl]
  rw [hz _ 0 (by omega), hz _ 1 (by omega), hz _ 2 (by omega), hz _ 3 (by omega), hz _ 4 (by omega), hz _ 5 (by omega),
    hz _ 6 (by omega)]

/-- No slot completes: nothing changes. -/
@[simp] theorem Core.completeSlots_zero (c : Core) : c.completeSlots 0 = c := by
  simp [Core.completeSlots, Core.addBusy_zero]

/-- With nothing in flight, opening slot t completes the slots before it. -/
theorem State.advance_still (s : State) (l t : Nat) (h : (s.core l).pend = []) :
    s.advance l t = s.setCore l ((s.core l).completeSlots (t - (s.core l).slot)) := by
  have e : ({ s.core l with pend := [] } : Core) = s.core l := by
    conv => rhs; rw [show s.core l = { s.core l with pend := (s.core l).pend } from rfl, h]
  simp only [State.advance, h, settleList, e]

/-- Nothing of core l is due by slot t: opening it completes the slots before it. -/
theorem State.advance_early (s : State) (l t : Nat) (p : Pending) (ps : List Pending) (h : (s.core l).pend = p :: ps)
    (ht : t < p.vis) : s.advance l t = s.setCore l ((s.core l).completeSlots (t - (s.core l).slot)) := by
  have e : ({ s.core l with pend := p :: ps } : Core) = s.core l := by
    conv => rhs; rw [show s.core l = { s.core l with pend := (s.core l).pend } from rfl, h]
  have hv : ¬ p.vis ≤ t := by omega
  simp only [State.advance, h, settleList, ht, decide_true, Bool.true_or, if_true, if_neg hv, e]

/-- Writing a unit's counters changes the counters alone. -/
theorem Core.setUnit_eq (c : Core) (u : Nat) (v : UnitCount) : c.setUnit u v = { c with units := (c.setUnit u v).units } := by
  unfold Core.setUnit
  by_cases h : c.freeze = true
  · rw [if_pos h]
  · rw [if_neg h]

/-- Counting busy slots changes the counters alone. -/
theorem Core.addBusy_eq (c : Core) (held : List Nat) : c.addBusy held = { c with units := (c.addBusy held).units } := by
  have go : ∀ (xs : List (Nat × Nat)) (c : Core),
      xs.foldl (fun (d : Core) e => d.setUnit e.2 { d.unit e.2 with busy := (d.unit e.2).busy + BitVec.ofNat 64 e.1 }) c =
      { c with units := (xs.foldl (fun (d : Core) e =>
        d.setUnit e.2 { d.unit e.2 with busy := (d.unit e.2).busy + BitVec.ofNat 64 e.1 }) c).units } := by
    intro xs
    induction xs with
    | nil => intro c; rfl
    | cons x xs ih =>
      intro c
      simp only [List.foldl]
      rw [ih, Core.setUnit_eq c]
  exact go _ c

@[simp] theorem Core.addBusy_pend (c : Core) (held : List Nat) : (c.addBusy held).pend = c.pend := by
  rw [Core.addBusy_eq]

@[simp] theorem Core.addBusy_slot (c : Core) (held : List Nat) : (c.addBusy held).slot = c.slot := by
  rw [Core.addBusy_eq]

@[simp] theorem Core.addBusy_iss (c : Core) (held : List Nat) : (c.addBusy held).iss = c.iss := by
  rw [Core.addBusy_eq]

@[simp] theorem Core.addBusy_sregs (c : Core) (held : List Nat) : (c.addBusy held).sregs = c.sregs := by
  rw [Core.addBusy_eq]

@[simp] theorem Core.addBusy_refbeats (c : Core) (held : List Nat) : (c.addBusy held).refbeats = c.refbeats := by
  rw [Core.addBusy_eq]

/-- Completing slots changes the slot number, the reference beats and the counters alone. -/
theorem Core.completeSlots_eq (c : Core) (k : Nat) :
    c.completeSlots k = { c with slot := c.slot + k, refbeats := c.refbeats + k, units := (c.completeSlots k).units } := by
  unfold Core.completeSlots
  dsimp only
  rw [Core.addBusy_eq]

@[simp] theorem Core.opened_pend (c : Core) : c.opened.pend = c.pend := by
  rw [Core.opened, Core.completeSlots_eq]

@[simp] theorem Core.opened_pc (c : Core) : c.opened.pc = c.pc := by rw [Core.opened, Core.completeSlots_eq]

@[simp] theorem Core.opened_sregs (c : Core) : c.opened.sregs = c.sregs := by rw [Core.opened, Core.completeSlots_eq]

theorem Core.getS_opened (c : Core) (r : BitVec 5) : c.opened.getS r = c.getS r := by
  unfold Core.getS; rw [Core.opened_sregs]

/-- Opening a slot changes nothing where nothing is in flight and the core has not ended, or has retired. -/
theorem State.settle_still (s : State) (l : Nat) (c : Core) (h : c.pend = []) (he : c.ended = false ∨ c.retireSlot ≤ c.slot) :
    (s.setCore l c).settle l = s.setCore l c := by
  unfold State.settle
  simp only [State.core_setCore_self]
  by_cases hl : (s.setCore l c).live l = true
  · rw [if_pos hl, State.advance_still _ _ _ (by simpa using h)]
    have hle : (if c.ended then c.retireSlot else c.lastDue) ≤ c.slot := by
      rcases he with he | he
      · simp [he, Core.lastDue, h]
      · split
        · exact he
        · simp [Core.lastDue, h]
    have hz : c.quietTo.min (if c.ended then c.retireSlot else c.lastDue) - c.slot = 0 :=
      Nat.sub_eq_zero_of_le (Nat.le_trans (Nat.min_le_right _ _) hle)
    simp [hz]
  · rw [if_neg hl]

/-- The last slot that can open early is at most the slot of the next issue, of a core that has not ended. -/
theorem Core.quietTo_le (c : Core) (h : c.ended = false) : c.quietTo ≤ c.nextIssue := by
  unfold Core.quietTo
  rw [h]
  have go : ∀ (xs : List (Option Nat)) (a : Nat),
      xs.foldl (fun m d => match d with | some x => Nat.min m x | none => m) a ≤ a := by
    intro xs
    induction xs with
    | nil => intro a; exact Nat.le_refl a
    | cons x xs ih =>
      intro a
      cases x with
      | none => exact ih a
      | some v => exact Nat.le_trans (ih _) (Nat.min_le_left a v)
  exact go _ _

/-- What finishing an issue leaves when nothing is in flight. -/
theorem State.finishIssue_still (s : State) (l : Nat) (c : Core) (f : Flow) (held : List Nat) (h : c.pend = [])
    (he : c.ended = false ∨ (c.lastDue ≤ c.slot + 1 ∧ c.matTail ≤ c.slot + 1 ∧ c.vecTail ≤ c.slot + 1)) :
    (s.setCore l c).finishIssue l f held = s.setCore l { c.addBusy held with
      pc := f.pc, idleUntil := f.until_, waiting := f.waiting, iss := c.iss + 1, slot := c.slot + 1,
      refbeats := c.refbeats + 1 } := by
  unfold State.finishIssue
  simp only [State.core_setCore_self, State.setCore_setCore, Core.addBusy_slot, Core.addBusy_iss, Core.addBusy_refbeats]
  rw [State.advance_still _ _ _ (by simpa using h)]
  simp only [State.core_setCore_self, State.setCore_setCore, Nat.sub_self, Core.completeSlots_zero]
  refine State.settle_still _ _ _ (by simpa using h) ?_
  rcases he with he | ⟨_, hm, hv⟩
  · exact Or.inl (by rw [Core.addBusy_eq]; exact he)
  · refine Or.inr (Nat.max_le.mpr ⟨?_, Nat.max_le.mpr ⟨?_, ?_⟩⟩)
    · simp [Core.lastDue, h]
    · rw [Core.addBusy_eq]; exact hm
    · rw [Core.addBusy_eq]; exact hv

/-- A core with nothing in flight, written so. -/
theorem Core.pend_nil (d : Core) (h : d.pend = []) : ({ d with pend := [] } : Core) = d :=
  congrArg (fun p => ({ d with pend := p } : Core)) h.symm

/-- The first result in flight. -/
theorem Core.addPending_nil (c : Core) (p : Pending) (h : c.pend = []) : c.addPending p = { c with pend := [p] } := by
  rw [Core.addPending, h]; rfl

/-- The counters take the same slots whatever is in flight. -/
theorem Core.addBusy_pending (c : Core) (ps : List Pending) (held : List Nat) :
    ({ c with pend := ps } : Core).addBusy held = { c.addBusy held with pend := ps } := by
  have go : ∀ (xs : List (Nat × Nat)) (c : Core),
      xs.foldl (fun (d : Core) e => d.setUnit e.2 { d.unit e.2 with busy := (d.unit e.2).busy + BitVec.ofNat 64 e.1 })
        { c with pend := ps } =
      { xs.foldl (fun (d : Core) e =>
        d.setUnit e.2 { d.unit e.2 with busy := (d.unit e.2).busy + BitVec.ofNat 64 e.1 }) c with pend := ps } := by
    intro xs
    induction xs with
    | nil => intro c; rfl
    | cons x xs ih =>
      intro c
      simp only [List.foldl]
      have : ∀ v : UnitCount, ({ c with pend := ps } : Core).setUnit x.2 v = { c.setUnit x.2 v with pend := ps } := by
        intro v
        unfold Core.setUnit
        by_cases hz : c.freeze = true
        · rw [if_pos hz, if_pos hz]
        · rw [if_neg hz, if_neg hz]
      rw [this]; exact ih _
  exact go _ _

theorem Core.setS_pending (d : Core) (ps : List Pending) (r : BitVec 5) (v : Word) :
    Core.setS { d with pend := ps } r v = { d.setS r v with pend := ps } := by
  unfold Core.setS
  by_cases h : r = 0
  · rw [if_pos h, if_pos h]
  · rw [if_neg h, if_neg h]

/-- A scalar register's result that is due as its slot opens is written (R39). -/
theorem settleList_sreg (s : State) (l n t : Nat) (r : BitVec 5) (v : Word) :
    settleList l t [⟨t, n, .sreg r v⟩] s = ([], s.setCore l ((s.core l).setS r v)) := by
  rw [settleList, if_neg (by simp [Core.blocked, Effect.enters])]
  rfl

/-- A scalar register's result that is due as its slot opens is written (R39). -/
theorem State.advance_sreg (s : State) (l n t : Nat) (r : BitVec 5) (v : Word) (d : Core) (hd : d.slot = t)
    (hn : d.pend = []) :
    (s.setCore l { d with pend := [⟨t, n, .sreg r v⟩] }).advance l t = s.setCore l (d.setS r v) := by
  have e3 : ({ d.setS r v with pend := [] } : Core) = d.setS r v :=
    Core.pend_nil (d.setS r v) ((Core.setS_pend d r v).trans hn)
  rw [State.advance]
  simp only [State.core_setCore_self, settleList_sreg, State.setCore_setCore, Core.setS_pending]
  rw [e3, hd, Nat.sub_self, Core.completeSlots_zero]

/-- What finishing an issue leaves when the one result in flight is a scalar register's, due in the next slot. -/
theorem State.finishIssue_sreg (s : State) (l : Nat) (c : Core) (f : Flow) (held : List Nat) (r : BitVec 5) (v : Word)
    (n : Nat) (h : c.pend = []) (he : c.ended = false) :
    (s.setCore l (c.addPending ⟨c.slot + 1, n, .sreg r v⟩)).finishIssue l f held =
      s.setCore l (Core.setS { c.addBusy held with
        pc := f.pc, idleUntil := f.until_, waiting := f.waiting, iss := c.iss + 1, slot := c.slot + 1,
        refbeats := c.refbeats + 1 } r v) := by
  rw [Core.addPending_nil _ _ h]
  unfold State.finishIssue
  simp only [State.core_setCore_self, State.setCore_setCore, Core.addBusy_pending, Core.addBusy_slot, Core.addBusy_iss,
    Core.addBusy_refbeats]
  have e := State.advance_sreg s l n (c.slot + 1) r v
    { c.addBusy held with
      pc := f.pc, idleUntil := f.until_, waiting := f.waiting, iss := c.iss + 1, slot := c.slot + 1,
      refbeats := c.refbeats + 1 } rfl (by simpa using h)
  dsimp only at e
  rw [e]
  refine State.settle_still _ _ _ (by simpa using h) (Or.inl ?_)
  rw [Core.setS_ended]
  show (c.addBusy held).ended = false
  rw [Core.addBusy_eq]
  exact he

/-- What finishing an issue leaves when every result in flight is due later than the next slot. -/
theorem State.finishIssue_later (s : State) (l : Nat) (c : Core) (f : Flow) (held : List Nat) (p : Pending)
    (ps : List Pending) (h : c.pend = p :: ps) (hv : c.slot + 1 < p.vis) (he : c.ended = false)
    (hf : f.until_ ≤ c.slot + 1) :
    (s.setCore l c).finishIssue l f held = s.setCore l { c.addBusy held with
      pc := f.pc, idleUntil := f.until_, waiting := f.waiting, iss := c.iss + 1, slot := c.slot + 1,
      refbeats := c.refbeats + 1 } := by
  have hb : (c.addBusy held).ended = false := by rw [Core.addBusy_eq]; exact he
  unfold State.finishIssue
  simp only [State.core_setCore_self, State.setCore_setCore, Core.addBusy_slot, Core.addBusy_iss, Core.addBusy_refbeats]
  rw [State.advance_early _ _ _ p ps (by simpa using h) hv]
  simp only [State.core_setCore_self, State.setCore_setCore, Nat.sub_self, Core.completeSlots_zero]
  unfold State.settle
  simp only [State.core_setCore_self]
  split
  · have hq := Core.quietTo_le { c.addBusy held with
      pc := f.pc, idleUntil := f.until_, waiting := f.waiting, iss := c.iss + 1, slot := c.slot + 1,
      refbeats := c.refbeats + 1 } hb
    have hn : Core.nextIssue { c.addBusy held with
      pc := f.pc, idleUntil := f.until_, waiting := f.waiting, iss := c.iss + 1, slot := c.slot + 1,
      refbeats := c.refbeats + 1 } = c.slot + 1 := Nat.max_eq_left hf
    rw [hn] at hq
    generalize hd : ({ c.addBusy held with
      pc := f.pc, idleUntil := f.until_, waiting := f.waiting, iss := c.iss + 1, slot := c.slot + 1,
      refbeats := c.refbeats + 1 } : Core) = d at hq ⊢
    have hdp : d.pend = p :: ps := by rw [← hd]; simpa using h
    have hds : d.slot = c.slot + 1 := by rw [← hd]
    have hde : (c.addBusy held).ended = d.ended := by rw [← hd]
    rw [hde]
    have hle : d.quietTo.min (if d.ended then d.retireSlot else d.lastDue) ≤ c.slot + 1 :=
      Nat.le_trans (Nat.min_le_left _ _) hq
    rw [State.advance_early _ _ _ p ps (by simpa using hdp) (by omega)]
    simp only [State.core_setCore_self, State.setCore_setCore]
    rw [hds, Nat.sub_eq_zero_of_le hle, Core.completeSlots_zero]
  · rfl

/-- A ready core: what its slot of issue opens on. -/
theorem State.ready_advance {s : State} {l : Nat} {w : Word} (h : s.ready l w = true) :
    (s.core l).pend = [] ∧ s.canIssue l w = true ∧
      s.advance l (s.core l).nextIssue = s.setCore l (s.core l).opened := by
  simp only [State.ready, Bool.and_eq_true, List.isEmpty_iff] at h
  exact ⟨h.1.2, h.1.1, State.advance_still s l _ h.1.2⟩

/-- The causes that a ready core meets: those of the instruction, in their order; the fetch meets no error (R119). -/
theorem State.ready_cause {s : State} {l : Nat} {w : Word} (trap : Option Nat) (causes : State → List (Bool × Nat))
    (leaves : Core → Bool) (h : s.ready l w = true) :
    (s.setCore l (s.core l).opened).faultCause l trap causes leaves =
      firstCause (causes (s.setCore l (s.core l).opened) ++
        [((s.core l).opened.pc == 4095 && !leaves (s.core l).opened, causeImemEnd), (trap.isSome, causeTrap)]) := by
  have hf : (s.core l).opened.fetchBad = false := by
    simp only [State.ready, Bool.and_eq_true, Bool.not_eq_true'] at h
    rw [Core.opened, Core.completeSlots_eq]
    exact h.2
  simp only [State.faultCause, State.core_setCore_self, hf]
  rfl

/-- A core that can issue is running, has not faulted or ended, and reads the word at its pc. -/
theorem State.canIssue_core {s : State} {l : Nat} {w : Word} (h : s.canIssue l w = true) :
    s.live l = true ∧ (s.core l).ended = false ∧ (s.core l).imem (s.core l).bank (s.core l).pc.toNat = w := by
  simp only [State.canIssue, Bool.and_eq_true, Bool.not_eq_true', beq_iff_eq] at h
  exact ⟨h.1.1.1.1.1, h.1.1.1.1.2, h.1.1.1.2⟩

/-- An instruction that can issue and raises no fault: its body, then the end of its slot. -/
theorem State.issue_none {s : State} {l : Nat} {w : Word} (trap : Option Nat) (causes : State → List (Bool × Nat))
    (leaves : Core → Bool) (flow : Core → Flow) (body : State → State) (h : s.ready l w = true)
    (hc : firstCause (causes (s.setCore l (s.core l).opened) ++
      [((s.core l).opened.pc == 4095 && !leaves (s.core l).opened, causeImemEnd), (trap.isSome, causeTrap)]) = none) :
    s.issue l w trap causes leaves flow body =
      (body (s.setCore l (s.core l).opened)).finishIssue l (flow (s.core l).opened) ((s.core l).opened.heldUnits 1) := by
  obtain ⟨_, h2, h3⟩ := State.ready_advance h
  unfold State.issue
  rw [if_pos h2]
  simp only [h3, State.core_setCore_self, State.ready_cause trap causes leaves h, hc]

/-- An instruction that can issue and raises a fault: the core records it and sends its message. -/
theorem State.issue_fault {s : State} {l : Nat} {w : Word} (trap : Option Nat) (causes : State → List (Bool × Nat))
    (leaves : Core → Bool) (flow : Core → Flow) (body : State → State) (k : Nat) (h : s.ready l w = true)
    (hc : firstCause (causes (s.setCore l (s.core l).opened) ++
      [((s.core l).opened.pc == 4095 && !leaves (s.core l).opened, causeImemEnd), (trap.isSome, causeTrap)]) = some k) :
    s.issue l w trap causes leaves flow body =
      (s.setCore l ((s.core l).opened.takeFault k (if k = causeTrap then trap.getD 0 else 0))).sendFault l := by
  obtain ⟨_, h2, h3⟩ := State.ready_advance h
  unfold State.issue
  rw [if_pos h2]
  simp only [h3, State.core_setCore_self, State.ready_cause trap causes leaves h, hc, State.setCore_setCore]

/-- An instruction row whose core cannot issue it now changes nothing (log 7). -/
theorem State.issue_idle {s : State} {l : Nat} {w : Word} (trap : Option Nat) (causes : State → List (Bool × Nat))
    (leaves : Core → Bool) (flow : Core → Flow) (body : State → State) (h : s.canIssue l w = false) :
    s.issue l w trap causes leaves flow body = s := by
  unfold State.issue
  rw [if_neg (by simp [h])]

/-- An instruction that writes a scalar register visible in the next slot, issued without a fault (R101). -/
theorem State.issueReg_next {s : State} {l : Nat} {w : Word} (sd : BitVec 5) (value : Core → Word)
    (h : s.readyOn l w = true) :
    s.issueReg l w false sd 1 value = s.setCore l ((s.core l).opened.passed.setS sd (value (s.core l).opened)) := by
  simp only [State.readyOn, Bool.and_eq_true, bne_iff_ne, ne_eq] at h
  unfold State.issueReg
  rw [State.issue_none _ _ _ _ _ h.1 (by simpa [firstCause] using h.2)]
  simp only [State.core_setCore_self, State.setCore_setCore]
  have he := (State.canIssue_core (State.ready_advance h.1).2.1).2.1
  rw [State.finishIssue_sreg _ _ _ _ _ _ _ _ (by simp [(State.ready_advance h.1).1])
    (by rw [Core.opened, Core.completeSlots_eq]; exact he)]
  rfl

/-- An instruction that writes a scalar register visible `lat` slots later, two or more: the result is in flight. -/
theorem State.issueReg_later {s : State} {l : Nat} {w : Word} (sd : BitVec 5) (lat : Nat) (value : Core → Word)
    (hl : 2 ≤ lat) (h : s.readyOn l w = true) :
    s.issueReg l w false sd lat value =
      s.setCore l ((s.core l).opened.passed.inFlight (s.core l).opened lat (.sreg sd (value (s.core l).opened))) := by
  simp only [State.readyOn, Bool.and_eq_true, bne_iff_ne, ne_eq] at h
  have hn := (State.ready_advance h.1).1
  have he := (State.canIssue_core (State.ready_advance h.1).2.1).2.1
  unfold State.issueReg
  rw [State.issue_none _ _ _ _ _ h.1 (by simpa [firstCause] using h.2)]
  simp only [State.core_setCore_self, State.setCore_setCore]
  have hp : ((s.core l).opened.addPending ⟨(s.core l).opened.slot + lat, (s.core l).opened.iss,
      .sreg sd (value (s.core l).opened)⟩).pend = [⟨(s.core l).opened.slot + lat, (s.core l).opened.iss,
      .sreg sd (value (s.core l).opened)⟩] := by
    rw [Core.addPending_nil _ _ (by simp [hn])]
  rw [State.finishIssue_later _ _ _ _ _ _ [] hp (by simp; omega)
    (by simp only [Core.addPending_ended]; rw [Core.opened, Core.completeSlots_eq]; exact he) (by simp [Core.fall])]
  rw [Core.inFlight, Core.addPending_nil _ _ (by simp [hn]), Core.addBusy_pending]
  rw [Core.addPending_nil _ _ (by simp [hn, Core.passed, Core.passedTo])]
  rfl

end Sys2Proof.Machine
end

