-- ==== Sys2Proof/Laws/Spans.lean ====
section
/-! SUPPORT. Laws/Spans.lean: the operations that replace a span of memory keep its canonical form. -/

namespace Sys2Proof.Machine

/-- Two canonical parts, the second above the first. -/
theorem Memory.above_append {m n : Memory} {lo mid : Nat} (h : lo ≤ mid) (wm : Memory.above lo m = true)
    (hm : ∀ e ∈ m, e.1 < mid) (wn : Memory.above mid n = true) : Memory.above lo (m ++ n) = true := by
  induction m generalizing lo with
  | nil => exact Memory.above_le h wn
  | cons e t ih =>
    obtain ⟨k, c⟩ := e
    simp [Memory.above] at wm ⊢
    have hk : k < mid := hm (k, c) (by simp)
    exact ⟨wm.1, ih hk wm.2 (fun e he => hm e (by simp [he]))⟩

/-- The cells of a canonical memory that lie from an address on. -/
theorem Memory.above_from {m : Memory} {lo hi : Nat} (w : Memory.above lo m = true) :
    Memory.above hi (m.filter (fun e => hi ≤ e.1)) = true := by
  induction m generalizing lo with
  | nil => rfl
  | cons e t ih =>
    obtain ⟨k, c⟩ := e
    simp [Memory.above] at w
    by_cases h : hi ≤ k
    · simp [h, Memory.above, w.1.2]
      exact Memory.above_filter _ w.2
    · simp [h]; exact ih w.2

/-- Cells moved to another address. -/
theorem Memory.above_shift {m : Memory} {src dst lo : Nat} (w : Memory.above lo m = true) (h : src ≤ lo) :
    Memory.above (lo - src + dst) (m.map (fun (e : Host.Cell) => (e.1 - src + dst, e.2))) = true := by
  induction m generalizing lo with
  | nil => rfl
  | cons e t ih =>
    obtain ⟨k, c⟩ := e
    simp [Memory.above] at w ⊢
    have := ih w.2 (by omega)
    rw [show k + 1 - src + dst = k - src + dst + 1 by omega] at this
    exact ⟨⟨by omega, w.1.2⟩, this⟩

/-- Replacing a span by canonical cells that lie in it keeps the canonical form. -/
theorem Memory.wf_setSpan {m cells : Memory} {lo n : Nat} (w : m.wf = true) (wc : Memory.above lo cells = true)
    (hc : ∀ e ∈ cells, e.1 < lo + n) : (setSpan m lo n cells).wf = true := by
  unfold setSpan Memory.wf
  refine Memory.above_append (mid := lo + n) (Nat.zero_le _)
    (Memory.above_append (mid := lo) (Nat.zero_le _) (Memory.above_filter _ w) (by simp) wc) ?_ (Memory.above_from w)
  intro e he
  rcases List.mem_append.mp he with h | h
  · simp at h; omega
  · exact hc e h

/-- The cells of a span at their new place. -/
theorem Memory.above_span {m : Memory} (src dst n : Nat) (w : m.wf = true) :
    Memory.above dst ((m.filter (fun e => src ≤ e.1 && e.1 < src + n)).map
      (fun (e : Host.Cell) => (e.1 - src + dst, e.2))) = true := by
  have h : m.filter (fun e => src ≤ e.1 && e.1 < src + n) =
      (m.filter (fun e => e.1 < src + n)).filter (fun e => src ≤ e.1) := by
    rw [List.filter_filter]
  rw [h]
  have := Memory.above_shift (dst := dst) (Memory.above_from (hi := src) (Memory.wf_filter (fun e => e.1 < src + n) w))
    (Nat.le_refl src)
  simpa using this

/-- A copied span keeps the canonical form. -/
theorem State.wf_copySpan {s : State} (src dst n : Nat) (w : s.mem.wf = true) : (s.copySpan src dst n).mem.wf = true := by
  refine Memory.wf_setSpan w (Memory.above_span src dst n w) ?_
  intro e he
  simp at he
  obtain ⟨a, b, ⟨_, h1, h2⟩, rfl⟩ := he
  simp; omega

/-- A copied page keeps the canonical form. -/
theorem State.wf_copyPage {s : State} (src dst : Nat) (marks : Bool) (w : s.mem.wf = true) :
    (s.copyPage src dst marks).mem.wf = true := by
  refine Memory.wf_setSpan w (Memory.above_span src dst pageBytes w) ?_
  intro e he
  simp at he
  obtain ⟨a, b, ⟨_, h1, h2⟩, rfl⟩ := he
  simp; omega

/-- Undefined bytes are in canonical form. -/
theorem Memory.above_free (f a n : Nat) : Memory.above a (freeCells f a n) = true := by
  have go : ∀ n k, Memory.above (a + k) ((List.range' k n).filterMap (fun i =>
      if Config.freeByte (f + i) = unlisted then none else some (a + i, Config.freeByte (f + i)))) = true := by
    intro n
    induction n with
    | zero => intro k; rfl
    | succ n ih =>
      intro k
      have := ih (k + 1)
      rw [List.range'_succ, List.filterMap_cons]
      by_cases h : Config.freeByte (f + k) = unlisted
      · simp only [h, if_true]
        exact Memory.above_le (by omega) this
      · simp only [h, if_false]
        simp only [Memory.above]
        simp [h]
        exact this
  have := go n 0
  rw [← List.range_eq_range'] at this
  exact this

/-- Undefined bytes lie in their span. -/
theorem freeCells_lt (f a n : Nat) : ∀ e ∈ freeCells f a n, e.1 < a + n := by
  intro e he
  unfold freeCells at he
  simp only [List.mem_filterMap, List.mem_range] at he
  obtain ⟨i, hi, h⟩ := he
  split at h
  · exact absurd h (by simp)
  · cases h; simp; omega

/-- A span of undefined contents keeps the canonical form. -/
theorem State.wf_freeSpan {s : State} (a n : Nat) (mark : Bool) (w : s.mem.wf = true) :
    (s.freeSpan a n mark).mem.wf = true :=
  Memory.wf_setSpan w (Memory.above_free s.free a n) (freeCells_lt s.free a n)

/-- A memory built of cells is in canonical form. -/
theorem Memory.wf_canonical (cells : Memory) : (canonical cells).wf = true := by
  have go : ∀ (cs : Memory) (m : Memory), m.wf = true →
      Memory.wf (cs.foldl (fun m e => setByte m e.1 e.2) m) = true := by
    intro cs
    induction cs with
    | nil => intro m w; exact w
    | cons e t ih => intro m w; exact ih _ (Memory.wf_setByte e.1 e.2 w)
  exact go cells [] rfl

/-- Writing a core's state image keeps the canonical form. -/
theorem State.wf_saveImage {s : State} (g : Region) (l : Nat) (w : s.mem.wf = true) : (s.saveImage g l).mem.wf = true := by
  have w1 := Memory.wf_setSpan w (Memory.above_free s.free (imageAddr g l) 0x1000)
    (freeCells_lt s.free (imageAddr g l) 0x1000)
  have w2 := Memory.above_shift (dst := imageAddr g l + 0x1000)
    (Memory.above_from (hi := 0x1000) (Memory.wf_filter (fun e => e.1 < imageBytes)
      (Memory.wf_canonical (s.core l).imageCells))) (Nat.le_refl 0x1000)
  rw [List.filter_filter] at w2
  have e : ∀ (cs : Memory), (∀ x ∈ cs, 0x1000 ≤ x.1) →
      cs.map (fun x => (x.1 - 0x1000 + (imageAddr g l + 0x1000), x.2)) = cs.map (fun x => (imageAddr g l + x.1, x.2)) := by
    intro cs h
    apply List.map_congr_left
    intro x hx
    have := h x hx
    simp; omega
  rw [e _ (by intro x hx; simp at hx; omega)] at w2
  refine Memory.wf_setSpan w1 (by simpa using w2) ?_
  intro x hx
  simp at hx
  obtain ⟨a, b, ⟨_, h1, h2⟩, rfl⟩ := hx
  have : 0x1000 ≤ imageBytes := by decide
  simp; omega

end Sys2Proof.Machine
end

