-- ==== Sys2Proof/Tests/Slice0.lean ====
section
/-! SUPPORT. Tests/Slice0.lean: ill-formed terms refused, words written out from the spec, and for each statement states that
meet its hypotheses, with what the rules give for them. -/

namespace Sys2Proof.Tests

open Sys2Proof.Machine

set_option Elab.async false

/-! ## Helpers -/

/-- The next state of an answer. -/
def nextOf (o : Answer) : State := match o with
  | .next t => t
  | _ => {}

/-- Region 1, RUNNING, of the one logical core 0. -/
def oneCore (c : Core) : State := { cores := [(0, c)], regions := [(1, { state := .running })] }

/-- Core 0 about to issue the word of an instruction row. -/
def withWord (i : Instr) (f : Core → Core) : State := match wordOf i with
  | some (_, w) => oneCore (f {
      running := true, imem0 := [(0, w)], slot := 3, idleUntil := 9,
      sregs := [(1, 0x4020), (2, 7), (3, 64), (4, 0x300010), (6, 0xFFFFFFFFFFFFFFF0)],
      ag := Vector.replicate 4 { ctrl := 0x80100000 } })
  | none => {}

/-- As `withWord`. -/
def issuing (i : Instr) : State := withWord i id

/-- Core 0 as its slot of issue opens. -/
def opened (i : Instr) : Core := ((issuing i).core 0).opened

/-- An answer is this next state. -/
def isNext (o : Answer) (e : State) : Bool := match o with
  | .next t => decide (t = e)
  | _ => false

/-- The row issues, and the next state is as given. -/
def steps (s : State) (i : Instr) (e : State) : Bool := s.issues i && isNext (exec i s) e

/-- As `steps`, the state being `issuing` and the next one differing in core 0. -/
def gives (i : Instr) (k : Core) : Bool := steps (issuing i) i ((issuing i).setCore 0 k)

/-! ## Well-formedness and words -/

/-- A nonzero bit in a field marked zero, in each format, and an operand out of range. -/
theorem test_ill_formed_refused :
    [Instr.add 0 ⟨0, 0, 0, 1⟩, .addi 0 ⟨0, 0, 1, 0⟩, .slli 0 ⟨0, 0, 0, 64⟩, .li 0 ⟨0, 1, 0⟩, .j 0 ⟨1, 0, 0, 0⟩, .beq 0 ⟨0, 0, 1, 0⟩,
      .nop 0 ⟨0, 0, 0, 0, 1⟩, .waiti 0 ⟨0, 0, 1, 0, 0⟩, .evt 0 ⟨3, 0, 0, 0, 0⟩].map Instr.wellFormed =
    [false, false, false, false, false, false, false, false, false] := by decide +kernel

/-- Words written out from R99, R101, R135, R162 and R193; the first is Example 1 of R100. -/
theorem test_words_read :
    readWord 7 0x1028C000FFFFFFC0 = .addi 7 ⟨5, 3, 0, 0xFFFFFFC0⟩ ∧
    readWord 0 0x0118440000000000 = .add 0 ⟨3, 1, 2, 0⟩ ∧
    readWord 0 0x2008123456789ABC = .li 0 ⟨1, 0, 0x123456789ABC⟩ ∧
    readWord 0 0x30088000000000FF = .beq 0 ⟨1, 2, 0, 0xFF⟩ ∧
    readWord 0 0x410000000000004B = .waiti 0 ⟨0, 0, 0, 0, 75⟩ := by decide +kernel

/-- As above, of the engines. -/
theorem test_engine_words_read :
    readWord 0 0x8020800000000000 = .mload 0 ⟨2, 1, 0, 0, 0, 0⟩ ∧
    readWord 0 0xA000800000000000 = .vadd 0 ⟨0, 1, 0, 0, 0, 0, 0, 0, 0, 0, 0, 0⟩ ∧
    readWord 0 0xD004410000000000 = .fgo 0 ⟨0, 1, 2, 1, 0⟩ ∧
    readWord 0 0xE00C000000000000 = .dma 0 ⟨0, 1, 16, 0⟩ ∧
    readWord 0 0x1A00000000000000 = .reservedOpcode 0 0x1A00000000000000 := by decide +kernel

/-- No row of the table has bits. -/
theorem test_no_table_word : decodeTableWord 64 0x1028C000FFFFFFC0 = none := by decide +kernel

/-! ## Scalar rows -/

def fA : FmtA := ⟨5, 6, 2, 0⟩
def fI : FmtI := ⟨5, 4, 0, 0xFFFFFFF8⟩
def fB : FmtB := ⟨1, 2, 0, 0x123⟩
def fC : FmtC := ⟨0, 0, 0, 0, 0⟩

/-- The row writes v to s5. -/
def wrote (i : Instr) (v : Word) : Bool := gives i ((opened i).passed.setS 5 v)

theorem test_add_wraps : wrote (.add 0 ⟨5, 6, 3, 0⟩) 0x30 = true := by decide +kernel
theorem test_sub : wrote (.sub 0 ⟨5, 2, 3, 0⟩) 0xFFFFFFFFFFFFFFC7 = true := by decide +kernel
theorem test_logic : (wrote (.and 0 fA) 0 && wrote (.or 0 fA) 0xFFFFFFFFFFFFFFF7 && wrote (.xor 0 fA) 0xFFFFFFFFFFFFFFF7) = true := by
  decide +kernel
theorem test_shifts : (wrote (.sll 0 fA) 0xFFFFFFFFFFFFF800 && wrote (.srl 0 fA) 0x01FFFFFFFFFFFFFF &&
    wrote (.sra 0 fA) 0xFFFFFFFFFFFFFFFF && wrote (.sll 0 ⟨5, 6, 3, 0⟩) 0xFFFFFFFFFFFFFFF0) = true := by decide +kernel
theorem test_compares : (wrote (.slt 0 fA) 1 && wrote (.sltu 0 fA) 0 && wrote (.min 0 fA) 0xFFFFFFFFFFFFFFF0 &&
    wrote (.max 0 fA) 7 && wrote (.slot 0 ⟨5, 0, 0, 0⟩) 9) = true := by decide +kernel
theorem test_immediates : (wrote (.addi 0 fI) 0x300008 && wrote (.andi 0 fI) 0x300010 && wrote (.ori 0 fI) 0xFFFFFFFFFFFFFFF8 &&
    wrote (.xori 0 fI) 0xFFFFFFFFFFCFFFE8 && wrote (.slti 0 fI) 0) = true := by decide +kernel
theorem test_shift_immediates : (wrote (.slli 0 ⟨5, 4, 0, 63⟩) 0 && wrote (.srli 0 ⟨5, 6, 0, 60⟩) 0xF &&
    wrote (.srai 0 ⟨5, 6, 0, 60⟩) 0xFFFFFFFFFFFFFFFF) = true := by decide +kernel
theorem test_li_lih : (wrote (.li 0 ⟨5, 0, 0xFFFFFFFFFFFF⟩) 0x0000FFFFFFFFFFFF &&
    gives (.lih 0 ⟨6, 0, 0x1234⟩) ((opened (.lih 0 ⟨6, 0, 0x1234⟩)).passed.setS 6 0x1234FFFFFFFFFFF0)) = true := by decide +kernel
/-- −0 is equal to +0, and a NaN is ordered with nothing. -/
theorem test_float_compares :
    (fp32Place 0x80000000 = fp32Place 0) ∧ fp32Nan 0x7FC00000 = true ∧ fp32Nan 0x7F800000 = false ∧
    steps (withWord (.flt 0 fA) (fun c => { c with sregs := [(2, 0), (6, 0xFFFFFFFF80000000)] })) (.flt 0 fA)
      (let s := withWord (.flt 0 fA) (fun c => { c with sregs := [(2, 0), (6, 0xFFFFFFFF80000000)] })
       s.setCore 0 ((s.core 0).opened.passed.setS 5 0)) = true ∧
    steps (withWord (.fle 0 fA) (fun c => { c with sregs := [(2, 0), (6, 0xFFFFFFFF80000000)] })) (.fle 0 fA)
      (let s := withWord (.fle 0 fA) (fun c => { c with sregs := [(2, 0), (6, 0xFFFFFFFF80000000)] })
       s.setCore 0 ((s.core 0).opened.passed.setS 5 1)) = true := by decide +kernel
/-- 0xFFFF_FFFF_FFFF_FFF0 × 7, low and high words, three slots later. -/
theorem test_products : (gives (.mul 0 fA) ((opened (.mul 0 fA)).passed.inFlight (opened (.mul 0 fA)) 3 (.sreg 5 0xFFFFFFFFFFFFFF90)) &&
    gives (.mulhu 0 fA) ((opened (.mulhu 0 fA)).passed.inFlight (opened (.mulhu 0 fA)) 3 (.sreg 5 6))) = true := by decide +kernel

/-- The row does not issue while another word is next: nothing changes. -/
theorem test_not_issued : (issuing (.add 0 fA)).canIssue 0 0x0118440000000000 = false ∧
    isNext (exec (.add 0 ⟨3, 1, 2, 0⟩) (issuing (.add 0 fA))) (issuing (.add 0 fA)) = true := by decide +kernel

/-! ## Loads, stores, control flow -/

/-- A load of a marked line brings SPOISON with it. -/
theorem test_ld : (gives (.ld 0 fI) ((opened (.ld 0 fI)).passed.inFlight (opened (.ld 0 fI)) 4 (.sreg 5 0)) &&
    (let s := { issuing (.ld 0 fI) with marks := [0x30007], mem := [(0x300008, 0x55)] }
     let k := (s.core 0).opened
     steps s (.ld 0 fI) (s.setCore 0 (((k.passed.inFlight k 4 (.sreg 5 0x55)).inFlight k 4 .spoison))))) = true := by decide +kernel
/-- A store is seen by its core's LD at once, by others at the fourth slot. -/
theorem test_st : (let i := Instr.st 0 ⟨2, 4, 0, 0xFFFFFFF8⟩
    let t := nextOf (exec i (issuing i))
    (issuing i).issues i && decide (t.ldValue 0 0x300008 = 7 ∧ (t.advance 0 12).mem = [] ∧
      (t.advance 0 13).mem = [(0x300008, 7)])) = true := by decide +kernel
/-- The seed register by LCSR and SCSR, at both ends of the register block for the address check. -/
theorem test_lcsr_scsr : (let r := fun (c : Core) => { c with sregs := [(1, 0x10000), (2, 77)], rngSeed := 5 }
    let i := Instr.lcsr 0 ⟨5, 1, 0, 0x60⟩
    let s := withWord i r
    let j := Instr.scsr 0 ⟨2, 1, 0, 0x60⟩
    let u := withWord j r
    let t := nextOf (exec j u)
    steps s i (s.setCore 0 ((s.core 0).opened.passed.inFlight (s.core 0).opened 4 (.sreg 5 5))) && u.issues j &&
      decide (((t.advance 0 12).core 0).rngSeed = 5 ∧ ((t.advance 0 13).core 0).rngSeed = 77)) = true := by decide +kernel

theorem test_branches : (gives (.beq 0 fB) (opened (.beq 0 fB)).passed && gives (.bne 0 fB) ((opened (.bne 0 fB)).passedTo ⟨0x123, 11, false⟩) &&
    gives (.blt 0 ⟨6, 2, 0, 5⟩) ((opened (.blt 0 ⟨6, 2, 0, 5⟩)).passedTo ⟨5, 11, false⟩) &&
    gives (.bge 0 ⟨6, 2, 0, 5⟩) (opened (.bge 0 ⟨6, 2, 0, 5⟩)).passed) = true := by decide +kernel
theorem test_unsigned_branches : (gives (.bltu 0 ⟨6, 2, 0, 5⟩) (opened (.bltu 0 ⟨6, 2, 0, 5⟩)).passed &&
    gives (.bgeu 0 ⟨6, 2, 0, 5⟩) ((opened (.bgeu 0 ⟨6, 2, 0, 5⟩)).passedTo ⟨5, 11, false⟩)) = true := by decide +kernel
theorem test_jumps : (gives (.j 0 ⟨0, 0, 0, 0xFFF⟩) ((opened (.j 0 ⟨0, 0, 0, 0xFFF⟩)).passedTo ⟨0xFFF, 11, false⟩) &&
    gives (.jal 0 ⟨31, 0, 0, 5⟩) (((opened (.jal 0 ⟨31, 0, 0, 5⟩)).passedTo ⟨5, 11, false⟩).setS 31 1) &&
    gives (.jr 0 ⟨1, 0, 0, 0⟩) ((opened (.jr 0 ⟨1, 0, 0, 0⟩)).passedTo ⟨0x020, 11, false⟩)) = true := by decide +kernel
theorem test_waits : (gives (.waits 0 { fC with sa := 2 }) ((opened (.waits 0 { fC with sa := 2 })).passedTo ⟨1, 16, true⟩) &&
    gives (.waiti 0 { fC with imm := 75 }) ((opened (.waiti 0 { fC with imm := 75 })).passedTo ⟨1, 84, true⟩) &&
    gives (.waiti 0 fC) ((opened (.waiti 0 fC)).passedTo ⟨1, 10, true⟩) &&
    gives (.waitd 0 { fC with sa := 1 }) ((opened (.waitd 0 { fC with sa := 1 })).passedTo ⟨1, 0x4020, true⟩) &&
    gives (.nop 0 fC) (opened (.nop 0 fC)).passed) = true := by decide +kernel
theorem test_swapi_ends : (gives (.swapi 0 { fC with imm := 0x45 })
      (Core.passedTo { opened (.swapi 0 { fC with imm := 0x45 }) with bank := true } ⟨0x45, 11, false⟩) &&
    gives (.ends 0 fC) (Core.passed { opened (.ends 0 fC) with ended := true })) = true := by decide +kernel
/-- A first DONE joins, a second merges; a fifth other message is dropped and counted. -/
theorem test_evt : (let m : EvtMsg := ⟨0, 9, 0⟩
    let i := Instr.evt 0 { fC with sa := 2, kind := 2, imm := 9 }
    let j := Instr.evt 0 { fC with sa := 2, kind := 1, imm := 9 }
    let s := withWord i (fun c => { c with evts := [⟨2, 0, 0⟩] })
    let u := withWord j (fun c => { c with evts := [m, m, m, m], evtLost := 0xFFFF })
    steps (issuing i) i (((issuing i).tellNemar 0 .evt 0).setCore 0 (Core.passed { opened i with evts := [⟨2, 9, 7⟩] })) && steps s i (s.setCore 0 (s.core 0).opened.passed) &&
      steps u j (u.setCore 0 (u.core 0).opened.passed)) = true := by decide +kernel
/-- A region-scoped arrival joins; one at a module barrier that is not enabled is released with FAIL. -/
theorem test_bara : (steps (issuing (.bara 0 { fC with imm := 239 })) (.bara 0 { fC with imm := 239 })
      (((issuing (.bara 0 { fC with imm := 239 })).sendArrival 0 239).setCore 0 (Core.passed { opened (.bara 0 { fC with imm := 239 }) with
        barArr := 1, barOut := [⟨239, 0, false, none⟩], barGen := [(239, 1)] })) &&
    gives (.bara 0 { fC with imm := 240 }) (Core.passed { opened (.bara 0 { fC with imm := 240 }) with
      barArr := 1, barRel := 1, barFail := true })) = true := by decide +kernel

/-! ## Program faults -/

/-- Core 0 takes a fault of the cause and code given, in its slot of issue. -/
def faulted (s : State) (i : Instr) (cause code : Nat) : Bool :=
  let t := nextOf (exec i s)
  let c := t.core 0
  decide (c.faulted = true ∧ c.faultSlot = 9 ∧
    c.faultReg = BitVec.ofNat 64 (code * 2 ^ 32 + (s.core 0).pc.toNat * 2 ^ 16 + cause)) &&
    (t.nemar.faultMsgs.map (fun (m : FaultMessage) => (m.core, m.region))) == [(0, 1)]

theorem test_faults_by_cause : (faulted (issuing (.trap 0 { fC with imm := 0xFFFF })) (.trap 0 { fC with imm := 0xFFFF }) 8 0xFFFF &&
    faulted (issuing (.reservedOpcode 0 0x1A00000000000000)) (.reservedOpcode 0 0x1A00000000000000) 1 0 &&
    faulted (issuing (.add 0 ⟨5, 6, 2, 1⟩)) (.add 0 ⟨5, 6, 2, 1⟩) 1 0 &&
    faulted (issuing (.ld 0 ⟨5, 2, 0, 0⟩)) (.ld 0 ⟨5, 2, 0, 0⟩) 5 0 &&
    faulted (issuing (.st 0 ⟨5, 0, 0, 0x400000⟩)) (.st 0 ⟨5, 0, 0, 0x400000⟩) 5 0) = true := by decide +kernel
theorem test_register_faults : (faulted (issuing (.lcsr 0 ⟨5, 0, 0, 0xFFF8⟩)) (.lcsr 0 ⟨5, 0, 0, 0xFFF8⟩) 6 0 &&
    faulted (issuing (.scsr 0 ⟨5, 0, 0, 0x15000⟩)) (.scsr 0 ⟨5, 0, 0, 0x15000⟩) 6 0 &&
    (let s := withWord (.add 0 fA) (fun c => { c with pc := 4095, imem0 := [(4095, encA 1 fA)] })
     faulted s (.add 0 fA) 2 0)) = true := by decide +kernel

/-! ## Engine rows -/

def gMload : FmtMload := ⟨2, 1, 8, 0, 1, 0⟩
def gMstr : FmtMstr := ⟨2, 2, 1, 8, 8, 0, 0, 0, 0, 0, 0, 0, 0, 0⟩
def gMma : FmtMma := ⟨2, 5, 1, 2, 8, 8, 9, 0, 0, 0, 0, 0, 0⟩
def gV : FmtV := ⟨2, 3, 1, 2, 3, 0, 0xA, 0, 0, 0, 0, 0⟩

/-- Three instructions are in the matrix queue, the last of which ends at slot 50. -/
def busy (c : Core) : Core := { c with matTail := 50, matQ := [⟨0, 18, 32, .load true ⟨8, 0, 32, 32⟩⟩], vecTail := 50 }

theorem test_matrix_rows_join :
    (gives (.mload 0 gMload) ((opened (.mload 0 gMload)).joinsMatrix 2 32 (.load true ⟨8, 0, 32, 32⟩)) &&
    (let i := Instr.mstr 0 gMstr
     let s := withWord i busy
     steps s i (s.setCore 0 ((s.core 0).opened.joinsMatrix 2 0x40 (.stream (streamOf (s.core 0).opened gMstr) none))) ==
       ((s.core 0).getS gMstr.sN == 64))) = true := by decide +kernel
theorem test_mma_cost :
    (let i := Instr.mma 0 gMma
     let s := withWord i busy
     let k := (s.core 0).opened
     let w := walkOf gMma (k.getS 1) (k.getS 2)
     steps s i (s.setCore 0 ((k.joinsMatrix 2 w.occ (.walk w)).setS 5
       (BitVec.ofNat 64 (52 + w.occ + w.extra - k.slot - 1))))) = true := by decide +kernel
theorem test_vadd_joins :
    (let i := Instr.vadd 0 gV
     let k := opened i
     gives i (k.joinsVector 2 (Nat.max (vecOpOf k 0xA0 gV).groups 1) (vecOpOf k 0xA0 gV))) = true := by decide +kernel
/-- FGO: a fourth pass is accepted at once, a fifth waits. -/
theorem test_fgo :
    (let i := Instr.fgo 0 ⟨0, 1, 3, 2, 0⟩
     let p : Pass := { off := 64, cnt := 7, due := 12 }
     let q : Pass := { off := 0, cnt := 1 }
     let s := fun (n : Nat) => withWord i (fun c => c.setGen 1 { c.gen 1 with passes := List.replicate n q })
     steps (s 3) i ((s 3).setCore 0 (((s 3).core 0).opened.passed.setGen 1 { (s 3 |>.core 0).gen 1 with passes := [q, q, q, p] })) &&
     steps (s 4) i ((s 4).setCore 0 { ((s 4).core 0).opened.passed with fetchQ := [(1, some p)] })) = true := by
  decide +kernel
theorem test_fstop_dma :
    (let i := Instr.fstop 0 ⟨0, 1, 0⟩
     let q : Pass := { off := 0, cnt := 1 }
     let s := withWord i (fun c => c.setGen 1 { c.gen 1 with passes := [q, q] })
     let j := Instr.dma 0 ⟨0, 1, 3, 0⟩
     let k := (s.core 0).opened.passed.setGen 1 (((s.core 0).opened.gen 1).fstop)
     let t := (nextOf (exec i s)).core 0
     s.issues i && t.ag == k.ag && { t with ag := k.ag } == k &&
       (((s.core 0).gen 1).fstop.passes == []) &&
       gives j ((opened j).passed.setChan 1 { (opened j).chan 1 with chains := [(64, 12)] })) = true := by decide +kernel
/-- A full queue costs an empty slot. -/
theorem test_full_queue :
    (let i := Instr.dma 0 ⟨0, 1, 3, 0⟩
     let s := withWord i (fun c => { c with dmaQ := List.replicate 16 (0, 0, 0) })
     decide ((s.core 0).queueFull 0xE0 = true) && isNext (exec i s) (s.setCore 0 ((s.core 0).opened.completeSlots 1))) = true := by
  decide +kernel
/-- An illegal format, a unit absent in the grade, a range, a generator not enabled. -/
theorem test_engine_faults :
    (faulted (issuing (.mload 0 { gMload with ifmt := 15 })) (.mload 0 { gMload with ifmt := 15 }) 1 0 &&
     faulted { issuing (.mload 0 { gMload with ifmt := 9 }) with grade := .s } (.mload 0 { gMload with ifmt := 9 }) 7 0 &&
     faulted { issuing (.hflush 0 ⟨0, 0, 0, 0, 0, 0, 0, 0, 0, 0, 0, 0⟩) with grade := .s }
       (.hflush 0 ⟨0, 0, 0, 0, 0, 0, 0, 0, 0, 0, 0, 0⟩) 7 0 &&
     (let i := Instr.fgo 0 ⟨0, 1, 3, 2, 0⟩
      faulted (withWord i (fun c => { c with ag := Vector.replicate 4 {} })) i 1 0) &&
     faulted (issuing (.dma 0 ⟨0, 1, 2, 0⟩)) (.dma 0 ⟨0, 1, 2, 0⟩) 5 0) = true := by decide +kernel

/-! ## The engines at work -/

/-- VMOV of three FP32 elements from v1 to v2, in hand. -/
def moving : VecActive := {
  iss := 3, start := 5, groups := 1, depth := 6, op := {
    op := 0xB4, n := 3, cols := 0, d := .vreg 2, a := .vreg 1, b := .none, c := .none, fmt := 0xA, aux := 0, rnd := false,
    sS := 0, sDst := 0, tap := false, w := 64 } }
def atWork (f : Core → Core) : State := oneCore (f { running := true, slot := 2, idleUntil := 9 })
def loading : MatActive := { iss := 3, start := 5, groups := 32, ld := some (true, ⟨8, 0, 32, 32⟩) }
def queuedLoad : Queued MatOp := ⟨3, 5, 32, .load true ⟨8, 0, 32, 32⟩⟩

theorem test_vmov :
    (let s := atWork (fun c => { c with
        vecA := some moving, vregs := [(4096, 7), (4097, 0xFFFFFFFF), (4098, 0x7FC01234), (4099, 5), (8195, 9)] })
     let t := nextOf (exec (.engineGroup 0 .vector) s)
     decide (s.eventSlot 0 .vector = some 5 ∧ (t.core 0).vecA = none ∧ ((t.advance 0 10).core 0).vregs = (s.core 0).vregs ∧
       (List.range 4).map (fun e => look ((t.advance 0 11).core 0).vregs (8192 + e) 0) = [7, 0xFFFFFFFF, 0x7FC01234, 9])) = true := by
  decide +kernel
/-- Without an entry the slot stretches; with one the group is done. -/
theorem test_matrix_group :
    (let s := fun (fq : List Entry) => atWork (fun c => { c with matA := some loading, ag := #v[{ fq := fq }, {}, {}, {}] })
     let t := nextOf (exec (.engineGroup 0 .matrix) (s []))
     let u := nextOf (exec (.engineGroup 0 .matrix) (s [{ data := 77 }]))
     decide ((t.core 0).matA = some loading ∧ (t.core 0).slot = 5 ∧ (t.core 0).stallTotal = 1 ∧ (t.core 0).refbeats = 4 ∧
       ((u.core 0).matA.map (fun a => (a.g, a.got))) = some (1, 0) ∧ (u.core 0).ag[0].fq = [])) = true := by decide +kernel
theorem test_instruction_starts :
    (let s := atWork (fun c => { c with matQ := [queuedLoad, queuedLoad] })
     let t := nextOf (exec (.engineInstrStart 0 .matrix) s)
     let u := atWork (fun c => { c with vecQ := [⟨3, 5, 1, moving.op⟩] })
     let v := nextOf (exec (.engineInstrStart 0 .vector) u)
     decide (s.eventSlot 0 .matrix = some 5 ∧ (t.core 0).matA = some loading ∧ (t.core 0).matQ = [queuedLoad] ∧
       (t.core 0).slot = 5 ∧ (v.core 0).vecA.map (fun a => (a.start, a.g, a.groups, a.op)) = some (5, 0, 1, moving.op))) = true := by decide +kernel

/-- A walk of a 64 × 32 × 32 product in two tiles, of which `n` computes all. -/
def walk : Walk := walkOf gMma ((opened (.mma 0 gMma)).getS 1) ((opened (.mma 0 gMma)).getS 2)

/-- The next tile of a walk starts at its slot and is named in CORE_SEQ_POS. -/
theorem test_tile_starts :
    (let a : MatActive := { iss := 3, start := 5, g := 32, groups := 32, walk := some ⟨walk, 0, 5, false⟩ }
     let s := atWork (fun c => { c with matA := some a })
     let t := nextOf (exec (.mmaTile 0) s)
     decide (s.eventSlot 0 .matrix = some 5 ∧ (t.core 0).slot = 5 ∧ (t.core 0).seqPos = walk.pos 0 ∧
       (walk.isComputed 0 = true → ((t.core 0).matA.map (fun b => (b.start, b.g))) = some (5, 0)))) = true := by decide +kernel

/-! ## Stream queues -/

/-- Cores 0 and 1 of region 1; core 0's output queue 8 bound to core 1's input queue 3, and back. -/
def pair (st : RState) (f g : Core → Core) : State := {
  cores := [(0, f (({ running := true } : Core).setQueue 8 { cfg := 0x80030001 })),
    (1, g (({ running := true } : Core).setQueue 3 { cfg := 0x80000000 }))]
  regions := [(1, { rect := 0x10000, state := st })] }

theorem test_entry_leaves :
    (let e : Entry := { data := 5 }
     let s := pair .running (fun c => c.setQueue 8 { c.queue 8 with buf := [e, {}], cred0 := 1 }) id
     let t := nextOf (exec (.sqEntrySend 0 0) s)
     decide (s.queuesMove 0 = true ∧ ((t.core 0).queue 8).buf = [{}] ∧ ((t.core 0).queue 8).cred0 = 0 ∧
       ((t.core 1).queue 3).arriving.map Prod.fst = [e] ∧ t.mem = s.mem)) = true := by decide +kernel
/-- The last credit an input queue without a spill area can grant, its sixteenth; then no more. -/
theorem test_credit_granted :
    (let s := fun (n : Nat) => pair .running id (fun c => c.setQueue 3 { c.queue 3 with out0 := n })
     let t := nextOf (exec (.sqCreditGrant 1 3 false) (s 15))
     decide ((s 15).creditor 1 3 false = some (0, 8) ∧ ((s 15).core 1).mayGrant 3 false = true ∧
       ((t.core 1).queue 3).out0 = 16 ∧ ((t.core 0).queue 8).cred0 = 1 ∧ ((s 16).core 1).mayGrant 3 false = false)) = true := by
  decide +kernel
/-- An entry joins the buffer, or stands behind others in the spill area. -/
theorem test_entry_arrives :
    (let e : Entry := { data := 5 }
     let fl : MeshFlit := { px := 1, py := 0, dx := 1, dy := 0, lane := false, epoch := false, delivered := true }
     let s := fun (x : StreamQueue) => { pair .running id (fun c => c.setQueue 3 { x with arriving := [(e, 4)] }) with
       mesh := { flits := [(4, fl)] } }
     let t := nextOf (exec (.sqEntryArrive 1 3) (s {}))
     let u := nextOf (exec (.sqEntryArrive 1 3) (s { buf := List.replicate 16 {}, spillCfg := 4 }))
     decide (((t.core 1).queue 3).buf = [e] ∧ ((t.core 1).queue 3).arriving = [] ∧ t.mesh.flits = [] ∧
       ((u.core 1).queue 3).buf.length = 16 ∧ ((u.core 1).queue 3).spill.map (fun x => x.line) = [0] ∧
       getByte u.mem 0x400000 = 5)) = true := by decide +kernel
theorem test_spill_returns :
    (let e : Entry := { data := 5 }
     let s := pair .running id (fun c => c.setQueue 3 { c.queue 3 with buf := List.replicate 15 {}, spill := [{ line := 0 }], spillCfg := 4 })
     let s := { s with mem := [(0x400000, 5)] }
     let t := nextOf (exec (.spillReturn 1 3) s)
     decide (((s.core 1).queue 3).setAside false = 0 ∧ ((t.core 1).queue 3).buf = List.replicate 15 ({} : Entry) ++ [e] ∧
       ((t.core 1).queue 3).spill = [])) = true := by decide +kernel

/-! ## Regions -/

/-- A core that meets R75, its staged words in hand. -/
def ready75 (c : Core) : Core := { c with
  staged := true, stagedSent := true, stagedHere := true, fromSlack := true, sregs := [(1, 9)],
  sq := Vector.replicate 16 {} }

theorem test_staged :
    (let s := pair .tideline (fun c => { c with stagedSent := true }) id
     let u := s.tellCore 0 .staged 0
     isNext (exec (.staged 0) s) (s.setCore 0 { s.core 0 with stagedHere := true }) &&
       (u.underWay .staged 0 0 && isNext (exec (.staged 0) u) u)) = true := by decide +kernel
/-- The last core to switch makes the region RUNNING in the new phase, the first does not. -/
theorem test_core_switch :
    (let s := fun (g : Core → Core) =>
       let u := pair .tideline ready75 g
       { (u.setRegion 1 { u.region 1 with load := some (.tag 7, 0x55), stageScan := 0x8000000200000000 }) with mem := [(0x80, 0x77)] }
     let t := nextOf (exec (.coreSwitch 0) (s (fun c => { c with switched := true })))
     let u := nextOf (exec (.coreSwitch 0) (s id))
     decide ((s id).mayCross 0 = true ∧ ((((s id).enqueueTides 0).core 0).allTided = true) ∧
       (t.core 0).phase = true ∧ (t.core 0).bank = true ∧ (t.core 0).pc = 0 ∧ (t.core 0).imem true 0 = 0x77 ∧
       (t.core 0).sregs = [(1, 9)] ∧ (t.region 1).state = .running ∧ (t.region 1).phase = true ∧
       fld (t.region 1).ctrl 16 16 = 0x55 ∧ (u.region 1).state = .tideline)) = true := by decide +kernel
theorem test_deadlock_sample :
    (let s := pair .running (fun c => c.setQueue 8 { c.queue 8 with quiet := 3 }) (fun c => c.setQueue 3 { c.queue 3 with moved := true, quiet := 3 })
     let t := nextOf (exec .deadlockSample s)
     decide (((t.core 0).queue 8).quiet = 4 ∧ ((t.core 1).queue 3).quiet = 0 ∧ ((t.core 1).queue 3).moved = false)) = true := by
  decide +kernel
/-- Two cores each wait on an empty queue fed by the other. -/
theorem test_deadlock_halts :
    (let waits := fun (l : Word) (c : Core) => { (c.setQueue 0 { cfg := 0x80000000 ||| l, quiet := 4 }) with
       slot := 5, matA := some { loading with ld := some (true, ⟨0, 0, 32, 32⟩) } }
     let s := pair .running (waits 1) (waits 0)
     let t := nextOf (exec (.deadlockReport 1) s)
     let ws : List QueueWait := [⟨0, 0, false⟩, ⟨1, 0, false⟩]
     decide (s.waitCycle 1 = some ws ∧ (t.region 1).state = .halted ∧ (t.region 1).watch = true ∧
       fld (t.region 1).dlCount 0 20 = 2 ∧ fld (t.region 1).dlCount 20 1 = 1 ∧ fld (t.region 1).dlCount 21 2 = 2 ∧
       (t.region 1).dlQ = [0, 1])) = true := by decide +kernel

/-- A command in flight under tag 7. -/
def flying (op : BitVec 16) (args : Vector Word 12) : Command := {
  sub := { opcode := op, args := args, buf := 0x4000, bufLen := 0x10000 }, ref := .tag 7, ring := 2 }

/-- The A arguments of a command. -/
def words (a b c d e f g : Word) : Vector Word 12 := #v[a, b, c, d, e, f, g, 0, 0, 0, 0, 0]

theorem test_ebb_drain :
    (let s := fun (off : Bool) =>
       let u := pair .ebbing (fun c => { c with sq := Vector.replicate 16 {}, ended := true }) (fun c => { c with sq := Vector.replicate 16 {}, ended := true })
       { (u.setRegion 1 { u.region 1 with drain := some (.tag 7, off) }) with nemar := { cmds := [flying 0x14 (words 0 0 0 0 0 0 0)] } }
     let t := nextOf (exec (.ebbDrainComplete 1) (s false))
     decide ((rectCores 0x10000).all (s false).ebbed = true ∧ (t.region 1).state = .slack ∧ (t.region 1).drain = none ∧
       (t.command (.tag 7)).map (fun c => c.ended) = some true)) = true := by decide +kernel
/-- The first core's stop leaves the region STOPPING, the last one's makes it SCANNING. -/
theorem test_stop_confirm :
    (let stop := fun (c : Core) => { c with stopping := true }
     let s := fun (g : Core → Core) => pair .stopping stop g
     let t := nextOf (exec (.stopConfirm 0) (s stop))
     let u := nextOf (exec (.stopConfirm 0) (s (fun c => { c with stopping := true, stopped := true })))
     decide ((s stop).mayStop 0 = true ∧ (t.core 0).stopped = true ∧ (t.region 1).state = .stopping ∧
       (u.region 1).state = .scanning)) = true := by decide +kernel
theorem test_flood_complete :
    (let s := pair .flooding id id
     let t := nextOf (exec (.floodComplete 1) (s.setRegion 1 { s.region 1 with resume := .slack }))
     decide ((t.region 1).state = .slack ∧ (t.region 1).rect = 0x10000)) = true := by decide +kernel
/-- A scan-out saved: the cores are off the region, which is SAVED. -/
theorem test_scan_complete :
    (let s := oneCore { running := true, stopping := true, stopped := true }
     let s := s.setRegion 1 { s.region 1 with state := .scanning, stageScan := 0 }
     let t := nextOf (exec (.scanComplete 1) s)
     decide ((s.region 1).stopFault = none ∧ (s.region 1).lostCore = none ∧ (s.region 1).scanCause = .drain ∧
       (t.region 1).state = .saved ∧ (t.core 0).running = false ∧ (t.region 1).drain = none)) = true := by decide +kernel

/-! ## Messages -/

theorem test_fault_message :
    (let m : FaultMessage := { core := 0, region := 1, fault := 0x101, slot := 9, req := 0, tag := some 7 }
     let s := pair .running id id
     let s := { (s.setRegion 1 { s.region 1 with reqValid := true, reqTag := 7, requested := true }) with
       nemar := { faultMsgs := [m], cmds := [flying 0x13 (words 0 0 0 0 0 0 0)] } }
     let t := nextOf (exec (.faultMessage 0) s)
     decide ((s.region 1).requestOver = false ∧ (t.region 1).state = .staged ∧ (t.core 0).running = false ∧
       (t.core 1).running = false ∧ t.nemar.faultMsgs = [] ∧ (t.nemar.log.map (fun e => (e.code, e.w0, e.w1))) = [(rcFault, 0x101, 9)] ∧
       (t.command (.tag 7)).map (fun c => c.ended) = some true)) = true := by decide +kernel
/-- A LOG is logged; the first of two DONEs is counted, the second ends the request. -/
theorem test_evt_message :
    (let s := fun (m : EvtMsg) (n : Nat) =>
       let u := pair .running (fun c => { c with evts := [m] }) id
       { (u.setRegion 1 { u.region 1 with reqValid := true, reqTag := 7, doneCount := n }) with
         nemar := { cmds := [flying 0x13 (words 0 0 0 0 0 0 0)] } }
     let t := nextOf (exec (.evtMessage 0) (s ⟨0, 3, 4⟩ 2))
     let u := nextOf (exec (.evtMessage 0) (s ⟨2, 0, 0⟩ 2))
     let v := nextOf (exec (.evtMessage 0) (s ⟨2, 0, 0⟩ 1))
     decide ((t.nemar.log.map (fun e => (e.code, e.w0, e.w1))) = [(rcEvtLog, 3, 4)] ∧ (t.core 0).evts = [] ∧
       (u.region 1).reqValid = true ∧ (u.region 1).done = [0] ∧ (v.region 1).reqValid = false ∧
       (v.region 1).lastStatus = 0 ∧ (v.command (.tag 7)).map (fun c => c.ended) = some true)) = true := by decide +kernel
/-- At its LIMIT, and one µs before it. -/
theorem test_request_timeout :
    (let s := fun (n : Nat) =>
       let u := pair .running id id
       u.setRegion 1 { u.region 1 with reqValid := true, reqTag := 7, limitMs := 1, reqUsec := n }
     let t := nextOf (exec (.reqTimeout 1) (s 1000))
     let u := nextOf (exec (.reqTimeout 1) (s 999))
     decide ((t.region 1).reqValid = false ∧ (t.region 1).lastStatus = 0x3004 ∧ (t.region 1).state = .staged ∧
       (t.core 1).running = false ∧ (u.region 1).reqValid = true)) = true := by decide +kernel

/-! ## Generators, packer, DMA -/

/-- An enabled generator of runs of 128 bytes at 0x1000 of the pool, one run to a tile. -/
def gen : AddrGen := { ctrl := 0x81100000, base := 0x1000, dim0 := 128 }
def onePass : Pass := { off := 0, cnt := 1 }
def withGen (a : AddrGen) (f : Core → Core := id) : State := oneCore (f ({ running := true, ag := #v[a, {}, {}, {}] } : Core))

theorem test_tile_read :
    (let s := withGen { gen with passes := [onePass] }
     let t := nextOf (exec (.agTileRead 0 0) s)
     decide (gen.tileRuns 1 = 1 ∧ ((s.core 0).gen 0).next = some (onePass, 0) ∧
       ((t.core 0).gen 0).tiles.map (fun r => r.map (fun x => (x.addr, x.len))) = [[(0x1000, 128)]] ∧
       ((t.core 0).gen 0).left.map (fun x => x.n) = [1] ∧ ((t.core 0).gen 0).passes = [])) = true := by
  decide +kernel
/-- A closed entry gate makes an entry stream GATED. -/
theorem test_gate :
    (let s := withGen { gen with ctrl := 0x89100000, passes := [onePass] }
     let s := s.setRegion 1 { s.region 1 with gate := false }
     let t := nextOf (exec (.agTileRead 0 0) s)
     decide (({ gen with ctrl := 0x89100000 } : AddrGen).atGate onePass 0 = true ∧ ((t.core 0).gen 0).gated = true ∧
       ((t.core 0).gen 0).tiles = [])) = true := by decide +kernel
/-- A good return fills the fetch queue; a failed target delivers the run poisoned and is counted, a missed deadline is counted
as late too. -/
theorem test_read_returns :
    (let r : Run := { addr := 0x1000, len := 128, slot := 0 }
     let s := { withGen { gen with tiles := [[r]] } with mem := [(0x1001, 7)] }
     let t := nextOf (exec (.fetchReadReturn 0 0 0 .good) s)
     let u := nextOf (exec (.fetchReadReturn 0 0 0 .targetFailed) s)
     let v := nextOf (exec (.readDeadlineExpire 0 0 0) s)
     decide (s.whereIs 0x1000 = .mem 0x1000 ∧ ((t.core 0).gen 0).fq = [{ data := 0x700 }] ∧ ((t.core 0).gen 0).tiles = [] ∧
       ((u.core 0).gen 0).errs = 1 ∧ (((u.core 0).gen 0).fq.map (fun e => e.marks)) = [0xFF] ∧ ((u.core 0).gen 0).late = 0 ∧
       ((v.core 0).gen 0).late = 1)) = true := by decide +kernel
theorem test_write_line :
    (let s := withGen { gen with ctrl := 0xC1180000, dim0 := 3, passes := [onePass] } (fun c => c.setQueue 0 { buf := [{ data := 0x332211 }], out0 := 1 })
     let a := (s.core 0).gen 0
     let t := nextOf (exec (.agWriteEntry 0 0) s)
     decide (a.slotBytes = 128 ∧ a.tileRuns 1 = 1 ∧ t.mem = [(0x1000, 0x11), (0x1001, 0x22), (0x1002, 0x33)] ∧
       ((t.core 0).gen 0).tilesDone = 1 ∧ ((t.core 0).queue 0).buf = [])) = true := by decide +kernel
/-- A frame of BF16 zeros, packed to 512 bytes of mantissas; the next returned frame is delivered as 64 entries. -/
theorem test_unpack_frame :
    (let r : Run := { addr := 0x1000, len := 512, slot := 0, got := some (List.replicate 512 (0, false)) }
     let s := withGen { gen with tiles := [[r]] } (fun c => { c with pk := { cfg := 0x90 } })
     let t := nextOf (exec (.unpackFrame 0) s)
     decide ((s.core 0).pk.uEn = true ∧ (s.core 0).pk.uKind = 2 ∧ ((t.core 0).gen 0).fq.length = 64 ∧
       (t.core 0).pk.uframes = 1 ∧ ((t.core 0).gen 0).tiles = [])) = true := by decide +kernel
theorem test_pack_frame :
    (let s := withGen { gen with ctrl := 0xC1100000, dim0 := 512, cur := some (onePass, 0), wentries := 64 }
       (fun c => { c with pk := { cfg := 0x9000, packIn := List.replicate 64 {} } })
     let t := nextOf (exec (.packFrame 0) s)
     decide ((s.core 0).pk.pKind = 2 ∧ ((s.core 0).gen 0).run = 512 ∧ (t.core 0).pk.pframes = 1 ∧ (t.core 0).pk.packIn = [] ∧
       ((t.core 0).gen 0).tilesDone = 1)) = true := by decide +kernel

/-- Channel 0 of core 0 at a descriptor at 0x40: COPY of 2 bytes, one row, from 0x1000 to 0x2000, w0 as given. -/
def atDesc (w0 : Word) (op : Byte := 0) : State :=
  let m := setBytes [(0x1000, 0xAA), (0x1001, 0xBB)] 0x40 (toBytes 8 w0.toNat ++ toBytes 8 0 ++ toBytes 8 0x1000 ++ toBytes 8 0x2000 ++ toBytes 8 2)
  { oneCore {} with mem := setByte m 0x47 (getByte m 0x47 ||| op) } |>.setCore 0
    (({ running := true } : Core).setChan 0 { chains := [(0x40, 0), (0x80, 0)] })

theorem test_descriptor_not_owned :
    (let t := nextOf (exec (.dmaDescriptor 0 0 {}) (atDesc 0))
     decide (((t.core 0).chan 0).ownStop = true ∧ ((t.core 0).chan 0).chains = [(0x80, 0)] ∧ ((t.core 0).chan 0).desc = 1)) = true := by
  decide +kernel
theorem test_descriptor_copies :
    (let s := atDesc 0x8000000000000000
     let t := nextOf (exec (.dmaDescriptor 0 0 {}) s)
     decide (s.descCause 0 (readDesc s.mem 0x40) false = none ∧ getBytes t.mem 0x2000 3 = [0xAA, 0xBB, 0] ∧
       getWord t.mem 0x78 = 0x8000000000000002 ∧ getByte t.mem 0x47 = 0 ∧ ((t.core 0).chan 0).ndone = 1 ∧
       ((t.core 0).chan 0).nbad = 0 ∧ ((t.core 0).chan 0).chains = [(0x80, 0)])) = true := by decide +kernel
/-- OP 2 is refused with cause 6 and moves nothing. -/
theorem test_descriptor_op :
    (let s := atDesc 0x8200000000000000
     let t := nextOf (exec (.dmaDescriptor 0 0 {}) s)
     decide (s.descCause 0 (readDesc s.mem 0x40) false = some 6 ∧ getBytes t.mem 0x2000 3 = [0, 0, 0] ∧
       getWord t.mem 0x78 = 0xC006000000000000 ∧ ((t.core 0).chan 0).nbad = 1)) = true := by decide +kernel
theorem test_posted_refused :
    (let s := fun (x : List (Nat × Nat × Nat × Int)) => oneCore (({ running := true } : Core).setChan 0 { posted := x })
     let t := nextOf (exec (.postedWriteRefused 0 0) (s [(0x2000, 1, 0, 0)]))
     isNext (exec (.postedWriteRefused 0 0) (s [])) (s []) &&
       decide ((s []).whereIs 0x2000 = .mem 0x2000 ∧ ((t.core 0).chan 0).pfail = true ∧ ((t.core 0).chan 0).prior = true)) = true := by
  decide +kernel

/-! ## Tiers -/

/-- Page 9, valid, at a host location, its backing location given. -/
def page9 : PtEntry := { w0 := 0xE000000000000005, w1 := 0xE000000000000005, heat := 60 }

theorem test_pt_miss :
    (let s := fun (c : List (Nat × Word)) => { oneCore { ptCache := c } with tiers := { pt := [(9, page9)] } }
     let t := nextOf (exec (.ptMissWalk 0 9) (s [(3, 1)]))
     decide ((s []).available 0 = true ∧ (t.core 0).ptCache = [(3, 1), (9, page9.w0)] ∧ (t.core 0).ptMiss = 1) &&
       isNext (exec (.ptMissWalk 0 9) (s [(9, 0)])) (s [(9, 0)])) = true := by decide +kernel
theorem test_pt_invalidate :
    (let s := { oneCore { ptCache := [(9, 0), (3, 1)] } with tiers := { inval := [(9, [0, 4])] } }
     let t := nextOf (exec (.ptInvalidate 0 9) s)
     decide ((t.core 0).ptCache = [(3, 1)] ∧ t.tiers.inval = [(9, [4])])) = true := by decide +kernel
/-- HEAT 60 + 4 reaches PROMOTE, 64 at reset. -/
theorem test_hot_page_moves :
    (let s := fun (n : Nat) => ({ tiers := { pt := [(9, page9)], pool1 := [0x200000, 0x200001], readBytes := [(9, n)] } } : State)
     let t := nextOf (exec (.migEval []) (s 32768))
     let u := nextOf (exec (.migEval []) (s 32767))
     decide (page9.movable = true ∧ page9.promoted = false ∧ t.tiers.moves.map (fun m => (m.page, m.dst.frame)) = [(9, 0x200000)] ∧
       t.tiers.pool1 = [0x200001] ∧ t.tiers.pt.map (fun x => x.2.heat) = [32] ∧ u.tiers.moves = [] ∧
       u.tiers.pt.map (fun x => x.2.heat) = [31] ∧
       t.tiers.readBytes = [] ∧ u.tiers.readBytes = [(9, 8191)])) = true := by decide +kernel
/-- A promotion from the host to stack 0, copied, and one whose destination failed. -/
theorem test_page_move_ends :
    (let m : Move := { page := 9, src := ⟨3, 0, 0x800005⟩, dst := ⟨1, 0, 0x200001⟩, demotion := false, against := false, steep := none }
     let s : State := { mem := [(0x100000A00003, 7)], tiers := { pt := [(9, { page9 with w0 := 0xE080000000800005 })], moves := [m], granted1 := [0x200001] },
                        host := { ports := #v[{ up := true, busMaster := true }, {}] } }
     let t := nextOf (exec (.pageMoveComplete 9 .copied) s)
     let u := nextOf (exec (.pageMoveComplete 9 .destinationFailed) s)
     decide (s.placeOf m.src = .mem 0x100000A00000 ∧ s.placeOf m.dst = .mem 0x040000200000 ∧
       t.mem = [(0x040000200003, 7), (0x100000A00003, 7)] ∧ t.tiers.movesDone = 1 ∧ t.tiers.moves = [] ∧
       (t.ptEntry 9).w0 = 0xA000000000200001 ∧ u.tiers.fail = 1 ∧ u.tiers.pool1 = [0x200001] ∧
       (u.ptEntry 9).w0 = 0xE000000000800005)) = true := by decide +kernel
theorem test_tier_report :
    (let s := fun (v : Bool) =>
       let u := pair .running id id
       { (u.setRegion 1 { u.region 1 with reqValid := v, reqTag := 7, tierFail := 0xFFFF }) with
         nemar := { tierReports := [{ region := 1, core := some 0, status := 0x4003, page := 9, src := none }], cmds := [flying 0x13 (words 0 0 0 0 0 0 0)] } }
     let t := nextOf (exec (.tierReport 1) (s true))
     let u := nextOf (exec (.tierReport 1) (s false))
     decide ((t.region 1).tierFail = 0xFFFF ∧ (t.region 1).state = .staged ∧ (t.region 1).lastStatus = 0x4003 ∧
       t.nemar.log.map (fun e => (e.code, e.w1, e.w2, e.w3)) = [(rcTier, 0x4003, 9, 0xFFFFFFFFFFFFFFFF)] ∧
       (u.region 1).tierIdle = 1 ∧ (u.region 1).state = .running)) = true := by decide +kernel
/-- A wait of 20 ms is 80 ticks of 250 µs. -/
theorem test_watchdog :
    (let starve := fun (n : Nat) (c : Core) => { c with
       slot := 5, matA := some { iss := 3, start := 5, groups := 2, str := some ⟨2, 1, 0, 1, 0, false, 0, 64, true, false, none⟩ }, starved := true, starvedTicks := n }
     let s := fun (n : Nat) =>
       let u := pair .running (starve n) id
       u.setRegion 1 { u.region 1 with reqValid := true }
     let t := nextOf (exec (.wdogExpire 0) (s 80))
     let u := nextOf (exec .watchTick (s 79))
     isNext (exec (.wdogExpire 0) (s 79)) (s 79) &&
       decide (((s 79).core 0).weightStarved = true ∧ t.nemar.tierReports.map (fun (x : TierReport) => (x.region, x.core, x.status, x.page, x.src)) = [(1, none, stTierTimeout, 0, some 0)] ∧
         (u.core 0).starvedTicks = 80 ∧ (u.core 1).starved = false)) = true := by decide +kernel

/-! ## Mesh, arbiters, barriers -/

/-- To the east within a die, across a die boundary, to the local port, and lost with a failed link. -/
theorem test_flit_hops :
    (let f := fun (px dx : Nat) => ({ px := px, py := 0, dx := dx, dy := 0, lane := false, epoch := false } : MeshFlit)
     let s := fun (x : MeshFlit) => ({ mesh := { flits := [(4, x)] } } : State)
     let out := fun (x : MeshFlit) (o : HopOutcome) => (look ((nextOf (exec (.flitHop 4 o) (s x))).mesh.flits.map
       (fun (e : Nat × MeshFlit) => (e.1, some (e.2.px, e.2.beats, e.2.delivered)))) 4 none : Option (Nat × Nat × Bool))
     decide (out (f 0 5) .clean = some (1, 5, false) ∧ out (f 33 34) .clean = some (34, 7, false) ∧
       out (f 5 5) .clean = some (5, 5, true) ∧ out (f 33 34) .codeErrorLasting = none ∧
       (nextOf (exec (.flitHop 4 .codeErrorLasting) (s (f 33 34)))).mesh.failedLinks = [33 * 4 + 1])) = true := by
  decide +kernel
theorem test_arbiter_requests :
    (let s := fun (x : Arbiter) => oneCore { arbs := [(0, x)] }
     let out := fun (x : Arbiter) => look ((nextOf (exec (.arbRequest 0 0 1) (s x))).core 0).arbs 0 {}
     decide (1 < arbClasses 0 ∧ (out {}).granted = some 1 ∧ (out { granted := some 0 }).parked = [(1, 0)] ∧
       (out { granted := some 0, parked := List.replicate 8 (0, 0) }).refuse = 1 ∧
       (match exec (.arbRequest 0 23 0) (s {}) with | .fault .noSuchUnit => true | _ => false) = true)) = true := by decide +kernel
/-- The oldest of the highest rank, and one passed over often enough before it. -/
theorem test_arbiter_grants :
    (let s := fun (x : Arbiter) => oneCore { arbs := [(0, x)], arbActive := [(0, 0x200000021)] }
     let out := fun (x : Arbiter) => look ((nextOf (exec (.arbResourceFree 0 0) (s x))).core 0).arbs 0 {}
     decide ((out { granted := some 0, parked := [(0, 0), (1, 0), (1, 1)] }).granted = some 1 ∧
       (out { granted := some 0, parked := [(0, 0), (1, 0), (1, 1)] }).parked = [(0, 1), (1, 2)] ∧
       (out { granted := some 0, parked := [(1, 0), (0, 4)] }).granted = some 0 ∧
       (out { granted := some 0 }).granted = none ∧
       (look ((nextOf (exec (.arbWithdraw 0 0) (s { granted := some 0 }))).core 0).arbs 0 {}).dead = 1)) = true := by decide +kernel
theorem test_replan_begins :
    (let p : RoutePlan := { trigger := .linkFailed 0 1, entries := [], unreachable := [] }
     let s : State := { mesh := { failedLinks := [1], routers := [(7, { epoch := false })] } }
     let x : Replan := { trigger := .linkFailed 0 1, epoch := true }
     let u : State := { mesh := { replan := some x, routers := [(0, { epoch := false, active := false })] } }
     let v := nextOf (exec (.epochFlip 0) u)
     decide (s.triggered p.trigger = true ∧ (u.router 0).epoch ≠ x.epoch ∧ (v.router 0).epoch = true ∧ (v.router 0).active = true)) = true := by
  decide +kernel
/-- The first of two cores to arrive does not release the generation, the second does; the release is counted. -/
theorem test_region_barrier :
    (let out := fun (c : Core) => { c with barOut := [⟨3, 0, false, none⟩] }
     let s := pair .running out out
     let t := nextOf (exec (.barrierArrival 0 3) s)
     let u := nextOf (exec (.barrierArrival 1 3) t)
     let w := nextOf (exec (.flitHop 0 .clean) u)
     let v := nextOf (exec (.barrierRelease 0 3) w)
     decide (u.underWay .release 0 3 = true ∧ w.underWay .release 0 3 = false ∧ (t.barCount 259 0).cores = [0] ∧ (t.barCount 259 0).released = false ∧ (u.barCount 259 0).released = true ∧
       (u.barCount 259 0).dies = [0] ∧ (v.core 0).barOut = [] ∧ (v.core 0).barRel = 1 ∧ (v.barCount 259 0).cores = [1])) = true := by decide +kernel

/-! ## Rates, temperature, ticks -/

/-- Quadrant 5 alone is powered; a temperature of 9,500 is 95.00 °C. -/
def quad5 (x : Quadrant) : State := { plant := { quads := [(5, { x with powered := true })] } }
def warm (t : Int) : Vector (BitVec 16) 4 := #v[BitVec.ofInt 16 t, 0, 0, 0]

/-- TLO 85 and THI 95 at reset. -/
theorem test_throttling :
    (let q := fun (x : Quadrant) (i : Instr) => (nextOf (exec i (quad5 x))).quad 5
     let a := q { twork := 90, temps := warm 9001 } .thermalLoopEval
     let b := q { twork := 85, temps := warm 8501 } .thermalLoopEval
     let d := q { twork := 90, throttled := true, temps := warm 9000, calmUsec := 4 } .thermalLoopEval
     decide ((quad5 {}).plant.powerGood = true ∧ (quad5 {}).liveQuad 5 = true ∧
       (q {} (.rateSensorCompare 5 0xFF)).rate = 255 ∧ (a.throttled, a.twork) = (true, 89) ∧ (b.throttled, b.twork) = (true, 85) ∧
       (d.throttled, d.calmUsec) = (false, 0) ∧ (q { twork := 94, calmUsec := 10000000 } (.tworkRaise 5)).twork = 95 ∧
       (q { twork := 95, calmUsec := 10000000 } (.tworkRaise 5)).twork = 95 ∧
       (q { twork := 94, calmUsec := 9999999 } (.tworkRaise 5)).twork = 94)) = true := by decide +kernel
/-- RMIN 90, RMAX 160, VMAX 850 at reset. -/
theorem test_rail_steps :
    (let v := fun (x : Quadrant) => ((nextOf (exec .rateLoopEval (quad5 x))).quad 5).vrail
     let u := nextOf (exec .rateLoopEval (quad5 { rate := 89, throttled := true, vrail := 720, temps := warm 9600 }))
     decide ((quad5 {}).liveQuads = [5] ∧ (quad5 {}).capped = false ∧ v { rate := 90, vrail := 845 } = 850 ∧
       v { rate := 161, vrail := 555 } = 550 ∧ v { rate := 161, vrail := 550 } = 550 ∧
       v { rate := 160, vrail := 720 } = 720 ∧ v { rate := 100, vrail := 720, safetyCur := true } = 720 ∧
       v { rate := 100, vrail := 720, throttled := true, twork := 95, temps := warm 9501 } = 715 ∧ (u.quad 5).conflict = true ∧
       u.nemar.log.map (fun e => (e.code, e.w0, e.w1, e.w2, e.w3)) = [(rcPolicyConflict, 1, 5, 1, 6)] ∧
       ((nextOf (exec .rateLoopEval (quad5 { rate := 100, vrail := 720, conflict := true, conflictQuiet := 9 }))).quad 5).conflict = false)) = true := by
  decide +kernel
/-- 105.00 °C, 950 A and 700.0 A, and just below each. -/
theorem test_safety_limits :
    (let r := fun (t : BitVec 16) (i : BitVec 11) (n : BitVec 16) =>
       ({ quads := [⟨5, t, t, t, t, i⟩], dram := [], pin := 1, iin := n, vin := 2, cool := ⟨30, 30, 30, 30⟩ } : SensorReadings)
     let q := fun (x : Quadrant) (y : SensorReadings) => (nextOf (exec (.sensorSample y) { quad5 x with store := { cal := [(2 * 2 ^ 32 + 20, 0), (2 * 2 ^ 32 + 21, 0), (2 * 2 ^ 32 + 22, 0), (2 * 2 ^ 32 + 23, 0)] } })).quad 5
     let f := fun (x : Quadrant) => (x.safetyTemp, x.safetyCur, x.vrail, x.effRmax)
     decide (f (q { vrail := 850 } (r 10500 949 6999)) = (true, false, 750, 100) ∧
       f (q { vrail := 555 } (r 10499 950 7000)) = (false, true, 550, 99) ∧
       f (q { vrail := 600, safetyTemp := true } (r 10000 0 0)) = (false, false, 600, 100) ∧
       f (q { vrail := 600, phases := 20 } (r 0 800 0)) = (false, true, 590, 100))) = true := by decide +kernel
theorem test_stacks_and_coolant :
    (let k := fun (t : BitVec 16) => look (nextOf (exec (.stackOverheat 2 t) {})).plant.dram 2 {}
     let a := fun (r : CoolReadings) => let p := (nextOf (exec (.coolantAlarm r) {})).plant; (p.dieAlarm, p.pwrAlarm)
     decide (stackExists (State.grade {}) 2 = true ∧ ((k 9501).hot, (k 9501).failed) = (true, false) ∧ (k 9500).hot = false ∧
       (k 10501).failed = true ∧ (k 0xFF00).hot = false ∧
       a ⟨20, 55, 45, 60⟩ = (false, false) ∧ a ⟨41, 0, 20, 61⟩ = (true, true))) = true := by decide +kernel
/-- The minute turns; a suspended request does not age; a stopped reference counts nothing. -/
theorem test_ticks :
    (let g : Region := { reqValid := true, reqUsec := 7, state := .running }
     let s : State := { nemar := { usec := 59999999 }, regions := [(1, g), (2, { g with state := .saved })] }
     let t := nextOf (exec .usecTick s)
     let u : State := { plant := { edgeLost := #v[true, false, false, false] } }
     decide (t.nemar.usec = 60000000 ∧ (t.region 1).reqUsec = 8 ∧ (t.region 2).reqUsec = 7 ∧
       t.store.minutes = s.store.minutes + 1 ∧ (nextOf (exec .heartbeatTick s)).host.heartbeat = 1) &&
       isNext (exec .usecTick u) u) = true := by decide +kernel

/-! ## Lost cores, ebbs, harts -/

theorem test_probes :
    (let g : Region := { rect := 0x0, state := .running }
     let s := fun (k : Core) => ({ cores := [(0, k)], regions := [(1, g)], nemar := { auto := false }, plant := { quads := [(0, { powered := true })] } } : State)
     let w : Core := { running := true, probeMissed := true }
     let p := (s w).physOf 0
     let a := nextOf (exec (.probe 0 false) (s {}))
     let b := nextOf (exec (.probeRetry 0 true true) (s w))
     let t := nextOf (exec (.probeRetry 0 false false) (s w))
     decide ((s w).logOf p = some 0 ∧ (s w).reef 0 = false ∧ (s w).regionOf 0 = some 1 ∧ (a.core 0).probeMissed = true ∧
       (b.core 0).probeMissed = false ∧ b.nemar.log.map (fun e => (e.code, e.w0)) = [(rcTransient, 0x0C)] ∧
       p % 34 ∈ (t.row (p / 1088) (p % 1088 / 34)).faults ∧ (t.router p).pass = true ∧ (t.region 1).state = .lost ∧
       (t.region 1).void = [0] ∧ t.nemar.lasting = 1 ∧
       (t.nemar.log.filter (fun e => e.code == stCoreLost)).map (fun e => (e.w0, e.w1, e.w2)) = [(0, BitVec.ofNat 64 p, 4)])) = true := by
  decide +kernel
theorem test_self_check :
    (let t := nextOf (exec (.selfCheckReport 0 .ringStopped) {})
     let s : State := {}
     decide (s.regionOf 0 = none ∧ s.available 0 = true ∧ s.logOf (s.physOf 0) = some 0 ∧ t.nemar.fencedNow = [s.physOf 0] ∧
       (t.nemar.log.filter (fun e => e.code == stCoreLost)).map (fun e => e.w2) = [3])) = true := by decide +kernel
/-- A second fault in the row is mapped around, a third puts the row out. -/
theorem test_weak_core :
    (let s := fun (n : List Nat) =>
       ({ nemar := { sram := [(0, [0x400000007])], weak := [0] }, plant := { rows := [(0, { faults := n, inForce := n })] } } : State)
     let p := (s [20]).physOf 0
     let v := fun (n : List Nat) => (nextOf (exec (.weakCoreFence 0) (s n))).row 0 0
     decide (p / 1088 = coreDie 0 ∧ p % 1088 / 34 = coreRow 0 ∧ (s [20]).available 0 = true ∧ (s [20]).logOf p = some 0 ∧
       (s [20]).nemar.weak.contains p = true ∧ p % 34 ∈ (v [20]).inForce ∧ (v [20]).rowOut = false ∧ (s [20, 21]).logOf ((s [20, 21]).physOf 0) = some 0 ∧
       (v [20, 21]).rowOut = true ∧ (v [20, 21]).inForceOut = true)) = true := by decide +kernel
theorem test_pending_fault :
    (let s : State := { plant := { rows := [(3 * 32 + 2, { faults := [4, 9], inForce := [4] })] } }
     let t := nextOf (exec (.pendingFaultCommit 3 2) s)
     decide ([4, 9].filter (fun (c : Nat) => !([4] : List Nat).contains c) = [9] ∧
       (look t.plant.rows (3 * 32 + 2) {}).inForce = [4, 9] ∧ (look t.plant.rows (3 * 32 + 2) {}).faults = [4, 9])) = true := by
  decide +kernel
/-- 110.00 °C; a power-off 100 ms after the ebb began; a return after one second of cool. -/
theorem test_ebb_begins :
    (let s := quad5 { temps := warm 11000 }
     let t := nextOf (exec (.thermalEbb 5) s)
     decide (s.liveQuad 5 = true ∧ (s.quad 5).ebbs = true ∧ (quad5 { temps := warm 10999 } |>.quad 5).ebbs = false ∧ s.regionsIn 5 = [] ∧
       (t.quad 5).ebbing = true ∧ t.nemar.log.map (fun e => (e.code, e.w1, e.w2)) = [(stCoreLost, 5, 7)])) = true := by
  decide +kernel
theorem test_ebb_power_off :
    (let s := quad5 { ebbing := true }
     let s := { s with nemar := { usec := 100000 } }
     decide ((s.quad 5).ebbing = true ∧ s.ebbReady 5 = true ∧ s.regionsIn 5 = [] ∧ s.mesh.replan = none ∧ s.mesh.flits = [] ∧
       physQuad 1120 = 5)) = true := by decide +kernel
/-- Calibrated rates of quadrant 5 that meet 1.60 Gbeat/s at 0.72 V, the same at each temperature. -/
def cal5 : Table Word := (List.range 18).map (fun i => (0x100000000 + 90 + i, BitVec.ofNat 64 ([900, 1100, 1300, 1600, 1800, 2000].getD (i / 3) 0)))
theorem test_quadrant_returns :
    (let s : State := { plant := { quads := [(5, { ebbed := true, coolUsec := 1000000, phases := 18 })] }, store := { cal := cal5 } }
     let t := nextOf (exec (.quadrantReturn 5 { failed := [] }) s)
     decide (s.liveQuads = [] ∧ (t.quad 5).powered = true ∧ (t.quad 5).vrail = 720 ∧ (t.quad 5).twork = 95)) = true := by decide +kernel
/-- The first miss restarts; one within a second fences; the last primary hart halts the module. -/
theorem test_hart_watchdog :
    (let s : State := { nemar := { usec := 1999999 } }
     let u : State := { s with nemar := { s.nemar with harts := s.nemar.harts.set 2 (.restarted 1000000) } }
     let v : State := { u with nemar := { u.nemar with harts := #v[.fenced, .fenced, .restarted 1000000, .fenced, .running, .running, .running] } }
     let h := fun (x : State) => (nextOf (exec (.hartWatchdogExpire (.primary 2)) x) : State)
     let w : State := { u with nemar := { u.nemar with usec := 2000000 } }
     decide ((h s).nemar.harts[(2 : Nat)]? = some (.restarted 1999999) ∧ (h w).nemar.harts[(2 : Nat)]? = some (.restarted 2000000) ∧
       (h u).nemar.harts[(2 : Nat)]? = some .fenced ∧ (h u).host.state = u.host.state ∧ (h v).host.state = .halted ∧
       (h v).plant.alertHalt = true)) = true := by decide +kernel
/-- One µs before the millisecond into the re-plan. -/
theorem test_isolation_timeout :
    (let s : State := { nemar := { usec := 999 }, mesh := { replan := some { trigger := .routerFailed 5 } } }
     decide ((s.router 5).isolated = false ∧ (s.router 5).oldEmpty = false) &&
       isNext (exec (.routerIsolationTimeout 5) s) s) = true := by decide +kernel
/-- The twelfth brick stays a count, the thirteenth cuts the power; host memory is kept. -/
theorem test_power_failures :
    (let s := fun (n : Nat) => ({
       plant := { bricksFailed := n }, mem := [(8, 1), (0x100000000000, 2)]
       regions := [(1, {})], cores := [(0, {})] } : State)
     let t := nextOf (exec (.brickFail false) (s 12))
     let u := nextOf (exec (.brickFail false) (s 11))
     decide (t.plant.powerGood = false ∧ t.cores = [] ∧ t.regions = [] ∧ t.mem = [(0x100000000000, 2)] ∧
       u.plant.bricksFailed = 12 ∧ u.nemar.lasting = 1 ∧ u.plant.powerGood = true ∧
       (nextOf (exec .undervoltageStop (s 0))).plant.powerGood = false ∧
       (nextOf (exec .overvoltageStop (s 0))).mem = t.mem ∧ (nextOf (exec (.brickFail true) (s 0))).nemar.transient = 1)) = true := by
  decide +kernel
theorem test_phases_and_stacks :
    (let s : State := { plant := { edgePhases := #v[0, 1, 0, 0] } }
     let k := fun (f : StackFault) (x : Stack) =>
       (look (nextOf (exec (.stackFailure 0 f) { plant := { dram := [(0, x)] } })).plant.dram 0 {})
     decide (quadExists (State.grade {}) 63 = true ∧ ((nextOf (exec (.phaseFail 63 false) s)).quad 63).phases = 23 ∧
       ((nextOf (exec (.phaseFail 5 false) (quad5 { phases := 19 }))).quad 5).phases = 18 ∧
       (nextOf (exec (.edgePhaseFail 1 false) s)).plant.edgePhases[1] = 2 ∧
       (k .port {}).failed = true ∧ (k .onePhase {}).failed = false ∧ (k .onePhase { phaseLost := true }).failed = true ∧
       (k .bothPhases {}).failed = true)) = true := by decide +kernel
theorem test_lost_edge :
    (let s := fun (v : Vector Nat 4) => ({ plant := { edgePhases := v } } : State)
     let t := nextOf (exec (.edgePhaseFail 0 false) (s #v[2, 0, 0, 0]))
     let u := nextOf (exec (.edgePhaseFail 2 false) (s #v[0, 0, 2, 0]))
     decide (t.plant.edgeLost[0] = true ∧ t.host.state = .halted ∧ t.hartFenced 3 = true ∧ (t.cxl 0).up = false ∧
       u.plant.edgeLost[2] = true ∧ u.hartFenced 5 = true ∧ u.host.state = .firmware ∧ (u.cxl 1).up = false)) = true := by
  decide +kernel

/-! ## The Zoinnath fabric -/

/-- Node 1; port 3 is UP, and node 2 is reached by it. -/
def linked (x : ZPortState) : State := { fabric := {
  node := 1, routes := [(2, 0x8000000000000003)]
  ports := (Vector.replicate 32 ({} : ZPortState)).set 3 { x with state := .up8, lanes := 0xFF } } }
/-- From node 2 to node 1, of line 0x8_0000_0000: the first of stack 0. -/
def flit : Flit := ⟨0, 1, 2, 9, 0x800000000, 0, 0, 0, 0x77⟩
/-- A link-layer flit. -/
def linkFlit (aux : BitVec 32) : Flit := { Flit.zero with aux := aux }
/-- What port 3 has sent or is to send. -/
def outOf (t : State) : List (BitVec 4 × BitVec 32) :=
  ((t.zport 3).tx ++ (t.zport 3).replay).map (fun (k : KFlit) => (k.kind, k.f.aux))

/-- Before, at and past the SEQ expected, and to another node. -/
theorem test_flit_sequence :
    (let s := linked { rxSeq := 5 }
     let a := nextOf (exec (.wack 3 { flit with seq := 4 }) s)
     let b := nextOf (exec (.wack 3 { flit with seq := 5, dst := 7 }) s)
     decide ((s.zport 3).isUp = true ∧ (a.zport 3).sentLink = [(kindLack, 4)] ∧ (a.zport 3).rxSeq = 5 ∧
       (b.zport 3).rxSeq = 6 ∧ (b.zport 3).sentLink = [(kindLack, 5), (kindLcredit, 1)]) &&
       isNext (exec (.wack 3 { flit with seq := 6 }) s) s && isNext (exec (.wack 2 flit) s) s) = true := by decide +kernel
theorem test_read_write :
    (let s := { linked { credits := 4 } with mem := [(0x040000000000, 0xAB)] }
     let r := nextOf (exec (.read 3 flit) s)
     let w := nextOf (exec (.write 3 flit) s)
     let at_ := fun (g : MeshFlit) (x : TransitReq) => ({ s with mesh := { flits := [(4, g)], transits := [⟨0, x, [4]⟩] } } : State)
     let back : MeshFlit := { px := 2, py := 0, dx := 2, dy := 0, lane := false, epoch := false, kind := .edgeBack 0 0x040000000000, edge := true }
     let there : MeshFlit := { px := 0, py := 6, dx := 0, dy := 6, lane := false, epoch := false, kind := .edgeReq 0 0x040000000000 true }
     let a := at_ back (.read flit)
     let b := at_ there (.write flit)
     let r' := nextOf (exec (.flitHop 4 .clean) a)
     let w' := nextOf (exec (.flitHop 4 .clean) b)
     let n := { s with mesh := { maps := Vector.replicate 4 { out := List.range 16 } } }
     decide (s.whereIs 0x040000000000 = .mem 0x040000000000 ∧ s.whereIs 0x04000000007F = .mem 0x04000000007F ∧
       s.portFor 2 0 = some 3 ∧ s.edgeTarget 0x040000000000 = some 204 ∧ (s.mesh.maps[0]).point 0x800000000 = some 0 ∧
       outOf r = [] ∧ r.mesh.transits = [⟨0, .read flit, [0]⟩] ∧ (r.mesh.flits.map (fun x => (x.2.kind, x.2.px, x.2.fifo, x.2.dy))) =
         [(.edgeReq 0 0x040000000000 false, 2, true, 6)] ∧ w.mem = s.mem ∧
       a.yields 4 back = false ∧ ((a.router 2).choose back).1 = 5 ∧ isAttachment 2 = true ∧ r'.mesh.transits = [] ∧
       outOf r' = [(kindResp, 0)] ∧ (r'.zport 3).credits = 3 ∧
       ((r'.zport 3).replay.map (fun k => (k.f.data, k.f.tag, k.f.dst))) = [(0xAB, 9, 2)] ∧
       b.yields 4 there = false ∧ ((b.router 204).choose there).1 = 4 ∧ outOf w' = [(kindWack, 0)] ∧ w'.mem = [(0x040000000000, 0x77)] ∧
       outOf (nextOf (exec (.read 3 flit) n)) = [(kindErr, 2)] ∧ outOf (nextOf (exec (.read 3 { flit with addr := 0x20000000 }) s)) = [(kindErr, 1)] ∧
       outOf (nextOf (exec (.read 3 flit) { s with plant := { dram := [(0, { failed := true })] } })) = [(kindErr, 2)])) = true := by
  decide +kernel
theorem test_answers :
    (let s := linked {}
     let r : FabRead := { tag := 9, node := 2, line := 3, core := 0, gen := 1 }
     let w : FabWrite := { tag := 9, node := 2, line := 0, core := 0, gen := 1, tile := 4 }
     let u := { s with fabric := { s.fabric with reads := [r] } }
     let v := { s with fabric := { s.fabric with writes := [w] }, cores := [(0, ({} : Core).setGen 1 { openTiles := [4] })] }
     let f := nextOf (exec (.err 3 flit) u)
     let t := nextOf (exec (.resp 3 flit) u)
     let a := nextOf (exec (.wack 3 flit) v)
     let b := nextOf (exec (.err 3 flit) v)
     decide (t.fabric.reads = [] ∧ t.mem = [(2 ^ 60 + 2 * 2 ^ 48 + 384, 0x77)] ∧ f.fabric.reads = [{ r with failed := true }] ∧
       a.fabric.writes = [] ∧ ((a.core 0).gen 1).tilesDone = 1 ∧ ((a.core 0).gen 1).errs = 0 ∧ ((b.core 0).gen 1).errs = 1)) = true := by
  decide +kernel
/-- A LACK covers the flits up to its SEQ; a second failure of one SEQ retrains. -/
theorem test_link_flits :
    (let k := fun (n : BitVec 12) => (⟨kindRead, { flit with seq := n }⟩ : KFlit)
     let s := linked { replay := [k 4, k 5, k 6] }
     let p := fun (i : Instr) (u : State) => ((nextOf (exec i u)).zport 3 : ZPortState)
     let r := fun (i : Instr) (u : State) => ((p i u).state, (p i u).held, (p i u).lasting)
     decide ((p (.lcredit 3 (linkFlit 64)) s).credits = 64 ∧ (p (.lack 3 (linkFlit 5)) s).replay = [k 6] ∧
       (p (.lack 3 (linkFlit 7)) s).replay = [k 4, k 5, k 6] ∧ (p (.lnak 3 (linkFlit 5)) s).nakSeqs = [5] ∧
       r (.lnak 3 (linkFlit 5)) (linked { replay := [k 4, k 5, k 6], nakSeqs := [5] }) = (.training, true, 1) ∧
       (p (.flitCrcError 3 8) s).sentLink = [(kindLnak, 8)] ∧ (p (.flitCrcError 3 8) s).failedSeqs = [8] ∧
       r (.flitCrcError 3 8) (linked { failedSeqs := [8] }) = (.training, true, 1))) = true := by decide +kernel
/-- Port 3 set to PEER with port 4 of node 2. -/
theorem test_port_training :
    (let tr := fun (l : BitVec 8) (n : NodeId) => (⟨l, n, 4, 0, 0⟩ : PortTraining)
     let s := fun (h : Bool) => ({ fabric := { ports := (Vector.replicate 32 ({} : ZPortState)).set 3 {
         cfg := 0x0000000204000002, state := .training, held := h } } } : State)
     let p := fun (i : Instr) (h : Bool) => ((nextOf (exec i (s h))).zport 3 : ZPortState)
     let f := fun (x : ZPortState) => (x.state, x.lanes, x.sentLink.length, x.retrain)
     (decide (((s false).zport 3).farNode = 2 ∧ ((s false).zport 3).farPort = 4 ∧
       f (p (.zlPortUp 3 (tr 0xFF 2)) false) = (.up8, 0xFF, 1, 0) ∧
       f (p (.zlPortUp 3 (tr 0xF7 2)) false) = (.up4, 0xF0, 1, 0) ∧
       f (p (.zlPortUp 3 (tr 0xFF 5)) false) = (.mismatch, 0, 0, 0)) && decide (
       f (p (.zlPortUp 3 (tr 0x7E 2)) false) = (.down, 0, 0, 0) ∧
       f (p (.portRetrain 3 0x0F) true) = (.up4, 0x0F, 0, 1) ∧ (p (.portRetrain 3 0x77) true).state = .down))) = true := by
  decide +kernel
/-- MAXDEV is 4 at reset. -/
theorem test_equalisation :
    (let s := linked { conflict := [2], eqQuiet := [(2, 9)] }
     let t := nextOf (exec (.eqLoopEval 3 2 4) s)
     let u := nextOf (exec (.eqLoopEval 3 5 5) s)
     decide (look (t.zport 3).dev 2 0 = 4 ∧ (t.zport 3).conflict = [] ∧ (u.zport 3).conflict = [2, 5] ∧
       u.nemar.log.map (fun e => (e.code, e.w0, e.w1)) = [(rcPolicyConflict, 3, 29)] ∧
       (nextOf (exec (.eqLoopEval 3 2 5) s)).nemar.log = [])) = true := by decide +kernel
theorem test_fabric_set_timeout :
    (let s := fun (n : Nat) =>
       let u := linked {}
       { u with nemar := { usec := n, cmds := [flying 0x30 (words 0 0 0 0 0 0 0)] }, fabric := { u.fabric with fabricCmd := some (.tag 7, 1) } }
     let t := nextOf (exec .fabricTrainingTimeout (s 500001))
     decide (t.fabric.fabricCmd = none ∧ (t.command (.tag 7)).map (fun c => c.ended) = some true) &&
       isNext (exec .fabricTrainingTimeout (s 500000)) (s 500000)) = true := by decide +kernel

/-- Slot 5, folded here: two contributions of one line, written at the first line of stack 0. -/
def slot5 : PourSlotState := { w0 := 0xC000000000000002, w1 := 1, w2 := 0x0001040000000000 }
def pouring (x : PourSlotState) : State :=
  let s := linked { credits := 4 }
  { s with fabric := { s.fabric with pours := [(5, x)] } }
/-- κ 1's line, of element 0 1.0. -/
def pourFlit : Flit := { flit with tag := 5, addr := 0, aux := 1, data := 0x3F800000 }

/-- 2.0 + 1.0; a line of a slot not folded here is refused with cause 3; one without a part waits. -/
theorem test_pour_folds :
    (let a := nextOf (exec (.pour 3 pourFlit) (pouring slot5))
     let b := nextOf (exec (.pour 3 pourFlit) (pouring { slot5 with have_ := [(0, 0x40000000)] }))
     let d := nextOf (exec (.pour 3 pourFlit) (pouring {}))
     let e := nextOf (exec (.pcredit 3 { pourFlit with aux := 2 }) (pouring slot5))
     let u := pouring slot5
     let w := { u with fabric := { u.fabric with pours := [1, 5, 9, 13, 17].map (fun k => (k, { slot5 with part := k != 5 })) } }
     let g := nextOf (exec (.pour 3 pourFlit) w)
     decide (slot5.folds = true ∧ slot5.ncontrib = 2 ∧ slot5.lines = 1 ∧ (pouring slot5).reducerLost 5 = false ∧
       g.fabric.pourWait = [pourFlit] ∧ g.fabric.asking = [5] ∧ (g.pourSlot 5).have_ = [] ∧
       (a.pourSlot 5).have_ = [(1, 0x3F800000)] ∧ (a.pourSlot 5).state = 1 ∧ (a.pourSlot 5).startUsec = some 0 ∧
       b.mem = [(0x040000000002, 0x40), (0x040000000003, 0x40)] ∧ (b.pourSlot 5).rounds = 1 ∧ (b.core 0).pourDone = 1 ∧
       (d.pourSlot 5).refused = 1 ∧ outOf d = [(kindPnak, 3)] ∧ (e.pourSlot 5).cwin = 3)) = true := by decide +kernel
theorem test_pour_fails :
    (let u := pouring slot5
     let s := { u with fabric := { u.fabric with contribs := [{ core := 6, slot := 5, kappa := 1, src := 0, round := 0 }] } }
     let t := nextOf (exec (.pnak 3 { pourFlit with aux := 3 }) s)
     let q := fun (n : Nat) => { pouring { slot5 with state := 1, startUsec := some 7, have_ := [(1, 5)] } with nemar := { usec := n } }
     let v := nextOf (exec (.pourTimeout 5) (q 20007))
     decide (t.fabric.contribs = [] ∧ (t.core 6).pourFail = true ∧ t.nemar.log.map (fun e => (e.code, e.w0, e.w1)) = [(rcPourFail, 5, 1)] ∧
       (v.pourSlot 5).state = 2 ∧ (v.pourSlot 5).have_ = [] ∧ (v.pourSlot 5).fails = 1 ∧ (v.core 0).pourFail = true ∧
       v.nemar.log.map (fun e => (e.w0, e.w2)) = [(5, 0x5001)]) &&
       isNext (exec (.pourTimeout 5) (q 20006)) (q 20006)) = true := by decide +kernel
/-- Barrier 240 of the tree, with two children; an arrival, a release and a failure of its generation 0. -/
theorem test_barrier_messages :
    (let m : ModBarrier := { en := true, fbar := 0x8000000000000002 }
     let u := linked {}
     let s := { u with nemar := { bars := [(0, m)], barCounts := [{ inst := barKey 0 240, gen := 0, cores := [6] }] } }
     let msg := fun (n : Nat) => { flit with data := BitVec.ofNat 2048 (n + 240 * 256) }
     let a := nextOf (exec (.ctrl 3 (msg 1)) s)
     let b := nextOf (exec (.ctrl 3 (msg 2)) s)
     let d := nextOf (exec (.ctrl 3 (msg 3)) s)
     decide (m.onFabric = true ∧ m.children = 2 ∧ (a.modBar 0).childArr = [(0, [2])] ∧ (a.modBar 0).kids = [2] ∧
       (b.barCount 65776 0).released = true ∧ (b.modBar 0).gen = 1 ∧ (d.modBar 0).en = false)) = true := by decide +kernel
/-- This module alone re-shards: it drains, copies and commits; or a drain of 10 ms is past. -/
theorem test_reshard_steps :
    (let x : Reshard := { ref := .tag 7, epoch := 3, table := [(0, 0, 1)], drainMs := 10, startUsec := 5 }
     let s := fun (y : Reshard) => ({
       nemar := { usec := 10005, cmds := [flying 0x34 (words 0 0 0 0 0 0 0)] }
       fabric := { node := 1, reshard := some y, pours := [(4, { w0 := 0x8000000000000001 }), (5, { w0 := 0x8000000500000001 })] } } : State)
     let r := fun (i : Instr) (y : Reshard) => (nextOf (exec i (s y))).fabric.reshard.map (fun (z : Reshard) => (z.drained, z.copying))
     let t := nextOf (exec .commit (s { x with copying := true, copied := [0] }))
     decide ((s x).coordinates = true ∧ (s x).peerNodes = [] ∧ r (.drained 1) x = some ([1], true) ∧
       r .copy { x with reported := true } = some ([], true) ∧ t.fabric.layout = 3 ∧ (t.command (.tag 7)).map (fun c => c.ended) = some true ∧
       bit (t.pourSlot 4).w0 63 = false ∧ bit (t.pourSlot 5).w0 63 = true ∧ r .abandon x = none ∧
       r .reshardDrainTimeout x = none ∧ r .reshardDrainTimeout { x with drainMs := 11 } = some ([], false))) = true := by decide +kernel
theorem test_drained_waits :
    (let x : Reshard := { ref := .tag 7, epoch := 3, table := [(0, 0, 1)], drainMs := 10, startUsec := 5 }
     let u := linked { cfg := 0x0000000204000002 }
     let s := { u with fabric := { u.fabric with reshard := some x } }
     let t := nextOf (exec (.drained 2) s)
     decide (s.coordinates = true ∧ s.participants = [1, 2] ∧
       t.fabric.reshard.map (fun z => (z.drained, z.copying)) = some ([2], false))) = true := by decide +kernel
/-- The first of two entries of a table, eight bytes; and a shard whose digest is not that of its bytes. -/
theorem test_shard_copies :
    (let a := 0x0001040000000000
     let x : Reshard := { ref := .tag 7, epoch := 3, table := [(a, a + 8, 8), (a, a, 1)], drainMs := 10, startUsec := 5, copying := true }
     let u : State := { mem := [(0x040000000000, 7), (0x040000000008, 1)], nemar := { cmds := [flying 0x40 (words 0 0 0 0 0 0 0)] } }
     let s := { u with fabric := { node := 1, reshard := some x } }
     let t := nextOf (exec (.shardCopyComplete (.reshard 0) .confirmed) s)
     let c : Command := { flying 0x40 (words 0 0 0 0 0 0 0) with dropped := true }
     let z := { u with
       nemar := { cmds := [c] }, fabric := { node := 1 }
       store := { copies := [{ ref := .tag 7, restore := true, shards := [⟨a, a + 8, 1, []⟩] }], turns := Vector.replicate 4 [.tag 7] } }
     let v := nextOf (exec (.shardCopyComplete (.shard (.tag 7) 0) .confirmed) z)
     decide (t.mem = [(0x040000000000, 7), (0x040000000008, 7)] ∧ t.fabric.reshard.map (fun y => y.copied) = some [0] ∧
       v.store.copies = [] ∧ v.nemar.finished.map (fun g => g.status) = [0x7001])) = true := by decide +kernel

/-! ## Nemar commands -/

/-- A READY module with one command in flight, under tag 7 of ring 2. -/
def asked (op : BitVec 16) (args : Vector Word 12) : State := {
  host := { state := .ready, ports := #v[{ up := true }, {}] }, nemar := { cmds := [flying op args] } }
/-- The command under tag 7 is one that may act. -/
def takes (s : State) (op : Nat) : Bool := match s.command (.tag 7) with
  | some c => decide (c.sub.opcode.toNat = op ∧ c.begun = false ∧ c.ended = false ∧ s.atTurn c = true ∧ s.host.state ≠ .halted ∧
      s.argBad c.sub = none ∧ bufBad c.sub = none ∧ (bufMin c.sub = none ∨ s.bufUp c.sub = true))
  | none => false
/-- `takes` says what the statements assume. -/
theorem takes_accepts (s : State) (op : Nat) (h : takes s op = true) : ∃ c, s.accepts (.tag 7) op c := by
  unfold takes at h
  split at h
  · rename_i c e
    obtain ⟨h1, h2, h0, h3, h4, h5, h6, h7⟩ := of_decide_eq_true h
    exact ⟨c, e, h1, h2, h0, h3, h4, h5, h6, fun n => h7.resolve_left n⟩
  · cases h
/-- The one region, 1, of core 0 alone, changed. -/
def having (s : State) (g : Region) : State := { s with regions := [(1, g)] }
/-- Its region and its answer after a command. -/
def regionOf (i : Instr) (s : State) : Region := (nextOf (exec i s)).region 1
/-- What the one completion of command 7 says: status and RESULT1. -/
def saidOf (i : Instr) (s : State) : Nat × Nat :=
  let m := (nextOf (exec i s)).mem
  (ofBytes (getBytes m 0x100000000000 2), ofBytes (getBytes m 0x100000000010 8))

/-! A section image of one core. -/

theorem ofBytes_zeros (n : Nat) : ofBytes (List.replicate n 0#8) = 0 := by
  induction n with
  | zero => rfl
  | succ n ih => simp [List.replicate_succ, ofBytes, ih]

theorem numAt_zeros (m off n : Nat) : numAt (List.replicate m 0#8) off n = 0 := by
  simp [numAt, List.drop_replicate, List.take_replicate, ofBytes_zeros]

theorem readRegs_zeros (n m : Nat) : readRegs (n + 1) (List.replicate m 0#8) = some [] := by
  rw [readRegs]; simp only [numAt_zeros]; rfl

theorem words_zeros (m n : Nat) : (List.range n).filterMap (fun a =>
    let w := numAt (List.replicate m 0#8) (8 * a) 8
    if w = 0 then none else some (a, BitVec.ofNat 64 w)) = [] := by
  simp only [numAt_zeros, if_true]
  exact List.filterMap_eq_nil_iff.2 (fun _ _ => rfl)

theorem readRec_zeros (m : Nat) : readRec (List.replicate m 0#8) = some {} := by
  have h := readRegs_zeros 511 (m - 32768)
  have w := words_zeros m 4096
  rw [← List.drop_replicate] at h
  generalize hr : readRegs (511 + 1) ((List.replicate m 0#8).drop 32768) = r at h
  subst h
  unfold readRec
  rw [hr]
  dsimp only
  rw [w]
  simp

theorem find_below (m : Memory) (a : Nat) (h : ∀ e ∈ m, e.1 < a) : find? m a = none := by
  induction m with
  | nil => rfl
  | cons e t ih =>
    have h1 := h e (by simp)
    rw [find?, if_neg (Nat.ne_of_lt h1), ih (fun x hx => h x (by simp [hx]))]

theorem getBytes_zeros (m : Memory) (a n : Nat) (h : ∀ e ∈ m, e.1 < a) : getBytes m a n = List.replicate n 0#8 := by
  induction n generalizing a with
  | zero => rfl
  | succ n ih =>
    have : getByte m a = 0#8 := by rw [getByte, look, find_below m a h]; rfl
    rw [getBytes, List.replicate_succ, this, ih (a + 1) (fun e he => Nat.lt_succ_of_lt (h e he))]

theorem getBytes_split (m : Memory) (a i j : Nat) : getBytes m a (i + j) = getBytes m a i ++ getBytes m (a + i) j := by
  induction i generalizing a with
  | zero => simp [getBytes]
  | succ i ih =>
    rw [show i + 1 + j = (i + j) + 1 by omega, getBytes, ih, getBytes, List.cons_append, show a + 1 + i = a + (i + 1) by omega]

theorem getBytes_length (m : Memory) (a n : Nat) : (getBytes m a n).length = n := by
  induction n generalizing a with
  | zero => rfl
  | succ n ih => simp [getBytes, ih]

theorem rangeFrom_length (a n : Nat) : (rangeFrom a n).length = n := by
  simp [rangeFrom]

theorem bytes_read (s : State) (a n : Nat) : (s.readMem a n).map Prod.fst = getBytes s.mem a n := by
  rw [State.readMem, List.map_fst_zip]
  simp [getBytes_length, rangeFrom_length]

theorem clean_read (s : State) (a n : Nat) (h : s.marks = []) : anyBad (s.readMem a n) = false := by
  simp only [anyBad, State.readMem, List.any_eq_false]
  intro x hx
  have := (List.of_mem_zip hx).2
  simp [h, marked] at this
  simp [this.2]



def stack0 : Nat := 0x040000000000

/-- The header of an image of one core, section 0x1234, at the start of stack 0; its record is zeros. -/
def header : Memory := [0x54, 0x43, 0x45, 0x53, 1, 0, 0x34, 0x12, 1, 0, 1, 0, 1].zipIdx.filterMap (fun (e : Byte × Nat) =>
  if e.1 = 0 then none else some (stack0 + e.2, e.1))

def headBytes : List Byte := getBytes header stack0 128

theorem image_bytes (n : Nat) : getBytes header stack0 (128 + n) = headBytes ++ List.replicate n 0#8 := by
  rw [getBytes_split, getBytes_zeros _ (stack0 + 128) n (by decide)]; rfl

theorem all_zeros (n : Nat) : (List.replicate n 0#8).all (fun x => x == 0) = true := by simp

theorem tail_zeros (n k : Nat) : (headBytes ++ List.replicate n 0#8).drop (128 + k) = List.replicate (n - k) 0#8 := by
  have hl : headBytes.length = 128 := getBytes_length _ _ _
  rw [List.drop_append, List.drop_eq_nil_of_le (by omega), hl, List.nil_append, List.drop_replicate,
    Nat.add_sub_cancel_left]

theorem image_read (s : State) (hm : s.mem = header) (hk : s.marks = []) (ha : s.nemarAt stack0 = .mem stack0)
    (hw : s.whereIs stack0 = .mem stack0) (hp : s.poisonedAt stack0 = false) :
    s.readImage stack0 0 = ({
      sectionId := 0x1234, width := 1, height := 1, index := [0], recs := [{}], good := true
      digest := sha256 (headBytes ++ List.replicate 41088 0#8) } : Image) := by
  have r : ∀ n, partsOf stack0 n = [(stack0, n)] → s.nemarRead stack0 n = s.readMem stack0 n := by
    intro n h; simp [State.nemarRead, State.partRead, h, ha, hp]
  have q : ∀ n, partsOf stack0 n = [(stack0, n)] → s.nemarReads stack0 n = true := by
    intro n h; simp [State.nemarReads, h, ha]
  have z : ∀ n, partsOf stack0 n = [(stack0, n)] → s.poisonedPages stack0 n = false := by
    intro n h; simp [State.poisonedPages, h, hw]
  have p1 : partsOf stack0 128 = [(stack0, 128)] := by decide +kernel
  have p2 : partsOf stack0 41216 = [(stack0, 41216)] := by decide +kernel
  have h : (s.nemarRead stack0 128).map Prod.fst = headBytes := by rw [r _ p1, bytes_read, hm]; rfl
  have b : (s.nemarRead stack0 41216).map Prod.fst = headBytes ++ List.replicate 41088 0#8 := by
    rw [r _ p2, bytes_read, hm]; exact image_bytes 41088
  have h' : anyBad (s.nemarRead stack0 128) = false := by rw [r _ p1]; exact clean_read s _ _ hk
  have b' : anyBad (s.nemarRead stack0 41216) = false := by rw [r _ p2]; exact clean_read s _ _ hk
  have f : (numAt headBytes 0 4 == 0x53454354 && numAt headBytes 4 2 == 1 && numAt headBytes 8 2 == 1 &&
    numAt headBytes 10 2 == 1 && numAt headBytes 12 4 == 1 && (headBytes.drop 16).all (· == 0)) = true := by decide +kernel
  have n6 : numAt headBytes 6 2 = 0x1234 := by decide +kernel
  simp only [Bool.and_eq_true, beq_iff_eq] at f
  obtain ⟨⟨⟨⟨⟨f0, f1⟩, f2⟩, f3⟩, f4⟩, f5⟩ := f
  have hl : headBytes.length = 128 := getBytes_length _ _ _
  have w : rectX1 0 + 1 - rectX0 0 = 1 ∧ rectY1 0 + 1 - rectY0 0 = 1 := by decide
  unfold State.readImage
  simp only [h, h', w.1, w.2, f0, f1, f2, f3, f4, f5, q _ p1]
  have c : ceilDiv (2 * (1 * 1)) 128 * 128 = 128 := by decide
  rw [if_neg (by simp)]
  simp only [c]
  rw [show 128 + 128 + 40960 * 1 = 41216 from rfl, b, b', q _ p2, z _ p2, tail_zeros, n6]
  have i0 : numAt (headBytes ++ List.replicate 41088 0#8) (128 + 2 * 0) 2 = 0 := by
    rw [numAt, tail_zeros, List.take_replicate, ofBytes_zeros]
  have rr : readRecs 1 (List.replicate (41088 - 128) 0#8) = some [{}] := by
    rw [readRecs, List.take_replicate, readRec_zeros]; rfl
  rw [rr, show List.range (1 * 1) = [0] from rfl, tail_zeros, List.take_replicate]
  dsimp only [List.map]
  rw [i0, all_zeros]
  rfl

/-- A word out of range, a buffer too short, a host that cannot be reached. -/
theorem test_bad_commands :
    (let s := asked 0x07 (words 0 0 0 0 0 0 0)
     let b := asked 0x07 (words 256 0 0 0 0 0 0)
     let c : Command := { flying 0x07 (words 256 0 0 0 0 0 0) with sub := { opcode := 0x07, args := words 256 0 0 0 0 0 0, buf := 0x40, bufLen := 4095 } }
     let u : State := { asked 0x07 (words 1 0 0 0 0 0 0) with host := {} }
     let v : State := { b with nemar := { cmds := [c] } }
     decide (s.argBad (flying 0x07 (words 0 0 0 0 0 0 0)).sub = some 0 ∧ saidOf (.boundsSet (.tag 7)) s = (0x1002, 4) ∧
       takes b 0x07 = true ∧ v.argBad c.sub = none ∧ bufBad c.sub = some 3 ∧ saidOf (.boundsSet (.tag 7)) v = (0x1003, 3) ∧
       u.bufUp (flying 0x07 (words 1 0 0 0 0 0 0)).sub = false) &&
       isNext (exec (.boundsSet (.tag 7)) u) (u.finish (.tag 7) 0x100C 0 2)) = true := by decide +kernel
/-- At the last entry of a completion queue of sixteen the tail wraps and the phase turns. -/
theorem test_completion :
    (let s := asked 0x14 (words 0 0 0 0 0 0 0)
     let s := s.setRing 2 { s.ring 2 with cqLog2 := 4, cqTail := 15, inflight := 1 }
     let u := s.finish (.tag 7) 0x2001 5 6
     decide (s.hostUp = true ∧ u.command (.tag 7) = none ∧ getBytes u.mem 0x1000000001E0 8 = [1, 0x20, 7, 0x80, 0, 0, 2, 0] ∧
       getWord u.mem 0x1000000001E8 = 5 ∧ getWord u.mem 0x1000000001F0 = 6 ∧ (u.ring 2).cqTail = 0 ∧
       (u.ring 2).phase = false ∧ (u.ring 2).inflight = 0)) = true := by decide +kernel
theorem test_boot_completion :
    (let c : Command := { flying 0x01 (words 0 0 0 0 0 0 0) with ref := .boot }
     let s : State := { asked 0 (words 0 0 0 0 0 0 0) with host := { bootBusy := true }, nemar := { cmds := [c] } }
     let u := s.finish .boot 0x1002 5 6
     decide (s.command .boot = some c ∧ u.command .boot = none ∧ u.host.bootDone = true ∧ u.host.bootBusy = false ∧
       getByte u.host.boot 128 = 2 ∧ getByte u.host.boot 129 = 0x10 ∧ getWord u.host.boot 136 = 5)) = true := by decide +kernel
/-- Reports: of one record, of one register; a write of a saved seed. -/
theorem test_reports :
    (let e : LogRecord := ⟨4, 9, 0xE001, 0, true, false, 0, 0, 0xFF, 0xAB, 0, 0, 0⟩
     let l := asked 0x05 (words 4 0 0 0 0 0 0)
     let s := { l with nemar := { l.nemar with log := [e] } }
     let t := nextOf (exec (.logRead (.tag 7)) s)
     let r := asked 0x03 (words 0x080000000150 1 0 0 0 0 0)
     let w := { asked 0x04 (words 0x080000000150 1 0 0 0 0 0) with mem := [(0x100000004000, 0x33)] }
     decide (takes s 0x05 = true ∧ getByte t.mem (0x100000004000 + 32) = 0xAB ∧ takes r 0x03 = true ∧
       r.csrAbsent (csrTarget 0x080000000150) = false ∧ takes w 0x04 = true ∧
       (nextOf (exec (.csrWrite (.tag 7)) w)).nemar.rngSavedSeed = 0x33 ∧ takes (asked 0x01 (words 0 0 0 0 0 0 0)) 0x01 = true ∧
       takes (asked 0x02 (words 0 0 0 0 0 0 0)) 0x02 = true ∧ takes (asked 0x06 (words 0 0 0 0 0 0 0)) 0x06 = true ∧
       takes (asked 0x53 (words 0 0 0 0 0 0 0)) 0x53 = true)) = true := by decide +kernel
theorem test_region_commands :
    (let f := fun (op : BitVec 16) => asked op (words 1 0x10000 0 0 9 0 0)
     let g : Region := { state := .running, reqValid := true, reqTag := 9, shRect := 5 }
     let h := regionOf (.regionConfig (.tag 7)) (f 0x10)
     let s := { having (asked 0x16 (words 1 0 0 0 0 0 0)) g with cores := [(0, { running := true, sregs := [(1, 9)] })] }
     let t := nextOf (exec (.regionReset (.tag 7)) s)
     let q := asked 0x17 (words 1 0 0 0 0 0 0)
     decide (takes (f 0x10) 0x10 = true ∧ h.state = .staged ∧ h.shRect = 0x10000 ∧ h.rect = 0 ∧ h.shWdog = 9 ∧
       saidOf (.regionConfig (.tag 7)) (having (f 0x10) g) = (0x2003, 0x200010000) ∧ takes s 0x16 = true ∧
       (t.region 1).state = .staged ∧ (t.region 1).lastStatus = 0x3001 ∧ (t.core 0).running = false ∧ (t.core 0).sregs = [(1, 9)] ∧
       (saidOf (.regionReset (.tag 7)) (asked 0x16 (words 1 0 0 0 0 0 0))).1 = 0x2003 ∧ takes q 0x17 = true ∧
       (regionOf (.regionFree (.tag 7)) (having q { state := .staged })).state = .free ∧
       (saidOf (.regionFree (.tag 7)) (having q g)).1 = 0x2003)) = true := by decide +kernel

/-! ## Nemar commands that start long work, and the sets -/

/-- 64-bit words in memory from an address up. -/
def wordsAt (a : Nat) (ws : List Nat) : Memory := setBytes [] a (ws.flatMap (toBytes 8))
/-- The first byte of the buffer. -/
def bufAt : Nat := 0x100000004000

/-- REGION_ENABLE and SECTION_LOAD of region 1 from stack 0. -/
def enabling : State := { having (asked 0x11 (words 1 0x040000000000 0 0 0 0 0)) { state := .staged } with mem := header }
def loadingImage : State := { having (asked 0x12 (words 1 0x040000000000 0 0 0 0 0)) { state := .running } with mem := header }
theorem test_image_passes : enabling.enableCheck 1 (enabling.readImage stack0 0) = none ∧
    loadingImage.loadCheck 1 (loadingImage.readImage stack0 0) = none := by
  constructor
  · rw [image_read enabling rfl rfl (by decide +kernel) (by decide +kernel) (by decide +kernel)]; decide +kernel
  · rw [image_read loadingImage rfl rfl (by decide +kernel) (by decide +kernel) (by decide +kernel)]; decide +kernel
theorem test_enable_taken :
    (let g : Region := { state := .running, enabling := some (.tag 7) }
     let s := having (asked 0x11 (words 1 0x040000000000 0 0 0 0 0)) g
     decide (takes enabling 0x11 = true ∧ takes loadingImage 0x12 = true ∧ absentStackAt enabling.grade stack0 = none ∧
       enabling.nemarReads stack0 1 = true ∧ enabling.enablingBy (.tag 7) = none ∧ s.enablingBy (.tag 7) = some 1 ∧
       (regionOf (.regionEnable (.tag 7)) s).enabling = none)) = true := by decide +kernel
/-- A RUN of a RUNNING region and of a SLACK one, whose argument bytes end at the last byte of the slice. -/
theorem test_run :
    (let s := fun (g : RState) => having (asked 0x13 #v[0x0000000500000001, 0x3FFF80, 0xAB, 2, 3, 4, 5, 6, 7, 0xCD, 0, 0]) { state := g }
     let t := nextOf (exec (.run (.tag 7)) (s .slack))
     decide (takes (s .slack) 0x13 = true ∧ takes (s .running) 0x13 = true ∧ (t.region 1).state = .running ∧ (t.region 1).reqTag = 7 ∧
       (t.region 1).doneCount = 1 ∧ (t.region 1).limitMs = 5 ∧ getWord t.mem 0x3FFF80 = 0xAB ∧ getWord t.mem 0x3FFFB8 = 0xCD)) = true := by
  decide +kernel
/-- An ebb drain; a drain by a stop (DRAIN_MODE 1). -/
theorem test_drain :
    (let s := fun (c : Word) => { having (asked 0x14 (words 0x101 0 0 0 0 0 0)) { state := .running, ctrl := c } with cores := [(0, {})] }
     let t := nextOf (exec (.regionDrain (.tag 7)) (s 0))
     let u := nextOf (exec (.regionDrain (.tag 7)) (s 4))
     decide (takes (s 0) 0x14 = true ∧ ((s 0).region 1).oneDie = true ∧ (t.region 1).state = .ebbing ∧ (t.region 1).gate = false ∧
       (t.region 1).drain = some (.tag 7, true) ∧ ((s 4).core 0).stopped = false ∧ (u.region 1).state = .stopping ∧
       (u.core 0).stopping = true ∧ (u.region 1).resume = .running)) = true := by decide +kernel
/-- A saved region whose one image is there, its header as it was written, and one whose image is not. -/
def saved : State :=
  { having (asked 0x15 (words 1 0 0 0 0 0 0)) { state := .saved } with
    mem := (freeCells 0 0 0x1000).map (fun e => (stack0 + e.1, e.2))
    images := [(stack0, { core := 0, rect := 0, sectionId := 0, void := false, gate := true, bytes := 0, st := {} })] }
theorem header_written (f a n : Nat) : spanCells ((freeCells f 0 n).map (fun e => (a + e.1, e.2))) a n = freeCells f 0 n := by
  have h : ∀ e ∈ freeCells f 0 n, (decide (a ≤ a + e.1) && decide (a + e.1 < a + n)) = true := by
    intro e he
    have := freeCells_lt f 0 n e he
    simp; omega
  rw [spanCells, List.filter_map, List.map_map]
  rw [List.filter_eq_self.2 (by simpa using h)]
  conv => rhs; rw [← List.map_id (freeCells f 0 n)]
  exact List.map_congr_left (fun e _ => by simp)
theorem test_flood_passes : takes saved 0x15 = true ∧ saved.nemar.replacements = [] ∧ (saved.region 1).state = .saved ∧
    saved.floodCheck 1 = none := by
  refine ⟨by decide +kernel, rfl, rfl, ?_⟩
  have h : saved.headerIntact stack0 { core := 0, rect := 0, sectionId := 0, void := false, gate := true, bytes := 0, st := {} } = true := by
    unfold State.headerIntact
    rw [show saved.mem = (freeCells 0 0 0x1000).map (fun e => (stack0 + e.1, e.2)) by unfold saved; dsimp only, header_written]
    exact beq_self_eq_true _
  have p : saved.placeCheck 1 (saved.region 1).rect = none := by decide +kernel
  have m : saved.imageMismatch 1 = false := by
    unfold State.imageMismatch
    dsimp only
    rw [show rectCores (saved.region 1).rect = [0] by decide +kernel]
    simp only [List.any_cons, List.any_nil, show imageAddr (saved.region 1) 0 = stack0 by decide +kernel, show find? saved.images stack0 = some { core := 0, rect := 0, sectionId := 0, void := false, gate := true, bytes := 0, st := {} } from rfl, h]
    decide +kernel
  rw [State.floodCheck, p, m]
  rfl
theorem test_flood_mismatch :
    (let s := having (asked 0x15 (words 1 0 0 0 0 0 0)) { state := .saved }
     decide (takes s 0x15 = true ∧ (s.floodCheck 1).isSome = true ∧
       (regionOf (.regionFlood (.tag 7)) s).state = .saved)) = true := by decide +kernel
theorem test_replace :
    (let s := { having (asked 0x18 (words 1 0 0 0 0 0 0)) { state := .lost } with cores := [(0, {})] }
     let t := nextOf (exec (.replace (.tag 7)) s)
     decide (takes s 0x18 = true ∧ s.replaceFails 1 = none ∧ s.movedRegions (s.reefsOf 1) = [] ∧ (t.region 1).state = .stopping ∧
       (t.region 1).savePool = true ∧ t.nemar.replacements.map (fun x => x.cmds) = [[(1, .tag 7)]])) = true := by decide +kernel

/-- PLACE of page 9 at frame 0x200000 of tier 1, stack 0. -/
theorem test_place :
    (let s := asked 0x20 (words 9 1 0xA000000000200000 0 0 0 0)
     let t := nextOf (exec (.place (.tag 7)) s)
     let b := (flying 0x20 (words 9 1 0xA000000000200000 0 0 0 0)).sub
     decide (takes s 0x20 = true ∧ s.placeAbsent b 9 1 = none ∧ s.placeFails b 9 1 2 0 [] = none ∧ s.holders 9 = [] ∧
       (t.ptEntry 9).w0 = 0xA000000000200000 ∧ t.command (.tag 7) = none)) = true := by decide +kernel
/-- A grant, a withdrawal, and a withdrawal of a frame the pool does not hold. -/
theorem test_tier_pool :
    (let s := fun (a : Word) (p : NumSet) => { asked 0x21 (words a 0x200005 1 0 0 0 0) with tiers := { pool1 := p } }
     let t := fun (a : Word) (p : NumSet) => nextOf (exec (.tierPool (.tag 7)) (s a p))
     decide (takes (s 0x101 []) 0x21 = true ∧ (s 0x101 []).grantBad 1 0x200005 = false ∧
       (s 0x101 []).absentStack ⟨1, 0, 0x200005⟩ = none ∧ (t 0x101 []).tiers.pool1 = [0x200005] ∧
       (t 1 [0x200005]).tiers.pool1 = [] ∧ saidOf (.tierPool (.tag 7)) (s 1 []) = (0x2001, 0x21))) = true := by decide +kernel
/-- Windows of 16 pages from page 3, rising and falling; the last page is 18. -/
theorem test_steep_set :
    (let c : Word := 0x8000000100010000
     let a : Vector Word 12 := #v[1, 0x000010000003, c, 0x000010000003, c ||| 0x4000000000000000, 0, 0, 0, 0, 0, 0, 0]
     let s := asked 0x22 a
     let t := nextOf (exec (.steepSet (.tag 7)) s)
     decide (takes s 0x22 = true ∧ (List.range 4).all (fun w => !steepBad (a.toList.getD (1 + 2 * w) 0) (a.toList.getD (2 + 2 * w) 0)) = true ∧
       (t.region 1).steepFront.toList = [3, 18, 0, 0])) = true := by decide +kernel
/-- Page 9, poisoned, in stack 0; its copy in host memory, of which one byte is listed. -/
theorem test_page_restore :
    (let s := { asked 0x23 (words 9 0x040000400000 0 0 0 0 0) with tiers := { pt := [(9, { w0 := 0xA100000000200001 })] } }
     decide (takes s 0x23 = true ∧ s.nemarAt 0x040000400000 = .mem 0x040000400000 ∧ bit (s.ptEntry 9).w0 63 = true ∧
       bit (s.ptEntry 9).w0 55 = false ∧ s.placeOf (Location.ofWord (s.ptEntry 9).w0) = .mem 0x040000200000 ∧
       absentStackAt s.grade 0x040000400000 = none)) = true := by decide +kernel

/-- Quadrant 5's rate bounds: RMIN 90, RMAX 160 and VMAX 850, and a VMAX of 0. -/
theorem test_bounds_set :
    (let s := fun (v : Nat) => { asked 0x07 (words 1 0 0 0 0 0 0) with mem := wordsAt bufAt [0x080000001028, v] }
     let b := (flying 0x07 (words 1 0 0 0 0 0 0)).sub
     decide (takes (s 0) 0x07 = true ∧ ((s 0x0352A05A).boundPairs b 1).map (fun x => boundReg x.1) = [some (.qrate 5)] ∧
       BoundReg.bad (.qrate 5) 0x0352A05A = false ∧ BoundReg.bad (.qrate 5) 0 = true ∧
       ((nextOf (exec (.boundsSet (.tag 7)) (s 0x0352A05B))).quad 5).rateBounds = 0x0352A05B ∧
       saidOf (.boundsSet (.tag 7)) (s 0) = (0x2001, 0x50011))) = true := by decide +kernel
theorem test_spray_set :
    (let s := fun (m : Word) => asked 0x31 (words 3 m 0 0 0 0 0)
     let t := fun (m : Word) => (nextOf (exec (.spraySet (.tag 7)) (s m))).mesh.spray.toList
     decide (takes (s 1) 0x31 = true ∧ t 1 = [0x5555, 0x5555, 0x5555, 1] ∧ t 0x00FF = [0x5555, 0x5555, 0x5555, 0xFF] ∧
       saidOf (.spraySet (.tag 7)) (s 7) = (0x2001, 0x12))) = true := by decide +kernel
theorem test_barrier_set :
    (let s := having (asked 0x32 (words 255 2 0 0 0 0x8000000000000000 0)) { state := .running }
     let t := nextOf (exec (.barrierSet (.tag 7)) s)
     decide (takes s 0x32 = true ∧ s.barrierCheck 255 [2, 0, 0, 0] 0 = none ∧ (s.modBar 15).en = false ∧ (t.modBar 15).en = true ∧
       (t.modBar 15).set.toList = [2, 0, 0, 0])) = true := by decide +kernel
theorem test_router_arb :
    (let s := fun (w : Word) => { having (asked 0x35 (words 1 w 0 0 0 w 0)) { state := .running } with cores := [(0, {})] }
     let t := nextOf (exec (.routerArb (.tag 7)) (s 0xA33333333))
     decide (takes (s 0) 0x35 = true ∧ look (t.core 0).arbActive 20 0 = 0xA33333333 ∧ (t.region 1).arbWords.isSome = true ∧
       saidOf (.routerArb (.tag 7)) (s 0xB00000000) = (0x2001, 0x10015) ∧
       (saidOf (.routerArb (.tag 7)) (s 0xF00000000)).1 = 0x2001)) = true := by decide +kernel
theorem test_pour_set :
    (let s := asked 0x33 (words 5 0xC000000000000002 1 0x0000040000000000 20 0 0)
     let t := nextOf (exec (.pourSet (.tag 7)) s)
     decide (takes s 0x33 = true ∧ 5 < 256 * reducers s.grade ∧
       s.pourCheck 5 { s.pourSlot 5 with w0 := 0xC000000000000002, w1 := 1, w2 := 0x0000040000000000, w3 := 20 } = false ∧
       (t.pourSlot 5).w0 = 0xC000000000000002 ∧ (t.pourSlot 5).w3 = 20)) = true := by decide +kernel
/-- A command whose buffer holds n bytes. -/
def short (s : State) (n : Nat) : State :=
  { s with nemar := { s.nemar with cmds := s.nemar.cmds.map (fun c => { c with sub := { c.sub with bufLen := BitVec.ofNat 32 n } }) } }
theorem test_ckpt_copy :
    (let s := short { asked 0x40 (words 1 0 0 0 0 0 0) with mem := wordsAt bufAt [0x80, 0x1000, 0x80] } 64
     let t := nextOf (exec (.ckptCopy (.tag 7)) s)
     decide (takes s 0x40 = true ∧ t.store.copies.map (fun x => (x.restore, x.shards.map (fun y => (y.src, y.dst, y.len)))) =
       [(true, [(0x80, 0x1000, 0x80)])])) = true := by decide +kernel
theorem test_reshard :
    (let w := fun (d : Nat) => short { asked 0x34 (words 1 10 0 0 0 0 0) with mem := wordsAt bufAt [0x040000000000, d, 0x80] } 32
     let s := fun (d : Nat) (x : Option Reshard) => { w d with fabric := { reshard := x, pours := [(4, { state := 1 })] } }
     let t := nextOf (exec (.reshard (.tag 7)) (s 0x040000001000 none))
     decide (takes (s 0x040000001000 none) 0x34 = true ∧ (s 0x040000001000 none).tableBad [(0x040000000000, 0x040000001000, 0x80)] = false ∧
       (s 0x040000001000 none).poursDrained = false ∧ t.fabric.reshard.map (fun x => (x.epoch, x.drainMs)) = some (1, 10) ∧
       saidOf (.reshard (.tag 7)) (s 0x040000000000 none) = (0x2001, 0x19) ∧
       saidOf (.reshard (.tag 7)) (s 0x040000001000 (some { ref := .boot, epoch := 1, table := [], drainMs := 1, startUsec := 0 })) = (0x5004, 0))) = true := by
  decide +kernel

/-- FABRIC_SET with port 3 a PEER of node 2, or of MODE 3. -/
def setting (m : Nat) : State :=
  { asked 0x30 (words 0 0 0 0 0 0 0) with mem := wordsAt (bufAt + 24) [m * 0x100000000 + 2], host := { state := .ready, ports := #v[{ up := true }, {}] } }
theorem setting_word (m off : Nat) (hm : ∀ e ∈ (setting m).mem, e.1 < bufAt + 32) (h : 32 ≤ off) (ho : off < 2 ^ 20) :
    (setting m).bufWord (flying 0x30 (words 0 0 0 0 0 0 0)).sub off = 0 := by
  have k : getBytes (setting m).mem (bufAt + off) 8 = List.replicate 8 0#8 :=
    getBytes_zeros _ _ _ (fun e he => Nat.lt_of_lt_of_le (hm e he) (by omega))
  have e : (setting m).bufRead (flying 0x30 (words 0 0 0 0 0 0 0)).sub off 8 = getBytes (setting m).mem (bufAt + off) 8 := by
    have b : Nat.min 8 (2 ^ 44 - (0x4000 + off)) = 8 := by simp only [Nat.min_def]; split <;> omega
    have i : hostKey (0x4000 + off) = bufAt + off := by
      rw [hostKey, Nat.mod_eq_of_lt (by omega), if_pos (by omega)]; simp only [hostBase, bufAt]; omega
    show getBytes (setting m).mem (hostKey (0x4000 + off)) (Nat.min 8 (2 ^ 44 - (0x4000 + off))) ++
      getBytes (setting m).mem (hostKey (0x4000 + off + Nat.min 8 (2 ^ 44 - (0x4000 + off)))) (8 - Nat.min 8 (2 ^ 44 - (0x4000 + off))) = _
    rw [b, i, Nat.sub_self, getBytes, List.append_nil]
  rw [State.bufWord, e, k, ofBytes_zeros]
  rfl
theorem setting_routes (m : Nat) (hm : ∀ e ∈ (setting m).mem, e.1 < bufAt + 32) :
    ((setting m).readFabric (flying 0x30 (words 0 0 0 0 0 0 0)).sub).routes = [] := by
  unfold State.readFabric
  dsimp only
  rw [List.filter_eq_nil_iff]
  intro e he
  obtain ⟨n, hn, rfl⟩ := List.mem_map.1 he
  have := List.mem_range.1 hn
  rw [setting_word m (264 + 8 * n) hm (by omega) (by omega)]
  simp
theorem test_fabric_set :
    takes (setting 2) 0x30 = true ∧ (setting 2).fabric.fabricCmd = none ∧
    ((setting 2).readFabric (flying 0x30 (words 0 0 0 0 0 0 0)).sub).bad = none ∧
    ((setting 3).readFabric (flying 0x30 (words 0 0 0 0 0 0 0)).sub).bad = some 3 ∧
    fld (((setting 2).readFabric (flying 0x30 (words 0 0 0 0 0 0 0)).sub).ports.getD 3 0) 32 2 = 2 ∧
    (setting 2).plant.edgeLost[3 / 8]? = some false := by
  refine ⟨by decide +kernel, rfl, ?_, by decide +kernel, by decide +kernel, rfl⟩
  have h := setting_routes 2 (by decide +kernel)
  have m : (List.range 32).find? (fun p => fld (((setting 2).readFabric (flying 0x30 (words 0 0 0 0 0 0 0)).sub).ports.getD p 0) 32 2 == 3) = none := by
    decide +kernel
  unfold FabricSet.bad
  simp only [m, h]
  rfl

/-! ## The store's commands -/

/-- Slot 0 is loaded; a buffer that is no image makes slot 1 BAD. -/
theorem test_fw_stage :
    (let s := fun (i : Word) => short (asked 0x50 (words i 0 0 0 0 0 0)) 1
     let t := nextOf (exec (.fwStage (.tag 7)) (s 1))
     decide (takes (s 1) 0x50 = true ∧ saidOf (.fwStage (.tag 7)) (s 0) = (0x8002, 0) ∧ saidOf (.fwStage (.tag 7)) (s 1) = (0x8001, 1) ∧
       t.store.slots.toList.map (fun x => x.state) = [1, 2, 0, 0])) = true := by decide +kernel
theorem test_fw_activate :
    (let s := fun (i : Word) => { asked 0x51 (words i 0 0 0 0 0 0) with store := { slots := #v[{ state := 1 }, {}, {}, { state := 1 }] } }
     let t := nextOf (exec (.fwActivate (.tag 7)) (s 3))
     decide (takes (s 3) 0x51 = true ∧ saidOf (.fwActivate (.tag 7)) (s 1) = (0x8002, 1) ∧ t.store.active = 3 ∧ t.store.fallback = 0 ∧
       t.store.loaded = 0)) = true := by decide +kernel
/-- Sensor 21's offset, −10.00 °C. -/
theorem test_cal_import :
    (let s := short { asked 0x54 (words 0 0 0 0 0 0 0) with mem := wordsAt bufAt [0x1500000002, 0xFC18] } 16
     let b := (flying 0x54 (words 0 0 0 0 0 0 0)).sub
     let t := nextOf (exec (.calImport (.tag 7)) s)
     decide (takes s 0x54 = true ∧ calEntry (s.bufWord b 0) (s.bufWord b 8) = (2, 21, 0xFC18, false) ∧ calAbsent s.grade 2 21 = none ∧
       t.calValue 2 21 = 0xFC18)) = true := by decide +kernel
/-- The last index of the key, and none left. -/
theorem test_attest :
    (let s := fun (i : Nat) => { asked 0x52 (words 0 0 0 0 0 0 0) with store := { sigIdx := i } }
     let t := nextOf (exec (.attest (.tag 7)) (s 33554431))
     decide (takes (s 0) 0x52 = true ∧ t.store.sigIdx = 33554432 ∧ t.store.attest.map (fun x => x.2.1) = some 33554431 ∧
       saidOf (.attest (.tag 7)) (s 33554432) = (0x8003, 0))) = true := by decide +kernel

/-! ## The host interface -/

/-- Ring 3 of sixteen entries each way, enabled. -/
def ringing (r : Ring) : State :=
  let s := asked 0 (words 0 0 0 0 0 0 0)
  { s with nemar := {} }.setRing 3 { r with en := true, sqLog2 := 4, cqLog2 := 4 }
theorem test_doorbells :
    (let s := ringing { cqUsed := 16, cqHead := 5 }
     let r := fun (i : Instr) => ((nextOf (exec i s)).ring 3 : Ring)
     let d := fun (i : Instr) (u : State) => ((nextOf (exec i u)).host.errDbell : BitVec 16)
     let b := { s with host := { s.host with bootBusy := true } }
     decide ((r (.sqTailDoorbell 3 15)).sqTail = 15 ∧ (r (.sqTailDoorbell 3 15)).sqAck = 15 ∧ d (.sqTailDoorbell 3 16) s = 1 ∧
       (r (.cqHeadDoorbell 3 4)).cqUsed = 1 ∧ (r (.cqHeadDoorbell 3 5)).cqUsed = 0 ∧ d (.cqHeadDoorbell 3 7) (ringing { cqUsed := 1, cqHead := 5 }) = 1 ∧
       d (.sqTailDoorbell 2 0) s = 1 ∧ d (.bootDoorbell 1) b = 1 ∧ (nextOf (exec (.bootDoorbell 1) s)).host.bootDone = true) &&
       isNext (exec (.bootDoorbell 0xFE) s) s) = true := by decide +kernel
/-- Sizes of 16 and 4,096 entries; a size of 8 is refused with RING_CFG. -/
theorem test_ring_enable :
    (let s := asked 0x11 (words 0 0 0 0 0 0 0)
     let r := fun (v : Word) => ((nextOf (exec (.ringEnable 3 v) s)).ring 3 : Ring)
     decide ((r 0x80C4000000000000).en = true ∧ (r 0x80C4000000000000).phase = true ∧ (r 0x8034000000000000).en = false ∧
       (r 0x8034000000000000).err = 0x1A ∧ ((nextOf (exec (.ringStop 3 0x0044000000000000) (ringing {}))).ring 3).en = false)) = true := by
  decide +kernel
theorem test_ring_reset :
    (let s := { (asked 0x13 (words 0 0 0 0 0 0 0)).setRing 2 { en := true, inflight := 1, owed := 2, sqTail := 3, sqHead := 1 } with pending := [] }
     let t := nextOf (exec .ringReset s)
     decide ((t.ring 2).en = false ∧ (t.ring 2).inflight = 0 ∧ (t.ring 2).sqTail = 1 ∧ (t.ring 2).droppedCount = 2 ∧
       (t.command (.tag 7)).map (fun c => c.dropped) = some true)) = true := by decide +kernel
theorem test_int_delay :
    (let s := fun (n : Nat) => { ringing { unsig := 2, unsigUsec := 5, intDelay := 10 } with nemar := { usec := n } }
     let t := nextOf (exec (.intDelayExpire 3) (s 15))
     decide ((t.ring 3).unsig = 0 ∧ t.host.irqs = [3]) && isNext (exec (.intDelayExpire 3) (s 14)) (s 14)) = true := by decide +kernel
/-- A RUN under tag 7 is fetched, and one whose tag is in flight. -/
theorem test_fetch :
    (let s := { ringing { sqHead := 15, sqTail := 0 } with mem := wordsAt (0x100000000000 + 128 * 15) [0x00070013] }
     let t := nextOf (exec (.submissionFetch 3) s)
     let v := { s with nemar := { cmds := [flying 0x13 (words 0 0 0 0 0 0 0)] } }
     let u := nextOf (exec (.submissionFetch 3) v)
     decide (s.mayFetch 3 = true ∧ (s.headSubmission 3).tag = 7 ∧ s.tagBusy 7 = false ∧ (t.ring 3).sqHead = 0 ∧ (t.ring 3).inflight = 1 ∧
       (t.ring 3).owed = 2 ∧ t.nemar.cmds.map (fun c => (c.ref, c.ring)) = [(.tag 7, 3)] ∧ v.tagBusy 7 = true ∧
       u.host.errTagdup = 1 ∧ getByte u.mem 0x100000000000 = 6 ∧ (u.ring 3).cqUsed = 1) &&
       isNext (exec (.submissionFetch 2) s) s) = true := by decide +kernel
/-- RUN in MGMT, an opcode of no command, a header with a bit that must be zero. -/
theorem test_checks :
    (let b : Submission := { opcode := 0x13, tag := 7 }
     let s := fun (h : HState) => ({ host := { state := h, ports := #v[{ up := true }, {}] } } : State)
     let said := fun (h : HState) (x : Submission) => (ofBytes (getBytes ((s h).checkIn x (.tag 7) 3).mem 0x100000000000 2) : Nat)
     decide (HState.permits .mgmt 0x13 = false ∧ isKnownOp 0x13 = true ∧ isKnownOp 0x60 = false ∧ said .mgmt b = 0x1004 ∧
       said .ready { b with opcode := 0x60 } = 0x1001 ∧ said .ready { b with zero0 := false } = 0x1002 ∧
       said .ready { b with zero3 := false } = 0x1002 ∧ said .ready { b with inline := true } = 0x1002 ∧
       ((s .ready).checkIn b (.tag 7) 3).nemar.cmds.map (fun c => c.ref) = [.tag 7])) = true := by decide +kernel
theorem test_register_writes :
    (let s := ringing {}
     let t := fun (o : BitVec 17) (n : BitVec 4) (v : Word) => (nextOf (exec (.registerWrite o n (some v)) s) : State)
     decide ((t 0x1004 8 5).host.errAlign = 1 ∧ (t 0 4 5).host.errAlign = 1 ∧ getWord (t 0xFF8 8 0x77).host.boot 0xFF8 = 0x77 ∧
       ((t 0x2030 8 15).ring 3).sqTail = 15 ∧ ((t 0x11D0 8 0).ring 3).en = false ∧ ((t 0x1180 8 0x1FFF).ring 2).sqBase = 0x1000 ∧
       (t 0x10018 8 1).host.hwinEn = true ∧ ((t 0x10018 8 2).ring 3).en = false ∧ ((t 0x2038 8 0).ring 3).cqHead = 0) &&
       isNext (exec (.registerWrite 0x10000 8 (some 5)) s) s &&
       decide ((nextOf (exec (.registerWrite 0x1000 8 none) s)).host.bar0Answer = 0 ∧ (nextOf (exec (.registerWrite 0x11D4 8 none) s)).host.bar0Answer = 0xFFFFFFFFFFFFFFFF)) = true := by decide +kernel
/-- A line of the host window is reached at the edge die itself. -/
theorem test_read_host :
    (let u := linked { credits := 4 }
     let s : State := { u with mem := [(0x100000000000, 0xAB)], host := { state := .ready, hwinEn := true, ports := #v[{ up := true }, {}] } }
     let f := { flit with addr := 0x2000000000 }
     decide (s.whereIs 0x100000000000 = .mem 0x100000000000 ∧ s.edgeTarget 0x100000000000 = none ∧
       outOf (nextOf (exec (.read 3 f) s)) = [(kindResp, 0)] ∧ (nextOf (exec (.write 3 f) s)).mem = [(0x100000000000, 0x77)])) = true := by
  decide +kernel
/-- Half 0 of stack 0; half 5 holds the placement table. -/
theorem test_hdm :
    (let s := { asked 0 (words 0 0 0 0 0 0 0) with mem := [(0x04000000003F, 9)] }
     let h := fun (n : BitVec 6) => ((nextOf (exec .hdmDecoderCommit { s with host := { s.host with hdmHalf := n } })).host : HostIf)
     let m := { s with host := { s.host with hdmValid := true } }
     let f := { m with plant := { dram := [(0, { failed := true })] } }
     let q := nextOf (exec (.hdmAccess 0x3F none false) m)
     let at_ := fun (g : MeshFlit) (w : Option (BitVec 512)) =>
       ({ m with mesh := { flits := [(4, g)], transits := [⟨0, .hdm 0x040000000000 w false, [4]⟩] } } : State)
     let back : MeshFlit := { px := 2, py := 0, dx := 2, dy := 0, lane := false, epoch := false, kind := .edgeBack 0 0x040000000000, edge := true }
     let there : MeshFlit := { px := 0, py := 6, dx := 0, dy := 6, lane := false, epoch := false, kind := .edgeReq 0 0x040000000000 true }
     let r := nextOf (exec (.flitHop 4 .clean) (at_ back none))
     let w := nextOf (exec (.flitHop 4 .clean) (at_ there (some 1)))
     let n := { m with mesh := { maps := Vector.replicate 4 { out := List.range 16 } } }
     decide ((h 0).hdmValid = true ∧ (h 5).hdmError = true ∧ (h 5).hdmValid = false ∧ m.stackUp 0 = true ∧ f.stackUp 0 = false ∧
       q.mesh.transits = [⟨0, .hdm 0x040000000000 none false, [0]⟩] ∧
       r.host.hdmAnswer = some (BitVec.ofNat 512 (9 * 2 ^ 504), false) ∧ w.mem = [(0x040000000000, 1)] ∧
       (nextOf (exec (.hdmAccess 0 none false) n)).host.errHdmPois = 1 ∧ (r.host.snoop[0]?).map (fun l => l.contains (0x040000000000 / 64)) = some true ∧
       (nextOf (exec (.hdmAccess 0 none false) f)).host.errHdmPois = 1 ∧ (nextOf (exec (.hdmAccess 0 (some 1) false) f)).mem = f.mem ∧
       (nextOf (exec (.hostSnoop 0x40) s)).host.rspI = 1) && isNext (exec (.hdmAccess 0 none false) s) s) = true := by decide +kernel
theorem test_cxl_ports :
    (let s := fun (x : CxlPort) => ({ host := { ports := #v[x, {}] } } : State)
     let p := fun (i : Instr) (x : CxlPort) => ((nextOf (exec i (s x))).cxl 0 : CxlPort)
     let u := nextOf (exec (.cxlPortUp 0 6 4 0x123) { s {} with host := { heldIrqs := [3] } })
     let d := fun (m : DoeMessage) (x : CxlPort) => x.doeAnswer 0 m
     decide ((p (.cxlPortDown 0) { up := true, speed := 6 }).up = false ∧ (p (.ideFailure 0) { up := true, io := { keys := true, secure := true } }).ideFailed = true ∧
       (p (.ideFailure 0) { up := true, io := { keys := true, secure := true } }).io = { lost := true } ∧
       (u.cxl 0).up = true ∧ (u.cxl 0).width = 4 ∧ (nextOf (exec (.cxlPortUp 0 6 5 0) (s {}))).cxl 0 = {} ∧ u.host.irqs.contains 3 = true ∧ u.host.heldIrqs = [] ∧
       (d (.ideKeyProgram .io) {}).2 = .unexpectedRequest ∧ (d (.ideKeyProgram .io) { session := true }).2 = .keysProgrammed .io ∧
       (d (.ideKeyProgram .io) { session := true, ideFailed := true, io := { lost := true } }).1.ideFailed = false ∧
       (d (.ideKeyProgram .io) { session := true, ideFailed := true, cachemem := { lost := true } }).1.ideFailed = true ∧
       (d (.ideSetSecure .cachemem true) { session := true }).2 = .unexpectedRequest ∧
       (d (.ideSetSecure .cachemem true) { session := true, cachemem := { keys := true } }).1.cachemem = ⟨true, true, true, false⟩ ∧
       (d .spdmVersion { spdm := 3, kex := true }).1 = { spdm := 1 } ∧ (d .spdmCapabilities {}).2 = .unexpectedRequest ∧
       (d .spdmCapabilities { spdm := 1 }).1.spdm = 2 ∧ (d .spdmAlgorithms { spdm := 2 }).1.spdm = 3 ∧
       (d .spdmKeyExchange { spdm := 3 }).1.kex = true ∧ (d .spdmFinish { kex := true }).1.session = true ∧
       (d .spdmFinish {}).2 = .unexpectedRequest ∧ (d .spdmUnsupported { spdm := 3 }).2 = .unsupportedRequest ∧
       (p (.doeRequest 0 .spdmUnsupported) { up := true }).doe = [(.spdmUnsupported, .unsupportedRequest)])) = true := by decide +kernel

/-! ## Register actions -/

theorem test_counters :
    (let s := oneCore { stallTotal := 5, freeze := true, sregs := [(1, 2)] }
     let t := nextOf (exec (.clear 0) s)
     decide ((t.core 0).stallTotal = 0 ∧ (t.core 0).sregs = [(1, 2)] ∧ (t.core 0).freeze = true ∧
       ((nextOf (exec (.freeze 0 false) s)).core 0).freeze = false)) = true := by decide +kernel
/-- STARVE 10 is the last allowed, 11 is refused with ARB_RANGE. -/
theorem test_arb_commit :
    (let t := fun (n : Word) => ((nextOf (exec (.arbCommit 0) (oneCore { arbShadow := [(4, n * 0x100000000)] }))).core 0 : Core)
     decide (look (t 10).arbActive 4 0 = 0xA00000000 ∧ (t 10).arbCommits = 1 ∧ (t 11).arbRefused = true ∧ (t 11).arbReason = 0x15 ∧
       (t 11).arbActive = [])) = true := by decide +kernel
/-- The saved place lies one value before the derived one. -/
theorem test_generator_check :
    (let t := nextOf (exec .go { nemar := { rngSaved := 0x1FFFF, rngDerived := 0x20000 } })
     let u := nextOf (exec .go { nemar := { rngSaved := 0x0003000000000001, rngDerived := 0x0002000000000001, rngSavedSeed := 1 } })
     decide (bit t.nemar.rngChk 1 = true ∧ bit t.nemar.rngChk 3 = false ∧ bit t.nemar.rngChk 2 = true ∧
       t.nemar.log.map (fun e => (e.code, e.w0, e.w1)) = [(0xE003, 0x1FFFF, 0x20000)] ∧ bit u.nemar.rngChk 3 = true)) = true := by
  decide +kernel
/-- κ 0 of slot 5 begins, and its second round after it; κ 2 of two is refused. -/
theorem test_core_pour :
    (let s := { oneCore {} with fabric := { pours := [(5, slot5)] } }
     let v := fun (k : Word) => (5 * 2 ^ 53 ||| k * 2 ^ 41 ||| 0x3 : Word)
     let t := nextOf (exec (.corePour 0 (v 0)) s)
     let u := nextOf (exec (.corePour 0 (v 2)) s)
     decide (s.pourRefused 0 (v 0) = false ∧ t.fabric.contribs.map (fun x => (x.slot, x.kappa, x.src, x.round)) = [(5, 0, 3, 0)] ∧
       (u.core 0).pourFail = true ∧ u.fabric.contribs = [] ∧ fld slot5.w0 0 13 = 2)) = true := by decide +kernel

/-! ## Bring-up, the store, the queue -/

def report : BootReport := { failed := [], routers := [], slow := [], diesOut := [], cxlUp := [0] }
theorem test_power_on :
    (let s : State := { plant := { powerGood := false }, store := { sigNext := 4, sigIdx := 2 } }
     let t := nextOf (exec .powerOn s)
     decide (t.plant.powerGood = true ∧ t.plant.bootStep = 0 ∧ t.store.sigIdx = 4 ∧ t.store.powerOns = 1) &&
       isNext (exec .powerOn {}) {} && isNext (exec (.bringUp report) s) s) = true := by decide +kernel
/-- The records of slots and of BOOTSEL that a journal holds. -/
def bootJournal (a f : Word) (v : List FwSlot) : List JournalRecord :=
  v.mapIdx (fun i x => ⟨i, 3, i, x.words⟩) ++ [⟨4, 4, 0, [a + 16 * f, 0]⟩, ⟨5, 5, 0, [7, 0]⟩]
/-- A module whose ROM is to mount them; every slot holds an image that verifies. -/
def booting (a f : Word) (v : List FwSlot) : State :=
  { plant := { bootStep := 0 }, store := { journal := bootJournal a f v, jseq := 6, slots := Vector.replicate 4 { factory := true } } }
/-- The ROM loads ACTIVE, whatever its record says, FALLBACK, or the newest VALID slot; a slot that fails is BAD. -/
theorem test_rom :
    (let t := fun (r : BootReport) (a f : Word) (v : List FwSlot) =>
       (let u := nextOf (exec (.bringUp r) (booting a f v)); (u.store.loaded, u.plant.bootStep) : BitVec 4 × Nat)
     let x : FwSlot := { state := 1 }
     let vs : List FwSlot := [x, {}, { x with version := 2 }, { x with version := 1 }]
     let bad := fun (l : List (BitVec 2)) => { report with spoilt := l }
     decide (t report 3 0 vs = (3, 1) ∧ t report 1 0 vs = (1, 1) ∧ t (bad [1]) 1 3 vs = (3, 1) ∧ t (bad [1, 0]) 1 0 vs = (2, 1) ∧
       (t (bad [0, 1, 2, 3]) 1 1 vs).2 = 0 ∧ (t { report with badHalves := [0] } 3 0 vs).2 = 0 ∧
       (t { report with badRecord := some 4 } 3 0 vs) = (0, 1) ∧
       (nextOf (exec (.bringUp report) (booting 3 0 vs))).store.sigIdx = 7)) = true := by
  decide +kernel
theorem test_bring_up :
    (let t := fun (n : Nat) (r : BootReport) => (nextOf (exec (.bringUp r) { plant := { bootStep := n } }) : State)

     decide ((t 1 report).plant.bootStep = 2 ∧ ((t 2 report).cxl 0).up = true ∧ (t 2 { report with cxlUp := [] }).plant.bootStep = 2 ∧
       (t 3 report).host.state = .mgmt ∧ (t 6 report).host.state = .ready ∧ (t 7 report).plant.bootStep = 7)) = true := by
  decide +kernel
/-- An outer die that fails shows every row out (R31, R423); an inner die comes up after the outer ones. -/
theorem test_bring_up_dies :
    (let t := fun (n : Nat) => (nextOf (exec (.bringUp { report with diesOut := [5, 15] })
       { plant := { bootStep := n, quads := (List.range 64).map (fun q => (q, { phases := 17 })) } }) : State)
     let u := t 4
     let v := t 5
     decide (15 ∈ u.plant.dieOut ∧ 5 ∉ u.plant.dieOut ∧ 0 ∈ u.plant.meshUp ∧ u.dieStatus 15 = 0x101 ∧
       5 ∈ v.plant.dieOut ∧ 6 ∈ v.plant.meshUp)) = true := by
  decide +kernel
theorem test_store_kept :
    (let r : JournalRecord := ⟨0, 6, 0, [1, 2, 3, 4]⟩
     let s : State := { store := { journal := [r, { r with jseq := 1 }], jseq := 2, powerOns := 5 } }
     let t := nextOf (exec .countersRecord s)
     let c := { s with store := { s.store with compactDue := true } }
     let go := fun (x : State) => nextOf (exec .journalCompaction x)
     let h := go c
     let k := go h
     let u := go { k with store := { k.store with waiting := [(7, 9, [1])] } }
     decide (t.store.journal.getLast?.map (fun e => (e.jseq, e.kind, e.body.head?)) = some (2, 6, some 5) ∧ h.store.compaction = some { next := 2 } ∧
       k.store.compaction.map (fun x => (x.step, x.records.map JournalRecord.jseq)) = some (2, [1]) ∧ u.store.gen = 2 ∧ u.store.halfB = true ∧
       u.store.journal.map (fun e => (e.jseq, e.kind)) = [(1, 6), (2, 8), (3, 7)] ∧ u.store.waiting = [] ∧ u.store.other.isSome = true ∧
       (go u).store.other = none ∧ (go u).store.compaction = none) && isNext (exec .journalCompaction s) s) = true := by decide +kernel
/-- The first tree, the one after it, and an attestation that waits for the second. -/
theorem test_trees :
    (let s := fun (x : Store) => { asked 0x52 (words 0 0 0 0 0 0 0) with store := x }
     let t := fun (x : Store) => ((nextOf (exec .lowerTreeBuild (s x))).store : Store)
     let w : Store := { sigIdx := 32769, tree := some 0, attest := some (.tag 7, 32768, []) }
     decide ((t {}).tree = some 0 ∧ (t { tree := some 0, treeUsed := some 0 }).treeNext = some 1 ∧ (t { tree := some 0 }).treeNext = none ∧ w.tree ≠ some 1 ∧ w.treeNext ≠ some 1 ∧
       (s w).command (.tag 7) = some (flying 0x52 (words 0 0 0 0 0 0 0)) ∧ (s w).bufUp (flying 0x52 (words 0 0 0 0 0 0 0)).sub = true) &&
       isNext (exec .lowerTreeBuild {}) {}) = true := by decide +kernel
/-- The command in front is run on the rest; an empty queue idles. -/
theorem test_step :
    (isNext (step { pending := [.usecTick, .hwinEn true] }) { pending := [.hwinEn true], nemar := { usec := 1 } } &&
      isNext (step State.reset) State.reset) = true := by decide +kernel

/-! ## The last router of a re-plan, and the words -/

theorem find_append (a b : Table Router) (q : Nat) : find? (a ++ b) q = (find? a q).or (find? b q) := by
  induction a with
  | nil => simp [find?]
  | cons e t ih => by_cases h : e.1 = q <;> simp [find?, h, ih]
theorem find_all (x : Router) (n q : Nat) (h : q < n) : find? ((List.range n).map (fun k => (k, x))) q = some x := by
  induction n with
  | zero => omega
  | succ n ih =>
    rw [List.range_succ, List.map_append, find_append]
    by_cases k : q < n
    · rw [ih k]; rfl
    · have : q = n := by omega
      subst this
      cases e : find? ((List.range q).map (fun k => (k, x))) q with
      | none => simp [find?]
      | some y =>
        have : ∀ m, m ≤ q → ∀ y, find? ((List.range m).map (fun k => (k, x))) q = some y → False := by
          intro m hm
          induction m with
          | zero => intro y h; simp [find?] at h
          | succ m im =>
            intro y h
            rw [List.range_succ, List.map_append, find_append] at h
            cases e : find? ((List.range m).map (fun k => (k, x))) q with
            | none => rw [e] at h; simp [find?] at h; omega
            | some z => exact im (by omega) z e
        exact (this q (Nat.le_refl _) y e).elim
/-- Every router has flipped and is empty of the old epoch. -/
def flipped : State := { mesh := {
  replan := some { trigger := .linkFailed 0 1, epoch := true }
  routers := (List.range 17408).map (fun k => (k, { epoch := true, oldEmpty := true })) } }
theorem test_replan_over : (0 : PhysId).toNat < 17408 ∧ flipped.mesh.replan = some { trigger := .linkFailed 0 1, epoch := true } ∧
    flipped.mesh.waiting = [] ∧ flipped.holdsEpoch 0 false = false ∧ (flipped.router 0).isolated = false ∧
    ∀ q, q < 17408 → (flipped.router q).oldEmpty = true ∧ (flipped.router q).epoch = true := by
  have h : ∀ q, q < 17408 → flipped.router q = { epoch := true, oldEmpty := true } := by
    intro q hq
    rw [State.router, look, show flipped.mesh.routers = (List.range 17408).map (fun k => (k, { epoch := true, oldEmpty := true })) by unfold flipped; dsimp only,
      find_all _ _ _ hq]
    rfl
  refine ⟨by decide, rfl, rfl, rfl, ?_, ?_⟩
  · rw [h 0 (by omega)]
  · intro q hq; rw [h q hq]; exact ⟨rfl, rfl⟩
/-- A millisecond into the re-plan for router 5, every other router being through. -/
def failing : State := { nemar := { usec := 1000 }, mesh := {
  replan := some { trigger := .routerFailed 5, epoch := true, around := [5] }
  routers := (5, ({} : Router)) :: (List.range 17408).map (fun k => (k, { epoch := true, oldEmpty := true })) } }
theorem test_isolation_due : failing.mesh.replan = some { trigger := .routerFailed 5, epoch := true, around := [5] } ∧
    (failing.router 5).isolated = false ∧ (failing.router 5).oldEmpty = false ∧ failing.mesh.waiting = [] ∧ failing.regions = [] ∧
    ∀ q, q < 17408 → q ≠ 5 → (failing.router q).oldEmpty = true ∧ (failing.router q).epoch = true := by
  refine ⟨rfl, rfl, rfl, rfl, rfl, ?_⟩
  intro q hq h5
  have : failing.router q = { epoch := true, oldEmpty := true } := by
    rw [State.router, look, show failing.mesh.routers = (5, ({} : Router)) :: (List.range 17408).map (fun k => (k, { epoch := true, oldEmpty := true }))
      by unfold failing; dsimp only, find?, if_neg (by simpa using Ne.symm h5), find_all _ _ _ hq]
    rfl
  rw [this]; exact ⟨rfl, rfl⟩
/-- A word is the word of the row it reads as. -/
theorem test_word_round_trip : wordOf (readWord 7 0x1028C000FFFFFFC0) = some (7, 0x1028C000FFFFFFC0) ∧
    wordOf (Instr.add 0 ⟨3, 1, 2, 0⟩) = some (0, 0x0118440000000000) := by decide +kernel
/-- An instruction row leaves the other cores. -/
theorem test_other_cores : (let s := { issuing (.add 0 fA) with cores := (issuing (.add 0 fA)).cores ++ [(5, { slot := 77 })] }
    let t := nextOf (exec (.add 0 fA) s)
    decide ((s.canIssue 0 (encA 0x01 fA)) = true ∧ (t.core 5).slot = 77 ∧ (t.core 0).slot = 10)) = true := by decide +kernel
/-- A chain that still writes word 0 of the inactive bank: SWAPI raises IMEM_BUSY. -/
theorem test_swapi_busy : (let i := Instr.swapi 0 { fC with imm := 0x45 }
    let s := { withWord i (fun c => c.setChan 0 { chains := [(0x40, 0)] }) with
      mem := wordsAt 0x40 [0x8000000000000000, 0, 0x1000, 0x080800008000, 8] }
    (s.setCore 0 (s.core 0).opened).imemPend 0 && faulted s i 3 0) = true := by decide +kernel

/-! ## Further witnesses, one for each remaining clause -/

/-- An error of the fetch, cause 4. -/
theorem test_fetch_error : (let i := Instr.add 0 fA
    let s := withWord i (fun c => { c with imemErr := [0] })
    s.canIssue 0 (encA 0x01 fA) && decide ((s.core 0).pend = []) && faulted s i 4 0) = true := by decide +kernel
/-- A store whose port is granted to another access waits. -/
theorem test_store_waits : (let i := Instr.st 0 ⟨2, 4, 0, 0xFFFFFFF8⟩
    let s := withWord i (fun c => { c with arbs := [(22, { granted := some 1 })] })
    let t := nextOf (exec i s)
    s.issues i && decide ((s.core 0).opened.cuParked = [] ∧ (t.core 0).cuParked ≠ [] ∧ (t.core 0).pc = (s.core 0).pc)) = true := by
  decide +kernel
/-- With no access at its arbiters the ports of a core are free. -/
theorem test_ports_free : (issuing (.ld 0 fI)).issues (.ld 0 fI) = true ∧ (opened (.ld 0 fI)).portsFree :=
  ⟨by decide +kernel, ⟨by decide +kernel, fun _ => by
    rw [show (opened (.ld 0 fI)).arbs = [] by decide +kernel]; exact ⟨rfl, rfl⟩⟩, by decide +kernel⟩
/-- The queues of the arrivals and returns above are sound rings; the core has reached its passes. -/
theorem test_rings_sound : (({} : StreamQueue).ringSound = true ∧
    ({ buf := List.replicate 16 {}, spillCfg := 4 } : StreamQueue).ringSound = true ∧
    ({ buf := List.replicate 15 {}, spill := [{ line := 0 }], spillCfg := 4 } : StreamQueue).ringSound = true) ∧
    ({ running := true } : Core).reached onePass.due = true ∧ (oneCore {}).tileOpen 0 0 0 = false ∧
    (oneCore {}).arrived ({ addr := 0x1000, len := 128, slot := 0 } : Run).net = true ∧ (oneCore {}).tiers.waits = [] := by decide +kernel
/-- A copy whose pages no read holds at the old place. -/
theorem test_move_alone :
    (let m : Move := { page := 9, src := ⟨3, 0, 0x800005⟩, dst := ⟨1, 0, 0x200001⟩, demotion := false, against := false, steep := none }
     let s : State := { tiers := { pt := [(9, page9)], moves := [m] } }
     decide (s.readsOld m = false ∧ s.holders 9 = [] ∧ s.readsOf 9 6 = [] ∧ s.writesOf 9 6 = [] ∧ bit page9.w0 56 = false)) = true := by
  decide +kernel
/-- A flit of this kind at router (0, 0), bound for (dx, 0), and a state that holds it. -/
def flitOf (dx : Nat) (k : FlitKind) : MeshFlit := { px := 0, py := 0, dx := dx, dy := 0, lane := false, epoch := false, kind := k }
def onMesh (s : State) (x : MeshFlit) : State := { s with mesh := { s.mesh with flits := [(4, x)] } }
/-- Messages under way: each row waits. -/
def stagedWay : State := onMesh (pair .running (fun c => { c with stagedSent := true }) id) (flitOf 1 (.ctl .staged 0 0))
def invalidWay : State := onMesh { oneCore { ptCache := [(9, 0)] } with tiers := { inval := [(9, [0])] } } (flitOf 1 (.ctl .invalidate 0 9))
def reportWay : State := onMesh { pair .running id id with
  nemar := { tierReports := [{ region := 1, core := some 0, status := 0x4003, page := 9, src := none }] } } (flitOf 1 (.ctl .report 0 1))
def arriveWay : State := onMesh (pair .running (fun c => { c with barOut := [⟨3, 0, false, none⟩] }) id) (flitOf 1 (.ctl .arrive 0 3))
theorem test_messages_under_way :
    (stagedWay.underWay .staged 0 0 && isNext (exec (.staged 0) stagedWay) stagedWay &&
     invalidWay.underWay .invalidate 0 9 && isNext (exec (.ptInvalidate 0 9) invalidWay) invalidWay &&
     reportWay.underWay .report 0 1 && isNext (exec (.tierReport 1) reportWay) reportWay &&
     arriveWay.underWay .arrive 0 3 && isNext (exec (.barrierArrival 0 3) arriveWay) arriveWay) = true := by decide +kernel
/-- A plan that adds nothing meets R296. -/
theorem test_plan_meets :
    (let p : RoutePlan := { trigger := .quadrantReturn 0, entries := [], unreachable := [] }
     let s : State := { mesh := { routers := [(7, { epoch := false })] }, plant := { quads := [(0, { powered := true, ebbed := true })] } }
     decide (s.triggered p.trigger = true ∧ s.planMeets p = true)) = true := by decide +kernel
/-- Flit 4 after its hop. -/
def hopped (x : MeshFlit) : Option MeshFlit := find? (nextOf (exec (.flitHop 4 .clean) (onMesh (oneCore {}) x))).mesh.flits 4
/-- Two flits of one input on both lanes want one link; the one of lane 1 yields after a turn of lane 1. -/
def rivals : State := { oneCore {} with mesh := { flits := [(4, flitOf 2 .entry), (5, { flitOf 2 .entry with lane := true })] } }
def rivalsAfter : State := { rivals with mesh := { rivals.mesh with asks := [(rivals.linkOf (flitOf 2 .entry) * 8 + 4, { lane1 := true })] } }
/-- A flit leaves its FIFO, a read turns at its target, a write is accepted there. -/
theorem test_flit_turns :
    (hopped { flitOf 2 .entry with fifo := true } == some (flitOf 2 .entry) && rivals.yields 4 (flitOf 2 .entry) &&
     !rivalsAfter.yields 4 (flitOf 2 .entry) && isNext (exec (.flitHop 4 .clean) rivals) rivals &&
     (hopped (flitOf 0 (.read 0 1 9))).map (fun x => x.kind) == some (.back 0 1 9) &&
     hopped (flitOf 0 (.write 0 5 9 64 0 0 false)) == none) = true := by decide +kernel
/-- A self-check report of a core that is being re-placed is the spare's: column 32 is passed over for 33. -/
def replacing : State := { nemar := { replacements := [{ fences := [5], regions := [1] }] }, plant := { rows := [(0, { faults := [5] })] } }
theorem test_spare_fails :
    (let t := nextOf (exec (.selfCheckReport 5 .selfCheck) replacing)
     let u := nextOf (exec (.selfCheckReport 5 .selfCheck) t)
     decide (replacing.available 5 = false ∧ replacing.testsSpare 5 = true ∧ t.nemar.badSpares = [32] ∧ u.nemar.badSpares = [32, 33])) = true := by
  decide +kernel
/-- A submission with HTIME_V whose tag is in flight. -/
def busyTime : State := { ringing { sqHead := 15, sqTail := 0 } with
  mem := wordsAt (0x100000000000 + 128 * 15) [0x100070013, 0x55], nemar := { usec := 4, cmds := [flying 0x13 (words 0 0 0 0 0 0 0)] } }
/-- It is answered TAG_BUSY, and its HOST_TIME is logged. -/
theorem test_busy_time : (busyTime.mayFetch 3 && busyTime.tagBusy (busyTime.headSubmission 3).tag && (busyTime.headSubmission 3).htimeV &&
    ((nextOf (exec (.submissionFetch 3) busyTime)).nemar.log.map (fun e => (e.code, e.w0, e.w1, e.w2)) ==
      [(rcHostTime, 0x55, 4, 3)])) = true := by decide +kernel
/-- A halted module refuses RUN by mailbox, and the mailbox is free again. -/
theorem test_halted_boot :
    (let s : State := { host := { state := .halted, bootBusy := true } }
     let t := s.checkIn { opcode := 0x13 } .boot 0
     decide (s.command .boot = none ∧ t.command .boot = none ∧ t.host.bootBusy = false ∧ t.host.bootDone = true)) = true := by
  decide +kernel
/-- Port 1 alone serves the HDM window, and a port the grade lacks answers nothing. -/
theorem test_other_port :
    (let s : State := { mem := [(0x04000000003F, 9)], host := { hdmValid := true, ports := #v[{}, { up := true }] } }
     let g : State := { grade := .s }
     decide ((s.cxl 0).carries = false ∧ (s.cxl 1).carries = true ∧
       (nextOf (exec (.hdmAccess 0x3F none false) s)).mesh.transits.length = 1 ∧
       cxlExists .s 1 = false) && isNext (exec (.doeRequest 1 (.ideKeyProgram .io)) g) g) = true := by decide +kernel
/-- The ACTIVE slot has spoilt: it is recorded BAD and FALLBACK loads. -/
theorem test_spoilt_slot :
    (let s := booting 3 0 (List.replicate 4 { state := 1 })
     let t := nextOf (exec (.bringUp { report with spoilt := [3] }) s)
     decide (t.store.loaded = 0 ∧ t.plant.bootStep = 1 ∧ (t.store.slot 3).state = 2)) = true := by
  decide +kernel
/-- The final completion of an ended command was held: a reset keeps its outcome for RESYNC. -/
theorem test_reset_keeps_outcome :
    (let s := { asked 0x13 (words 0 0 0 0 0 0 0) with host := { state := .ready } }
     let s := { s with nemar := { cmds := [flying 0x13 (words 0 0 0 0 0 0 0)] } }
     let h := s.finish (.tag 7) 0x4003 0 0
     let t := nextOf (exec .ringReset h)
     decide ((h.command (.tag 7)).map (fun c => c.ended) = some true ∧ h.host.held.length = 1 ∧ t.host.held = [] ∧
       t.nemar.finished.map (fun x => (x.cmd.ref, x.status)) = [(.tag 7, 0x4003)])) = true := by decide +kernel

/-! ## Witnesses of the other forms and clauses -/

/-- The other engine rows: a format of no row, and a unit absent in the grade. -/
theorem test_engine_faults_more :
    (faulted (issuing (.mstr 0 { gMstr with wfmt := 15 })) (.mstr 0 { gMstr with wfmt := 15 }) 1 0 &&
     faulted (issuing (.mstrl 0 { gMstr with isrc := 8, ifmt := 15 })) (.mstrl 0 { gMstr with isrc := 8, ifmt := 15 }) 1 0 &&
     faulted { issuing (.mstr 0 { gMstr with wfmt := 9 }) with grade := .s } (.mstr 0 { gMstr with wfmt := 9 }) 7 0 &&
     faulted { issuing (.mstrl 0 { gMstr with isrc := 8, ifmt := 9 }) with grade := .s } (.mstrl 0 { gMstr with isrc := 8, ifmt := 9 }) 7 0 &&
     faulted (issuing (.mma 0 { gMma with wfmt := 15 })) (.mma 0 { gMma with wfmt := 15 }) 1 0 &&
     faulted { issuing (.mma 0 { gMma with wfmt := 9, ifmt := 9 }) with grade := .s } (.mma 0 { gMma with wfmt := 9, ifmt := 9 }) 7 0) =
    true := by decide +kernel
/-- A tap is absent in MV16-S; a load of the pool past its end; a generator not enabled. -/
theorem test_vector_faults :
    (faulted (issuing (.vadd 0 { gV with fmt := 15 })) (.vadd 0 { gV with fmt := 15 }) 1 0 &&
     faulted { issuing (.vadd 0 { gV with tap := 1 }) with grade := .s } (.vadd 0 { gV with tap := 1 }) 7 0 &&
     (let i := Instr.vpld 0 { gV with opa := 6, opb := 0, opc := 0 }
      faulted (issuing i) i 5 0) &&
     (let i := Instr.fstop 0 ⟨0, 1, 0⟩
      faulted (withWord i (fun c => { c with ag := Vector.replicate 4 {} })) i 1 0)) = true := by decide +kernel
/-- No generator of these cores has an entry in a landing area, and their arbiters are idle. -/
theorem test_landless : ({} : Core).landless ∧ (({} : Core).setGen 0 { gen with passes := [onePass] }).landless ∧ ({} : Core).banksFree :=
  ⟨by unfold Core.landless; decide +kernel, by unfold Core.landless; decide +kernel, rfl, fun _ => ⟨rfl, rfl⟩⟩
/-- A full buffer: the entry that returns stands in the first line of the landing area. -/
theorem test_landing :
    (let r : Run := { addr := 0x1000, len := 128, slot := 0 }
     let s := { withGen { gen with land := 0x800000001, fq := List.replicate 16 {}, tiles := [[r]] } with mem := [(0x1001, 7)] }
     let t := nextOf (exec (.fetchReadReturn 0 0 0 .good) s)
     decide (((s.core 0).gen 0).lsize = 1 ∧ ((s.core 0).gen 0).lbase = 8 ∧ ((t.core 0).gen 0).fq.length = 17 ∧ ((t.core 0).gen 0).landed = [8] ∧
       t.mem = [(0x401, 7), (0x1001, 7)])) = true := by decide +kernel
/-- RMIN is given up for the bound on input power: 48 bricks, PCAP 100 and 10.0 measured. -/
theorem test_capped_conflict :
    (let u := quad5 { rate := 90, vrail := 551, twork := 90, temps := warm 9000 }
     let s := { u with plant := { u.plant with pcap := 100, pin := 1000 } }
     let t := nextOf (exec .rateLoopEval s)
     decide (s.capped = true ∧ s.rails = [5] ∧ s.liveQuads = [5] ∧ (s.quad 5).effRmax = 100 ∧ (s.quad 5).rmin = 90 ∧ s.plant.inputLimit = false ∧
       (t.quad 5).conflict = true ∧ (t.quad 5).vrail = 550 ∧ s.powerBound.2 = 4 ∧
       t.nemar.log.map (fun e => (e.code, e.w0, e.w1, e.w2, e.w3)) = [(rcPolicyConflict, 0, 5, 1, 4)])) = true := by decide +kernel
/-- The router of a spare; an error of an accumulator, lasting and not; a spare's self-test run again. -/
theorem test_self_check_variants :
    (let s := oneCore { running := true }
     let s : State := { s with plant := { quads := [(0, { powered := true })] } }
     let p := s.physOf 0
     let t := fun (c : SelfCheck) => nextOf (exec (.selfCheckReport 0 c) s)
     let a := t (.routerOf 32)
     let b := t (.storage .acc 9 true)
     let d := t (.storage .acc 9 false)
     let e := nextOf (exec (.selfCheckReport 5 .spareRetried) replacing)
     let f := fun (u : State) => (u.nemar.log.map (fun x => (x.code, x.w0)) : List (Code × Word))
     decide (s.logOf 32 = none ∧ s.logOf p = some 0 ∧ s.reef 0 = false ∧ s.selfChecks 0 = true ∧ s.testsSpare p = false ∧
       (look a.plant.rows 0 {}).routers = [32] ∧ f a = [(rcLasting, 0x0E)] ∧ f b = [(rcLasting, 7)] ∧ look b.nemar.sram p [] = [0x700000009] ∧
       b.nemar.lasting = 1 ∧ f d = [(rcTransient, 7)] ∧ d.nemar.sram = [] ∧ f e = [(rcTransient, 0x0B)] ∧
       replacing.testsSpare (replacing.physOf 5) = true) && isNext (exec (.selfCheckReport 0 .spareRetried) s) s) = true := by decide +kernel
/-- The records of a hart restarted, then fenced; a fenced hart has no more to miss. -/
theorem test_hart_records :
    (let s : State := { nemar := { usec := 1999999 } }
     let u : State := { s with nemar := { s.nemar with harts := s.nemar.harts.set 2 (.restarted 1000000) } }
     let v : State := { s with nemar := { s.nemar with harts := s.nemar.harts.set 2 .fenced } }
     let t := fun (x : State) => (nextOf (exec (.hartWatchdogExpire (.primary 2)) x) : State)
     let f := fun (x : State) => (x.nemar.log.map (fun e => (e.code, e.w0, e.w1)) : List (Code × Word × Word))
     decide (f (t s) = [(rcTransient, 0x0F, 2)] ∧ (t s).nemar.transient = 1 ∧ f (t u) = [(rcLasting, 0x0F, 2)] ∧ (t u).nemar.lasting = 1 ∧
       s.hartRuns 2 = true ∧ v.hartRuns 2 = false) && isNext (exec (.hartWatchdogExpire (.primary 2)) v) v) = true := by decide +kernel
/-- The weak core's record names it, and it is no new error; the store has room. -/
theorem test_weak_record :
    (let s : State := { nemar := { weak := [0], lasting := 3 } }
     let t := nextOf (exec (.weakCoreFence 0) s)
     decide (s.store.verifyFails = false ∧ s.store.used + 4096 ≤ halfBytes ∧ s.store.faultOwed 0 = false ∧ s.plant.powerGood = true ∧ s.regions = [] ∧
       s.host.state ≠ .halted ∧ t.nemar.lasting = 3 ∧ t.nemar.weak = [] ∧ t.nemar.fencedNow = [s.physOf 0] ∧
       t.nemar.log.map (fun e => (e.code, e.srcKind, e.srcId)) = [(rcLasting, 0, 0)])) = true := by decide +kernel
/-- A slot with nothing written elsewhere, or being written; node 2 has contributed to a round that runs out of time. -/
theorem test_late_round :
    (let u := pouring { slot5 with state := 1, startUsec := some 7, have_ := [(1, 5)], nodes := [2] }
     let s := { u with nemar := { usec := 20007 } }
     let t := nextOf (exec (.pourTimeout 5) s)
     decide ((s.pourSlot 5).written = [] ∧ (s.pourSlot 5).out = [] ∧ s.resultWrites 5 0 = [] ∧ s.regionOf (s.pourSlot 5).doneCore = none ∧
       s.portFor 2 0 = some 3 ∧ (s.zport 3).mode ≠ 1 ∧ outOf t = [(kindPnak, 3)])) = true := by decide +kernel
/-- Entry 0 of a re-shard, a line of which another node has refused; its command was dropped by a reset. -/
def refusedCopy : State := {
  nemar := { cmds := [{ flying 0x34 (words 0 0 0 0 0 0 0) with dropped := true }] }
  fabric := { node := 1, layout := 2, writes := [{ tag := 9, node := 2, line := 0, core := 0, gen := ownReshard, tile := 0, failed := true }]
              reshard := some { ref := .tag 7, epoch := 3, table := [(0x0001040000000000, 0x0002040000000000, 8), (0x0001040000000000, 0x0001040000000000, 1)],
                                drainMs := 10, startUsec := 5, copying := true } } }
def copyEnds (o : CopyOutcome) : Bool :=
  let t := nextOf (exec (.shardCopyComplete (.reshard 0) o) refusedCopy)
  t.fabric.reshard.isNone && decide (t.fabric.layout = 2) && (t.nemar.finished.map (fun g => (g.cmd.ref, g.status)) == [(.tag 7, 0x5005)])
theorem test_reshard_fails :
    (!refusedCopy.globalHas 55 0x0002040000000000 8 && !refusedCopy.onFabric 0 ownReshard && decide (refusedCopy.writesOf 0 ownReshard ≠ []) &&
     copyEnds .readFailed && copyEnds .writeFailed && copyEnds .hostBufferFailed && copyEnds .confirmed) = true := by decide +kernel
/-- A local entry has no job, read or write before its copy. -/
theorem test_copy_alone :
    (let a := 0x0001040000000000
     let x : Reshard := { ref := .tag 7, epoch := 3, table := [(a, a + 8, 8), (a, a, 1)], drainMs := 10, startUsec := 5, copying := true }
     let s : State := { fabric := { node := 1, reshard := some x } }
     decide (find? x.jobs 0 = none ∧ s.readsOf 0 ownReshard = [] ∧ s.writesOf 0 ownReshard = [] ∧ s.readsOf (shardKey (.tag 7) 0) ownCkpt = [] ∧
       s.writesOf (shardKey (.tag 7) 0) ownCkpt = [])) = true := by decide +kernel
/-- Mover 0 serves an earlier copy first. -/
theorem test_mover_turn :
    (let a := 0x0001040000000000
     let z : CkptCopy := { ref := .tag 7, restore := true, shards := [⟨a, a + 8, 1, []⟩] }
     let s : State := { nemar := { cmds := [flying 0x40 (words 0 0 0 0 0 0 0)] }, fabric := { node := 1 }
                        store := { copies := [{ z with ref := .tag 8 }, z], turns := Vector.replicate 4 [.tag 8, .tag 7] } }
     decide (s.moverTurn 0 = some (.tag 8)) && isNext (exec (.shardCopyComplete (.shard (.tag 7) 0) .confirmed) s) s) = true := by decide +kernel
/-- REGION_ENABLE with a bit that no field has; a RESYNC that reports and releases a finished tag; a CSR_WRITE refused. -/
theorem test_more_reports :
    (let e := asked 0x11 (words 256 0 0 0 0 0 0)
     let c : Command := { flying 0x13 (words 0 0 0 0 0 0 0) with ref := .tag 8, ring := 3, dropped := true, ended := true, longAcked := true }
     let r := asked 0x02 (words 0 0 0 0 0 0 0)
     let r := { r with nemar := { r.nemar with finished := [⟨c, 0x2001⟩] } }.setRing 3 { owed := 2 }
     let t := nextOf (exec (.resync (.tag 7)) r)
     let w := asked 0x04 (words 0x08000000F000 1 0 0 0 0 0)
     decide (takes e 0x11 = false ∧ e.argBad (flying 0x11 (words 256 0 0 0 0 0 0)).sub = some 0 ∧ saidOf (.regionEnable (.tag 7)) e = (0x1002, 4) ∧
       takes r 0x02 = true ∧ c.debt = 1 ∧ t.nemar.finished = [] ∧ (t.ring 3).owed = 1 ∧ takes w 0x04 = true ∧
       w.dieDark (csrTarget 0x08000000F000) = false ∧ (w.csrWriteFails (csrTarget 0x08000000F000)).isSome = true ∧
       (saidOf (.csrWrite (.tag 7)) w).2 = 0x100000000)) = true := by decide +kernel
/-- Records 4 and 5 of a log that begins with 3. -/
theorem test_log_read :
    (let e : LogRecord := ⟨3, 9, 0xE001, 0, true, false, 0, 0, 0xFF, 0xAB, 0, 0, 0⟩
     let l := asked 0x05 (words 4 0 0 0 0 0 0)
     let s := { l with nemar := { l.nemar with log := [e, { e with seq := 4, w0 := 0xAC }, { e with seq := 5, w0 := 0xAD }], logNext := 6 } }
     let m := (nextOf (exec (.logRead (.tag 7)) s)).mem
     decide (getByte m (0x100000004000 + 32) = 0xAC ∧ getByte m (0x100000004000 + 96) = 0xAD ∧ saidOf (.logRead (.tag 7)) s = (0, 6) ∧
       getByte m (0x100000004000 + 128) = 0)) = true := by decide +kernel
/-- A drain of a TIDELINE region is kept; one of a SLACK region, or in MODE 1, stops its cores, no module barrier being set. -/
theorem test_other_drains :
    (let s := fun (g : RState) (c : Word) =>
       { having (asked 0x14 (words 0x101 0 0 0 0 0 0)) { state := g, ctrl := c } with cores := [(0, {})] }
     let t := nextOf (exec (.regionDrain (.tag 7)) (s .tideline 0))
     let u := nextOf (exec (.regionDrain (.tag 7)) (s .slack 0))
     decide (takes (s .tideline 0) 0x14 = true ∧ (t.region 1).state = .tideline ∧ (t.region 1).drainHeld = true ∧
       (t.region 1).drain = some (.tag 7, true) ∧ (s .slack 0).nemar.bars = [] ∧ (u.region 1).state = .stopping ∧
       (u.region 1).resume = .slack ∧ (u.core 0).stopping = true)) = true := by decide +kernel
/-- The hypotheses on a LOST region's fences, and on pages that no other command has. -/
theorem test_alone :
    (let s : State := { having (asked 0x18 (words 1 0 0 0 0 0 0)) { state := .lost } with cores := [(0, {})] }
     let p : State := asked 0x20 (words 9 1 0xA000000000200000 0 0 0 0)
     let q : State := { asked 0x23 (words 9 0x040000400000 0 0 0 0 0) with tiers := { pt := [(9, { w0 := 0xA100000000200001 })] } }
     decide (s.movedRegions (s.mendable (s.reefsOf 1)) = [] ∧ s.nemar.replacements = [] ∧ s.nemar.bars = [] ∧
       p.pagesBusy (.tag 7) 9 1 = false ∧ q.pagesBusy (.tag 7) 9 1 = false ∧ locTier (q.ptEntry 9).w0 ≠ 2 ∧
       q.poisonedAt 0x040000400000 = false ∧ q.tiers.restores = [] ∧ q.tiers.inval = [] ∧ 0x040000400000 < 2 ^ 60)) = true := by decide +kernel
/-- Sets refused: a barrier of a region that is not enabled, or of a node set out of range; a pour slot of no reducer; a shard of
length zero. -/
theorem test_sets_refused :
    (let s := having (asked 0x32 (words 255 4 0 0 0 0x8000000000000000 0)) { state := .running }
     let p := asked 0x33 (words 5 0xC000000000000000 1 0x0000040000000000 20 0 0)
     let a := { asked 0x33 (words 1023 0 0 0 0 0 0) with grade := .s }
     let c := short (asked 0x40 (words 1 0 0 0 0 0 0)) 64
     decide (takes s 0x32 = true ∧ (s.barrierCheck 255 [4, 0, 0, 0] 0).map (fun x => (x.reason, x.detail)) = some (0x13, 255) ∧
       saidOf (.barrierSet (.tag 7)) s = (0x2001, 0xFF0013) ∧ takes p 0x33 = true ∧
       p.pourAbsent { p.pourSlot 5 with w0 := 0xC000000000000000, w1 := 1, w2 := 0x0000040000000000, w3 := 20 } = none ∧
       p.pourCheck 5 { p.pourSlot 5 with w0 := 0xC000000000000000, w1 := 1, w2 := 0x0000040000000000, w3 := 20 } = true ∧
       saidOf (.pourSet (.tag 7)) p = (0x2001, 0x50018) ∧ saidOf (.pourSet (.tag 7)) a = (0x1005, 49) ∧ takes c 0x40 = true ∧
       saidOf (.ckptCopy (.tag 7)) c = (0x1002, 0x100000000))) = true := by decide +kernel
/-- A half whose next record does not fit, and a store whose program-verify fails. -/
theorem test_store_commands_wait :
    (let f : Store := { slots := #v[{ state := 1 }, {}, {}, { state := 1 }], used := halfBytes }
     let v : Store := { slots := #v[{ state := 1 }, {}, {}, { state := 1 }], verifyFails := true }
     let g := fun (st : Store) => { short (asked 0x50 (words 1 0 0 0 0 0 0)) 1 with store := st }
     let h := fun (st : Store) => { asked 0x51 (words 3 0 0 0 0 0 0) with store := st }
     decide (f.full [8, 8] = true ∧ f.full [2] = true ∧ v.full [8, 8] = false ∧ v.full [2] = false ∧ ({} : Store).full [2] = false ∧
       saidOf (.fwStage (.tag 7)) (g v) = (0x8004, 1) ∧ saidOf (.fwActivate (.tag 7)) (h v) = (0x8004, 3) ∧
       (nextOf (exec (.fwActivate (.tag 7)) (h v))).store.compactDue = true) &&
       isNext (exec (.fwStage (.tag 7)) (g f)) (g f) && isNext (exec (.fwActivate (.tag 7)) (h f)) (h f)) = true := by decide +kernel
/-- AGE 15 on a router output is ARB_STARVE; on another arbiter it commits. -/
theorem test_arb_starve :
    (let t := fun (n : Nat) => ((nextOf (exec (.arbCommit 0) (oneCore { arbShadow := [(n, 0xF00000000)] }))).core 0 : Core)
     decide ((t 16).arbRefused = true ∧ (t 16).arbReason = 0x16 ∧ (t 20).arbReason = 0x16 ∧ (t 15).arbRefused = false ∧
       look (t 15).arbActive 15 0 = 0xF00000000 ∧ (t 21).arbCommits = 1)) = true := by decide +kernel
/-- The half with the higher GEN is mounted; the newest SIGIDX and BOOTSEL records hold. -/
theorem test_mount :
    (let s := booting 3 0 (List.replicate 4 {})
     let o : Option JournalHalf := some { records := bootJournal 1 2 [], gen := 9, used := 0 }
     let u : State := { s with store := { s.store with other := o } }
     let m := fun (x : State) => ((x.mount report).map (fun y => (y.store.journal.length, y.store.active, y.store.fallback, y.store.sigIdx)) : Option (Nat × BitVec 4 × BitVec 4 × Nat))
     decide (m s = some (6, 3, 0, 7) ∧ m u = some (2, 1, 2, 7) ∧ (u.mount { report with badHalves := [0, 1] }).isNone = true ∧
       (nextOf (exec (.bringUp { report with badHalves := [0, 1] }) u)).plant.bootStep = 0)) = true := by decide +kernel
/-- The rows from the harts of EN to READY, each with what keeps it from being done. -/
theorem test_bring_up_rows :
    (let s := fun (n : Nat) => ({ plant := { bootStep := n } } : State)
     let t := fun (n : Nat) (r : BootReport) => (nextOf (exec (.bringUp r) (s n)) : State)
     let p : RoutePlan := { trigger := .bringUp, entries := [], unreachable := [] }
     decide ((s 1).store.used + 160 ≤ 402653184 ∧ (t 1 report).hartRuns 3 = true ∧ (t 1 report).store.journal.length = 1 ∧
       (t 2 { report with deputyFails := true }).plant.bootStep = 2 ∧ (t 2 report).plant.bootStep = 3 ∧ (t 3 report).plant.bootStep = 4 ∧
       (s 6).planMeets p = true ∧ (t 6 report).plant.bootStep = 7 ∧ (t 6 report).tiers.pt = [])) = true := by decide +kernel
/-- A plan by which core 0 reaches no other meets no R296: the row is not done. -/
theorem test_bring_up_no_routes :
    (let s : State := { plant := { bootStep := 6, meshUp := [0], quads := [(0, { powered := true })] }, mesh := { failedLinks := [0, 1, 2, 3] } }
     let p : RoutePlan := { trigger := .bringUp, entries := [], unreachable := [] }
     decide (s.planMeets p = false ∧ (nextOf (exec (.bringUp report) s)).plant.bootStep = 6)) = true := by decide +kernel

end Sys2Proof.Tests
end

/-! ## The memories keep their form (spec/01_module_organisation.md, address map; R24)

`State.MemOk` is the invariant of O58. For each function of the model that does not reach a writer of a byte memory there is
an equivalence `State.memOk_f`; for each one that does, an implication `State.MemOk.f`. -/

namespace Sys2Proof.Machine

/-- Both byte memories are in canonical form. -/
def State.MemOk (s : State) : Prop := s.mem.wf = true ∧ s.host.boot.wf = true

@[simp ↓] theorem State.memOk_mk (g c m ma r i n h t me p f st fr pe) :
  (State.mk g c m ma r i n h t me p f st fr pe).MemOk ↔ m.wf = true ∧ h.boot.wf = true := Iff.rfl
@[simp] theorem State.MemOk.mem {s : State} (h : s.MemOk) : s.mem.wf = true := h.1
@[simp] theorem State.MemOk.boot {s : State} (h : s.MemOk) : s.host.boot.wf = true := h.2
@[simp ↓] theorem State.memOk_keep (s : State) (g c ma r i n t me p f st fr pe) :
  (State.mk g c s.mem ma r i n s.host t me p f st fr pe).MemOk ↔ s.MemOk := Iff.rfl
@[simp] theorem State.memOk_fold (s : State) : (s.mem.wf = true ∧ s.host.boot.wf = true) ↔ s.MemOk := Iff.rfl
@[simp ↓] theorem State.memOk_ite_iff {c : Prop} [Decidable c] {s t : State} (h : s.MemOk ↔ t.MemOk) :
    (if c then s else t).MemOk ↔ t.MemOk := by split <;> simp [h]
@[simp ↓] theorem State.memOk_foldl_iff {α : Type} {f : State → α → State} {xs : List α}
    (hf : ∀ t x, (f t x).MemOk ↔ t.MemOk)
    {s : State} : (xs.foldl f s).MemOk ↔ s.MemOk := by
  induction xs generalizing s with
  | nil => exact Iff.rfl
  | cons x xs ih => exact ih.trans (hf s x)
@[simp ↓] theorem State.memOk_ite {c : Prop} [Decidable c] {s t : State} (hs : s.MemOk) (ht : t.MemOk) :
    (if c then s else t).MemOk := by split <;> assumption
@[simp ↓] theorem State.memOk_ite_snd {α : Type} {c : Prop} [Decidable c] {s t : α × State} (hs : s.2.MemOk)
    (ht : t.2.MemOk) :
    (if c then s else t).2.MemOk := by split <;> assumption
@[simp ↓] theorem State.memOk_ite_fst {α : Type} {c : Prop} [Decidable c] {s t : State × α} (hs : s.1.MemOk)
    (ht : t.1.MemOk) :
    (if c then s else t).1.MemOk := by split <;> assumption
@[simp ↓] theorem State.memOk_foldl {α : Type} {f : State → α → State} {xs : List α}
    (hf : ∀ t x, t.MemOk → (f t x).MemOk)
    {s : State} (h : s.MemOk) : (xs.foldl f s).MemOk := by
  induction xs generalizing s with
  | nil => exact h
  | cons x xs ih => exact ih (hf s x h)
@[simp] theorem HostIf.boot_unsnoop (h : HostIf) (a n : Nat) : (h.unsnoop a n).boot = h.boot := by
  fun_cases HostIf.unsnoop <;> rfl

theorem State.memOk_foldl_snd {α β : Type} {f : β × State → α → β × State} {xs : List α}
    (hf : ∀ x a, x.2.MemOk → (f x a).2.MemOk) {x : β × State} (h : x.2.MemOk) : (xs.foldl f x).2.MemOk := by
  induction xs generalizing x with
  | nil => exact h
  | cons a xs ih => exact ih (hf x a h)
theorem State.memOk_foldl_snd_iff {α β : Type} {f : β × State → α → β × State} {xs : List α}
    (hf : ∀ x a, (f x a).2.MemOk ↔ x.2.MemOk) {x : β × State} : (xs.foldl f x).2.MemOk ↔ x.2.MemOk := by
  induction xs generalizing x with
  | nil => exact Iff.rfl
  | cons a xs ih => exact ih.trans (hf x a)
theorem State.MemOk.of_snd {α : Type} {p : α × State} {a : α} {t : State} (h : p.2.MemOk) (e : p = (a, t)) :
    t.MemOk := by
  subst e
  exact h

/-! ### The functions of Machine/Ops.lean -/

@[simp ↓] theorem State.memOk_snoopData (s : State) (a n : Nat) : (s.snoopData a n).MemOk ↔ s.MemOk := by
  fun_cases State.snoopData <;> simp
@[simp ↓] theorem State.MemOk.writeMem {s : State} {a : Nat} {bs : List (Byte × Bool)} (ok : s.MemOk) :
    (s.writeMem a bs).MemOk :=
  ⟨State.wf_writeMem a bs ok.mem, by simp [State.writeMem, ok]⟩
@[simp ↓] theorem State.memOk_setQuad (s : State) (q : Nat) (v : Quadrant) :
    (s.setQuad q v).MemOk ↔ s.MemOk := Iff.rfl
@[simp ↓] theorem State.memOk_setCore (s : State) (l : Nat) (c : Core) : (s.setCore l c).MemOk ↔ s.MemOk := Iff.rfl
@[simp ↓] theorem State.memOk_setRegion (s : State) (r : Nat) (v : Region) :
    (s.setRegion r v).MemOk ↔ s.MemOk := Iff.rfl
@[simp ↓] theorem State.MemOk.toSpill {s : State} {l n : Nat} {e : Entry} (ok : s.MemOk) :
    (s.toSpill l n e).MemOk := by
  unfold State.toSpill
  simp [ok]
@[simp ↓] theorem State.memOk_unspill (s : State) (l n : Nat) : (s.unspill l n).MemOk ↔ s.MemOk := by
  fun_cases State.unspill <;> simp
@[simp ↓] theorem State.MemOk.push {s : State} {l n : Nat} {e : Entry} (ok : s.MemOk) : (s.push l n e).MemOk := by
  fun_cases State.push
  next q s₁ c q' s₂ =>
    have h₁ : s₁.MemOk := by simp [s₁, ok]
    have h₂ : s₂.MemOk := by simp [s₂, h₁]
    simp [h₂]

/-! ### The functions of Machine/Log.lean -/

@[simp ↓] theorem State.memOk_journalAppend (s : State) (kind : BitVec 16) (key : Nat) (body : List Word) :
    (s.journalAppend kind key body).MemOk ↔ s.MemOk := by
  fun_cases State.journalAppend <;> simp
@[simp ↓] theorem State.memOk_recordCounters (s : State) : s.recordCounters.MemOk ↔ s.MemOk := by
  unfold State.recordCounters
  simp
@[simp ↓] theorem State.memOk_logEvent (s : State) (h : LogHead) (w0 w1 w2 w3 : Word) :
    (s.logEvent h w0 w1 w2 w3).MemOk ↔ s.MemOk := by
  unfold State.logEvent
  simp
@[simp ↓] theorem State.memOk_logError (s : State) (lasting : Bool) (srcKind : BitVec 8) (srcId kind where_ : Nat)
    (beats : Word) (core : Option Nat) :
    (s.logError lasting srcKind srcId kind where_ beats core).MemOk ↔ s.MemOk := by
  unfold State.logError
  simp

/-! ### The functions of Machine/CoreCsr.lean -/

@[simp ↓] theorem State.memOk_setPour (s : State) (k : Nat) (p : PourSlotState) :
    (s.setPour k p).MemOk ↔ s.MemOk := Iff.rfl
@[simp ↓] theorem State.memOk_logPourFail (s : State) (l slot kappa status : Nat) :
    (s.logPourFail l slot kappa status).MemOk ↔ s.MemOk := by
  unfold State.logPourFail
  simp
@[simp ↓] theorem State.memOk_pourStart (s : State) (l : Nat) (v : Word) : (s.pourStart l v).MemOk ↔ s.MemOk := by
  unfold State.pourStart
  simp
@[simp ↓] theorem State.memOk_coreWrite (s : State) (l off : Nat) (v : Word) :
    (s.coreWrite l off v).MemOk ↔ s.MemOk := by
  fun_cases State.coreWrite <;> simp

/-! ### The functions of Machine/Mesh.lean -/

@[simp ↓] theorem State.memOk_setRouter (s : State) (p : Nat) (r : Router) :
    (s.setRouter p r).MemOk ↔ s.MemOk := Iff.rfl
@[simp ↓] theorem State.memOk_setFlit (s : State) (n : Nat) (f : MeshFlit) :
    (s.setFlit n f).MemOk ↔ s.MemOk := Iff.rfl
@[simp ↓] theorem State.memOk_dropFlit (s : State) (n : Nat) : (s.dropFlit n).MemOk ↔ s.MemOk := Iff.rfl
@[simp ↓] theorem State.memOk_inject (s : State) (f : MeshFlit) : (s.inject f).2.MemOk ↔ s.MemOk := Iff.rfl
@[simp ↓] theorem State.memOk_launch (s : State) (src dst : Nat) : (s.launch src dst).2.MemOk ↔ s.MemOk := Iff.rfl
@[simp ↓] theorem State.memOk_remap (s : State) : s.remap.MemOk ↔ s.MemOk := Iff.rfl
@[simp ↓] theorem State.memOk_tellNemar (s : State) (l : Nat) (kind : CtlKind) (key : Nat) :
    (s.tellNemar l kind key).MemOk ↔ s.MemOk := Iff.rfl
@[simp ↓] theorem State.memOk_tellCore (s : State) (l : Nat) (kind : CtlKind) (key : Nat) :
    (s.tellCore l kind key).MemOk ↔ s.MemOk := Iff.rfl
@[simp ↓] theorem State.memOk_tellNode (s : State) (a b l : Nat) (kind : CtlKind) (key : Nat) :
    (s.tellNode a b l kind key).MemOk ↔ s.MemOk := Iff.rfl
@[simp ↓] theorem State.memOk_takeMessage (s : State) (kind : CtlKind) (l key : Nat) :
    (s.takeMessage kind l key).MemOk ↔ s.MemOk := by
  fun_cases State.takeMessage <;> simp
@[simp ↓] theorem State.memOk_dropMessages (s : State) (l : Nat) : (s.dropMessages l).MemOk ↔ s.MemOk := Iff.rfl
@[simp ↓] theorem State.memOk_loseEntry (s : State) (l q n : Nat) : (s.loseEntry l q n).MemOk ↔ s.MemOk := Iff.rfl

/-! ### The functions of Machine/Complete.lean -/

@[simp ↓] theorem State.MemOk.hostWrite {s : State} {h : Nat} {bs : List Byte} (ok : s.MemOk) :
    (s.hostWrite h bs).MemOk := by
  fun_cases State.hostWrite <;> simp [ok]
@[simp ↓] theorem State.memOk_raiseIrq (s : State) (v : Nat) : (s.raiseIrq v).MemOk ↔ s.MemOk := by
  fun_cases State.raiseIrq <;> simp
@[simp ↓] theorem State.memOk_setHState (s : State) (h : HState) : (s.setHState h).MemOk ↔ s.MemOk := by
  fun_cases State.setHState <;> simp
@[simp ↓] theorem State.memOk_setRing (s : State) (q : RingId) (r : Ring) : (s.setRing q r).MemOk ↔ s.MemOk := Iff.rfl
@[simp ↓] theorem State.memOk_mapCommand (s : State) (k : CmdRef) (f : Command → Command) :
    (s.mapCommand k f).MemOk ↔ s.MemOk := Iff.rfl
@[simp ↓] theorem State.memOk_dropCommand (s : State) (k : CmdRef) : (s.dropCommand k).MemOk ↔ s.MemOk := Iff.rfl
@[simp ↓] theorem State.memOk_signalRing (s : State) (q : RingId) : (s.signalRing q).MemOk ↔ s.MemOk := by
  fun_cases State.signalRing <;> simp
@[simp ↓] theorem State.MemOk.writeCq {s : State} {q : RingId} {x : Completion} {tag : BitVec 12} (ok : s.MemOk) :
    (s.writeCq q x tag).MemOk := by
  unfold State.writeCq
  simp [ok]
@[simp ↓] theorem State.MemOk.post {s : State} {c : Command} {x : Completion} (ok : s.MemOk) :
    (s.post c x).MemOk := by
  fun_cases State.post <;> simp [ok, Memory.wf_setBytes]
@[simp ↓] theorem State.memOk_settleHeld (s : State) (q : RingId) (x : Completion × BitVec 12) :
    (s.settleHeld q x).MemOk ↔ s.MemOk := by
  fun_cases State.settleHeld <;> simp
@[simp ↓] theorem State.MemOk.releaseHeld {s : State} (ok : s.MemOk) : s.releaseHeld.MemOk := by
  fun_cases State.releaseHeld
  next held irqs s₁ s₂ =>
    have h₂ : s₂.MemOk := State.memOk_foldl (fun t h ht => by split <;> simp [ht]) ok
    simp +contextual [h₂]
  next => exact ok
@[simp ↓] theorem State.MemOk.finish {s : State} {k : CmdRef} {status : Code} {r0 r1 : Word} (ok : s.MemOk) :
    (s.finish k status r0 r1).MemOk := by
  fun_cases State.finish
  case case4 c _ _ _ s₁ =>
    have h₁ : s₁.MemOk := by cases k <;> simp [s₁, ok]
    simp [h₁]
  all_goals simp +zetaDelta [ok]
@[simp ↓] theorem State.MemOk.succeed {s : State} {k : CmdRef} {r0 r1 : Word} (ok : s.MemOk) :
    (s.succeed k r0 r1).MemOk := by
  unfold State.succeed
  simp [ok]
@[simp ↓] theorem State.MemOk.ack {s : State} {k : CmdRef} (ok : s.MemOk) : (s.ack k).MemOk := by
  fun_cases State.ack <;> simp +zetaDelta [ok]
@[simp ↓] theorem State.MemOk.refuse {s : State} {k : CmdRef} {status : Code} {r1 : Word} (ok : s.MemOk) :
    (s.refuse k status r1).MemOk := by
  unfold State.refuse
  simp [ok]
@[simp ↓] theorem State.MemOk.bufWrite {s : State} {b : Submission} {off : Nat} {bs : List Byte} (ok : s.MemOk) :
    (s.bufWrite b off bs).MemOk := by
  fun_cases State.bufWrite <;> simp [ok, Memory.wf_setBytes]
@[simp ↓] theorem State.memOk_setRState (s : State) (r : Nat) (st : RState) : (s.setRState r st).MemOk ↔ s.MemOk := by
  unfold State.setRState
  simp
@[simp ↓] theorem State.MemOk.endRequest {s : State} {r : Nat} {status : Code} {r0 r1 : Word} (ok : s.MemOk) :
    (s.endRequest r status r0 r1).MemOk := by
  unfold State.endRequest
  simp [ok]
@[simp ↓] theorem State.MemOk.endRegionCommands {s : State} {r : Nat} {status : Code} {r1 : Word} (ok : s.MemOk) :
    (s.endRegionCommands r status r1).MemOk := by
  unfold State.endRegionCommands
  simp +contextual [ok]

/-! ### The functions of Machine/Slots.lean -/

@[simp ↓] theorem State.MemOk.applyEffect {s : State} {l : Nat} {e : Effect} (ok : s.MemOk) :
    (s.applyEffect l e).MemOk := by
  fun_cases State.applyEffect <;> simp [ok]
@[simp ↓] theorem State.memOk_spillTurned (s : State) (l : Nat) (e : Effect) :
    (s.spillTurned l e).MemOk ↔ s.MemOk := by
  fun_cases State.spillTurned <;> simp
@[simp ↓] theorem State.MemOk.settleList {l t : Nat} {ps : List Pending} {s : State} (ok : s.MemOk) :
    (settleList l t ps s).2.MemOk := by
  induction ps generalizing s with
  | nil => exact ok
  | cons p ps ih =>
    rw [Machine.settleList]
    split
    · exact ok
    · exact ih (by simp [ok])
@[simp ↓] theorem State.MemOk.advance {s : State} {l t : Nat} (ok : s.MemOk) : (s.advance l t).MemOk := by
  unfold State.advance
  simp [ok]
@[simp ↓] theorem State.MemOk.settle {s : State} {l : Nat} (ok : s.MemOk) : (s.settle l).MemOk := by
  fun_cases State.settle <;> simp [ok]
@[simp ↓] theorem State.memOk_sendFault (s : State) (l : Nat) : (s.sendFault l).MemOk ↔ s.MemOk := by
  fun_cases State.sendFault <;> simp

/-! ### The functions of Machine/Scalar.lean -/

@[simp ↓] theorem State.memOk_sendArrival (s : State) (l b : Nat) : (s.sendArrival l b).MemOk ↔ s.MemOk := Iff.rfl

/-! ### The functions of Machine/HostRows.lean -/

@[simp ↓] theorem State.memOk_setCxl (s : State) (p : Nat) (x : CxlPort) : (s.setCxl p x).MemOk ↔ s.MemOk := Iff.rfl
@[simp ↓] theorem State.memOk_dropBell (s : State) : s.dropBell.MemOk ↔ s.MemOk := Iff.rfl
@[simp ↓] theorem State.memOk_logHostTime (s : State) (b : Submission) (boot : Bool) (q : RingId) :
    (s.logHostTime b boot q).MemOk ↔ s.MemOk := by
  fun_cases State.logHostTime <;> simp
@[simp ↓] theorem State.MemOk.checkIn {s : State} {b : Submission} {ref : CmdRef} {q : RingId} (ok : s.MemOk) :
    (s.checkIn b ref q).MemOk := by
  fun_cases State.checkIn <;> simp +zetaDelta [ok]
@[simp ↓] theorem State.MemOk.bootBell {s : State} {v : Word} (ok : s.MemOk) : (s.bootBell v).MemOk := by
  fun_cases State.bootBell <;> simp [ok]
@[simp ↓] theorem State.memOk_sqBell (s : State) (q : RingId) (t : Word) : (s.sqBell q t).MemOk ↔ s.MemOk := by
  fun_cases State.sqBell <;> simp
@[simp ↓] theorem State.memOk_cqBell (s : State) (q : RingId) (h : Word) : (s.cqBell q h).MemOk ↔ s.MemOk := by
  fun_cases State.cqBell <;> simp
@[simp ↓] theorem State.memOk_ringCfgWrite (s : State) (q : RingId) (v : Word) :
    (s.ringCfgWrite q v).MemOk ↔ s.MemOk := by
  fun_cases State.ringCfgWrite <;> simp
@[simp ↓] theorem State.memOk_resetRings (s : State) : s.resetRings.MemOk ↔ s.MemOk := by
  unfold State.resetRings
  simp
@[simp ↓] theorem State.memOk_setHwin (s : State) (en : Bool) : (s.setHwin en).MemOk ↔ s.MemOk := Iff.rfl
@[simp ↓] theorem State.MemOk.bar0Write {s : State} {x : Nat} {v : Word} (ok : s.MemOk) :
    (s.bar0Write x v).MemOk := by
  unfold State.bar0Write
  repeat' split
  all_goals simp [ok, Memory.wf_setBytes]
@[simp ↓] theorem State.memOk_hostHolds (s : State) (a : Nat) : (s.hostHolds a).MemOk ↔ s.MemOk := Iff.rfl
@[simp ↓] theorem State.memOk_portChange (s : State) (p : Nat) (x : CxlPort) :
    (s.portChange p x).MemOk ↔ s.MemOk := by
  unfold State.portChange
  simp

/-! ### The functions of Machine/Tiles.lean -/

@[simp ↓] theorem State.memOk_readLanded (s : State) (l g : Nat) : (s.readLanded l g).MemOk ↔ s.MemOk := by
  fun_cases State.readLanded <;> simp
@[simp ↓] theorem State.MemOk.land {s : State} {l g : Nat} {e : Entry} (ok : s.MemOk) : (s.land l g e).MemOk := by
  unfold State.land
  simp [ok]
@[simp ↓] theorem State.MemOk.settleLanded {s : State} {l g : Nat} (ok : s.MemOk) : (s.settleLanded l g).MemOk := by
  fun_cases State.settleLanded <;> simp +contextual [ok]
@[simp ↓] theorem State.MemOk.landing {s : State} {l : Nat} {f : State → State} (hb : ∀ t, t.MemOk → (f t).MemOk)
    (ok : s.MemOk) :
    (s.landing l f).MemOk := by
  have h₁ := hb _ (State.memOk_foldl (f := fun t g => t.readLanded l g) (xs := List.range 4) (by simp +contextual) ok)
  exact State.memOk_foldl (by simp +contextual) h₁

/-! ### The functions of Machine/Csr.lean -/

@[simp ↓] theorem State.memOk_setZport (s : State) (p : Nat) (x : ZPortState) :
    (s.setZport p x).MemOk ↔ s.MemOk := Iff.rfl
@[simp ↓] theorem State.MemOk.retired {s : State} {l : Nat} (ok : s.MemOk) : (s.retired l).MemOk := by
  fun_cases State.retired <;> simp [ok]
@[simp ↓] theorem State.memOk_rngGo (s : State) : s.rngGo.MemOk ↔ s.MemOk := by
  unfold State.rngGo
  simp
@[simp ↓] theorem State.memOk_modWrite (s : State) (o : Nat) (v : Word) : (s.modWrite o v).MemOk ↔ s.MemOk := by
  fun_cases State.modWrite <;> simp
@[simp ↓] theorem State.memOk_corePut (s : State) (l o : Nat) (v : Word) : (s.corePut l o v).MemOk ↔ s.MemOk := by
  fun_cases State.corePut <;> simp
@[simp ↓] theorem State.MemOk.csrPut {s : State} {t : CsrTarget} {v : Word} (ok : s.MemOk) :
    (s.csrPut t v).MemOk := by
  fun_cases State.csrPut <;> simp [ok]

/-! ### The functions of Machine/FabricSend.lean -/

theorem State.memOk_sendFlit {s t : State} {n line : Nat} {kind : BitVec 4} {f : Flit}
    (h : s.sendFlit n line kind f = some t) : t.MemOk ↔ s.MemOk := by
  revert h
  fun_cases State.sendFlit
  · simp
  · simp
  · rintro ⟨⟩
    simp
@[simp ↓] theorem State.memOk_sendFlit_getD (s : State) (n line : Nat) (kind : BitVec 4) (f : Flit) :
    ((s.sendFlit n line kind f).getD s).MemOk ↔ s.MemOk := by
  cases h : s.sendFlit n line kind f with
  | none => rfl
  | some t => exact State.memOk_sendFlit h
@[simp ↓] theorem State.memOk_sendReads (s : State) (l g : Nat) (ls : List (Nat × Nat)) :
    (s.sendReads l g ls).MemOk ↔ s.MemOk := by
  refine State.memOk_foldl_iff fun t x => ?_
  dsimp only
  split
  next u hu => simp [State.memOk_sendFlit hu]
  next => rfl
@[simp ↓] theorem State.memOk_sendWrites (s : State) (l g tile run : Nat) (ls : List (Nat × Nat)) :
    (s.sendWrites l g tile run ls).MemOk ↔ s.MemOk := by
  refine State.memOk_foldl_iff fun t x => ?_
  dsimp only
  split
  next u hu => simp [State.memOk_sendFlit hu]
  next => rfl

/-! ### The functions of Machine/Access.lean -/

@[simp ↓] theorem State.memOk_freeBytes (s : State) (n : Nat) : (s.freeBytes n).2.MemOk ↔ s.MemOk := Iff.rfl
@[simp ↓] theorem State.memOk_changeEntry (s : State) (p : Nat) (e : PtEntry) :
    (s.changeEntry p e).MemOk ↔ s.MemOk := by
  unfold State.changeEntry
  simp
@[simp ↓] theorem State.memOk_reportTier (s : State) (l r : Nat) (core : Option Nat) (status : Code) (page : Nat)
    (src : Option Nat) :
    (s.reportTier l r core status page src).MemOk ↔ s.MemOk := Iff.rfl
@[simp ↓] theorem State.memOk_poisonPage (s : State) (p off n : Nat) : (s.poisonPage p off n).MemOk ↔ s.MemOk := by
  fun_cases State.poisonPage <;> simp +zetaDelta
@[simp ↓] theorem State.memOk_heatRead (s : State) (p n : Nat) : (s.heatRead p n).MemOk ↔ s.MemOk := Iff.rfl
@[simp ↓] theorem State.memOk_translate (s : State) (l p : Nat) : (s.translate l p).2.MemOk ↔ s.MemOk := by
  fun_cases State.translate <;> simp
@[simp ↓] theorem State.memOk_steepTouch (s : State) (l p tier : Nat) : (s.steepTouch l p tier).MemOk ↔ s.MemOk := by
  fun_cases State.steepTouch <;> simp +zetaDelta
@[simp ↓] theorem State.memOk_walkRead (s : State) (l a n : Nat) : (s.walkRead l a n).2.MemOk ↔ s.MemOk := by
  refine State.memOk_foldl_snd_iff fun x q => ?_
  split <;> simp
@[simp ↓] theorem State.memOk_walkWrite (s : State) (l a n : Nat) : (s.walkWrite l a n).MemOk ↔ s.MemOk := by
  refine State.memOk_foldl_iff fun t q => ?_
  split <;> simp
@[simp ↓] theorem State.memOk_poisonRun (s : State) (n : Nat) : (s.poisonRun n).2.MemOk ↔ s.MemOk := Iff.rfl
@[simp ↓] theorem State.memOk_countSram (s : State) (l kind loc : Nat) :
    (s.countSram l kind loc).MemOk ↔ s.MemOk := Iff.rfl
@[simp ↓] theorem State.memOk_storageError (s : State) (lasting object : Bool) (l : Option Nat) (key : Nat) :
    (s.storageError lasting object l key).MemOk ↔ s.MemOk := by
  unfold State.storageError
  simp
@[simp ↓] theorem State.memOk_readDirect (s : State) (l : Option Nat) (key n : Nat) (o : ReadOutcome) :
    (s.readDirect l key n o).2.MemOk ↔ s.MemOk := by
  fun_cases State.readDirect <;> simp +zetaDelta
@[simp ↓] theorem State.memOk_reportCore (s : State) (l : Nat) (st : Code) (p : Nat) (src : Option Nat) :
    (s.reportCore l st p src).MemOk ↔ s.MemOk := by
  fun_cases State.reportCore <;> simp
@[simp ↓] theorem State.memOk_lateMiss (s : State) (l p : Nat) (src : Option Nat) :
    (s.lateMiss l p src).MemOk ↔ s.MemOk := by
  unfold State.lateMiss
  simp
@[simp ↓] theorem State.memOk_inTime (s : State) (l : Nat) : (s.inTime l).MemOk ↔ s.MemOk := Iff.rfl
@[simp ↓] theorem State.MemOk.readObject {s : State} {l p off n : Nat} {w0 : Word} {src : Option Nat}
    {o : ReadOutcome} (ok : s.MemOk) :
    (s.readObject l p off n w0 src o).2.MemOk := by
  fun_cases State.readObject
  case case6 report _ _ lower fails _ _ | case7 report _ _ lower fails _ =>
    simp only [fails]
    split <;> simp +zetaDelta [ok]
  all_goals simp +zetaDelta [ok]
@[simp ↓] theorem State.MemOk.readPart {s : State} {l a n : Nat} {ws : List (Nat × Word)} {src : Option Nat}
    {o : ReadOutcome} (ok : s.MemOk) :
    (s.readPart l a n ws src o).2.MemOk := by
  fun_cases State.readPart <;> simp +zetaDelta [ok]
@[simp ↓] theorem State.MemOk.readRange {s : State} {l a n : Nat} {ws : List (Nat × Word)} {src : Option Nat}
    {o : ReadOutcome} (ok : s.MemOk) :
    (s.readRange l a n ws src o).2.MemOk :=
  State.memOk_foldl_snd (fun x q hx => by simp [hx]) ok
@[simp ↓] theorem State.MemOk.writeFar {s : State} {k : Nat} {bs : List (Byte × Bool)} (ok : s.MemOk) :
    (s.writeFar k bs).MemOk := by
  unfold State.writeFar
  simp [ok]
@[simp ↓] theorem State.MemOk.putReplica {s : State} {p off : Nat} {bs : List (Byte × Bool)} (ok : s.MemOk) :
    (s.putReplica p off bs).MemOk := by
  fun_cases State.putReplica <;> simp [ok]
@[simp ↓] theorem State.MemOk.storePage {s : State} {p off : Nat} {w0 : Word} {bs : List (Byte × Bool)} {far : Bool}
    (ok : s.MemOk) :
    (s.storePage p off w0 bs far).2.MemOk := by
  fun_cases State.storePage
  next e k _ s₁ =>
    have h₁ : s₁.MemOk := by
      unfold s₁
      repeat' split
      all_goals simp [ok]
    simp [h₁]
  all_goals exact ok
@[simp ↓] theorem State.MemOk.writeObject {s : State} {l p off : Nat} {bs : List (Byte × Bool)} (ok : s.MemOk) :
    (s.writeObject l p off bs).2.MemOk := by
  fun_cases State.writeObject <;> (try split) <;> simp +zetaDelta [ok]
@[simp ↓] theorem State.MemOk.writePart {s : State} {l a : Nat} {bs : List (Byte × Bool)} (ok : s.MemOk) :
    (s.writePart l a bs).2.MemOk := by
  fun_cases State.writePart <;> simp [ok]
@[simp ↓] theorem State.MemOk.writeRange {s : State} {l a : Nat} {bs : List (Byte × Bool)} (ok : s.MemOk) :
    (s.writeRange l a bs).2.MemOk :=
  State.memOk_foldl_snd (fun x q hx => by simp [hx]) ok
@[simp ↓] theorem State.memOk_tablePut (s : State) (off : Nat) (bs : List Byte) :
    (s.tablePut off bs).MemOk ↔ s.MemOk := by
  unfold State.tablePut
  simp
@[simp ↓] theorem State.MemOk.objectPut {s : State} {a : Nat} {bs : List (Byte × Bool)} (ok : s.MemOk) :
    (s.objectPut a bs).2.MemOk := by
  fun_cases State.objectPut <;> simp [ok]
@[simp ↓] theorem State.MemOk.nemarPut {s : State} {a : Nat} {bs : List (Byte × Bool)} (ok : s.MemOk) :
    (s.nemarPut a bs).2.MemOk := by
  fun_cases State.nemarPut <;> simp [ok]

/-! ### The functions of Machine/FabricBase.lean -/

@[simp ↓] theorem State.memOk_dropReads (s : State) (xs : List FabRead) : (s.dropReads xs).MemOk ↔ s.MemOk := Iff.rfl
@[simp ↓] theorem State.memOk_dropWrites (s : State) (xs : List FabWrite) :
    (s.dropWrites xs).MemOk ↔ s.MemOk := Iff.rfl
@[simp ↓] theorem State.MemOk.globalWrite {s : State} {a : Nat} {bs : List (Byte × Bool)} {nemar : Bool}
    {own : FarOwner} (ok : s.MemOk) :
    (s.globalWrite a bs nemar own).2.MemOk := by
  refine State.memOk_foldl_snd (fun x q hx => ?_) ok
  dsimp only
  split
  · simp [hx]
  · split <;> simp [hx]
@[simp ↓] theorem State.memOk_sendOne (s : State) (l key : Nat) (kind : FlitKind) :
    (s.sendOne l key kind).2.MemOk ↔ s.MemOk := by
  fun_cases State.sendOne <;> simp +zetaDelta
@[simp ↓] theorem State.memOk_askMesh (s : State) (l owner : Nat) (ps : List (Nat × Nat)) :
    (s.askMesh l owner ps).2.MemOk ↔ s.MemOk :=
  State.memOk_foldl_snd_iff fun x q => by simp
@[simp ↓] theorem State.memOk_writeMesh (s : State) (l owner tile run : Nat) (ps : List (Nat × Nat)) :
    (s.writeMesh l owner tile run ps).2.MemOk ↔ s.MemOk :=
  State.memOk_foldl_snd_iff fun x q => by simp
@[simp ↓] theorem State.memOk_dropFlits (s : State) (ns : List Nat) : (s.dropFlits ns).MemOk ↔ s.MemOk := Iff.rfl
@[simp ↓] theorem State.memOk_settleTiles (s : State) (l g : Nat) : (s.settleTiles l g).MemOk ↔ s.MemOk := Iff.rfl
@[simp ↓] theorem State.memOk_countRun (s : State) (l g tile run : Nat) :
    (s.countRun l g tile run).MemOk ↔ s.MemOk := Iff.rfl
@[simp ↓] theorem State.memOk_sendCtrl (s : State) (n : Nat) (m : CtrlMsg) : (s.sendCtrl n m).MemOk ↔ s.MemOk :=
  State.memOk_sendFlit_getD ..
@[simp ↓] theorem State.memOk_setModBar (s : State) (j : Nat) (m : ModBarrier) :
    (s.setModBar j m).MemOk ↔ s.MemOk := Iff.rfl
@[simp ↓] theorem State.memOk_setBarCount (s : State) (x : BarCount) : (s.setBarCount x).MemOk ↔ s.MemOk := Iff.rfl
@[simp ↓] theorem State.memOk_dieReleases (s : State) (key gen d : Nat) :
    (s.dieReleases key gen d).MemOk ↔ s.MemOk := by
  unfold State.dieReleases
  simp
@[simp ↓] theorem State.memOk_releaseCount (s : State) (key gen : Nat) :
    (s.releaseCount key gen).MemOk ↔ s.MemOk := by
  refine (State.memOk_foldl_iff fun t d => ?_).trans (State.memOk_setBarCount ..)
  split <;> (try split) <;> simp
@[simp ↓] theorem State.memOk_releaseModule (s : State) (b gen : Nat) : (s.releaseModule b gen).MemOk ↔ s.MemOk := by
  unfold State.releaseModule
  simp
@[simp ↓] theorem State.memOk_completeModule (s : State) (b gen : Nat) :
    (s.completeModule b gen).MemOk ↔ s.MemOk := by
  fun_cases State.completeModule <;> simp
@[simp ↓] theorem State.memOk_rootHears (s : State) (key gen d : Nat) : (s.rootHears key gen d).MemOk ↔ s.MemOk := by
  unfold State.rootHears
  simp
@[simp ↓] theorem State.memOk_dieCounts (s : State) (l key gen : Nat) : (s.dieCounts l key gen).MemOk ↔ s.MemOk := by
  fun_cases State.dieCounts <;> simp +zetaDelta
@[simp ↓] theorem State.memOk_dropArrivals (s : State) (b : Nat) : (s.dropArrivals b).MemOk ↔ s.MemOk := Iff.rfl
@[simp ↓] theorem State.memOk_leaveCounts (s : State) (l : Nat) : (s.leaveCounts l).MemOk ↔ s.MemOk := Iff.rfl
@[simp ↓] theorem State.memOk_failBarrier (s : State) (b : Nat) (from_ : Option Nat) :
    (s.failBarrier b from_).MemOk ↔ s.MemOk := by
  fun_cases State.failBarrier <;> simp +zetaDelta
@[simp ↓] theorem State.memOk_failRegionBarriers (s : State) (r : Nat) :
    (s.failRegionBarriers r).MemOk ↔ s.MemOk := by
  unfold State.failRegionBarriers
  simp
@[simp ↓] theorem State.memOk_dropRegionCounts (s : State) (r : Nat) :
    (s.dropRegionCounts r).MemOk ↔ s.MemOk := Iff.rfl

/-! ### The functions of Machine/Recover.lean -/

@[simp ↓] theorem State.MemOk.copySpan {s : State} {src dst n : Nat} (ok : s.MemOk) :
    (s.copySpan src dst n).MemOk :=
  ⟨State.wf_copySpan src dst n ok.mem, by simp [State.copySpan, ok]⟩
@[simp ↓] theorem State.MemOk.freeSpan {s : State} {a n : Nat} {mark : Bool} (ok : s.MemOk) :
    (s.freeSpan a n mark).MemOk :=
  ⟨State.wf_freeSpan a n mark ok.mem, by simp [State.freeSpan, ok]⟩
@[simp ↓] theorem State.MemOk.undefineCore {s : State} {l : Nat} (ok : s.MemOk) : (s.undefineCore l).MemOk := by
  unfold State.undefineCore
  simp [ok]
@[simp ↓] theorem State.memOk_stopCores (s : State) (r : Nat) : (s.stopCores r).MemOk ↔ s.MemOk := by
  unfold State.stopCores
  simp
@[simp ↓] theorem State.memOk_sendScan (s : State) (r : Nat) (out : Bool) : (s.sendScan r out).MemOk ↔ s.MemOk := by
  refine State.memOk_foldl_iff (fun t l => State.memOk_foldl_iff (fun t i => ?_))
  simp
@[simp ↓] theorem State.memOk_scanned (s : State) (r : Nat) : (s.scanned r).MemOk ↔ s.MemOk := Iff.rfl
@[simp ↓] theorem State.memOk_scanIfStopped (s : State) (r : Nat) : (s.scanIfStopped r).MemOk ↔ s.MemOk := by
  fun_cases State.scanIfStopped <;> simp
@[simp ↓] theorem State.memOk_startScan (s : State) (r : Nat) (cause : ScanCause) (savePool : Bool) :
    (s.startScan r cause savePool).MemOk ↔ s.MemOk := by
  unfold State.startScan
  simp
@[simp ↓] theorem State.MemOk.saveImage {s : State} {g : Region} {l : Nat} (ok : s.MemOk) :
    (s.saveImage g l).MemOk :=
  ⟨State.wf_saveImage g l ok.mem, by simp [State.saveImage, ok]⟩
@[simp ↓] theorem State.MemOk.saveImages {s : State} {r : Nat} (ok : s.MemOk) : (s.saveImages r).MemOk := by
  refine State.memOk_foldl (fun t l ht => ?_) ok
  simp [ht.saveImage]
@[simp ↓] theorem State.memOk_startFlood (s : State) (r : Nat) : (s.startFlood r).MemOk ↔ s.MemOk := by
  unfold State.startFlood
  simp
@[simp ↓] theorem State.memOk_stopFlood (s : State) (r : Nat) : (s.stopFlood r).MemOk ↔ s.MemOk := Iff.rfl
@[simp ↓] theorem State.MemOk.restoreImages {s : State} {r : Nat} (ok : s.MemOk) : (s.restoreImages r).MemOk := by
  refine State.memOk_foldl (fun t l ht => ?_) ok
  split
  · dsimp only
    split
    · exact State.MemOk.copySpan (by simp [ht])
    · simp [ht]
  · exact ht
@[simp ↓] theorem State.memOk_recordFault (s : State) (k : Nat) : (s.recordFault k).MemOk ↔ s.MemOk := by
  unfold State.recordFault
  simp
@[simp ↓] theorem State.memOk_writeRow (s : State) (k : Nat) (w : Row) : (s.writeRow k w).MemOk ↔ s.MemOk := by
  unfold State.writeRow
  simp
@[simp ↓] theorem State.memOk_fence (s : State) (p : Nat) (routerFailed : Bool) :
    (s.fence p routerFailed).MemOk ↔ s.MemOk := by
  fun_cases State.fence
  next s₁ s₂ w s₃ =>
    have h₁ : s₁.MemOk ↔ s.MemOk := by
      unfold s₁
      split <;> simp
    simp [s₂, s₃, h₁]
@[simp ↓] theorem State.MemOk.commitFence {s : State} {p : Nat} (ok : s.MemOk) : (s.commitFence p).MemOk := by
  unfold State.commitFence
  simp +contextual [ok]
@[simp ↓] theorem State.memOk_leaveReplacement (s : State) (r : Nat) :
    (s.leaveReplacement r).1.MemOk ↔ s.MemOk := Iff.rfl
@[simp ↓] theorem State.memOk_doneReplaced (s : State) (r : Nat) : (s.doneReplaced r).MemOk ↔ s.MemOk := Iff.rfl
@[simp ↓] theorem State.memOk_leaveArb (s : State) (r : Nat) (rect : Word) : (s.leaveArb r rect).MemOk ↔ s.MemOk := by
  fun_cases State.leaveArb <;> simp
@[simp ↓] theorem State.memOk_rewriteArb (s : State) (r : Nat) : (s.rewriteArb r).MemOk ↔ s.MemOk := by
  fun_cases State.rewriteArb <;> simp +zetaDelta
@[simp ↓] theorem State.MemOk.stageVoid {s : State} {r : Nat} (ok : s.MemOk) : (s.stageVoid r).MemOk := by
  fun_cases State.stageVoid
  next g s₁ =>
    have h₁ : s₁.MemOk := State.memOk_foldl (fun t l ht => by split <;> simp [ht]) ok
    simp [h₁]
@[simp ↓] theorem State.MemOk.floodReplaced {s : State} {r : Nat} (ok : s.MemOk) : (s.floodReplaced r).MemOk := by
  fun_cases State.floodReplaced <;> simp +zetaDelta +contextual [ok]
@[simp ↓] theorem State.MemOk.testSpares {p n : Nat} {s : State} (ok : s.MemOk) : (State.testSpares p n s).MemOk := by
  induction n generalizing s with
  | zero => exact ok
  | succ n ih =>
    rw [State.testSpares]
    dsimp only
    split
    · exact ih (by simp [ok])
    · exact ok
@[simp ↓] theorem State.memOk_logCoreLost (s : State) (l : Option Nat) (p cause r : Nat) (set : NumSet) :
    (s.logCoreLost l p cause r set).MemOk ↔ s.MemOk := by
  unfold State.logCoreLost
  simp
@[simp ↓] theorem State.MemOk.failReplaced {s : State} {r : Nat} (ok : s.MemOk) : (s.failReplaced r).MemOk := by
  fun_cases State.failReplaced <;> simp +zetaDelta +contextual [ok]
@[simp ↓] theorem State.MemOk.commitReplacement {s : State} {x : Replacement} (ok : s.MemOk) :
    (s.commitReplacement x).MemOk := by
  fun_cases State.commitReplacement
  next s₁ lost s₂ fences moved s₃ s₄ =>
    have h₁ : s₁.MemOk := State.memOk_foldl (fun t p ht => ht.testSpares) ok
    have h₂ : s₂.MemOk := State.memOk_foldl (fun t r ht => ht.failReplaced) h₁
    have h₃ : s₃.MemOk := State.memOk_foldl (fun t p ht => by simp [ht]) h₂
    refine State.memOk_foldl (fun t r ht => ?_) (by simp [s₄, h₃])
    dsimp only
    repeat' split
    all_goals simp [ht]
@[simp ↓] theorem State.MemOk.endReplacements {s : State} (ok : s.MemOk) : s.endReplacements.MemOk := by
  refine State.memOk_foldl (fun t x ht => State.memOk_foldl (fun t c ht => ?_) ht) (by simp [ok])
  simp [ht]
@[simp ↓] theorem State.MemOk.advanceReplacements {s : State} (ok : s.MemOk) : s.advanceReplacements.MemOk := by
  have h₁ := State.memOk_foldl (xs := s.nemar.replacements)
    (f := fun t x => if t.mayCommit x then t.commitReplacement x else t) (fun t x ht => by split <;> simp [ht]) ok
  exact h₁.endReplacements
@[simp ↓] theorem State.memOk_forceSave (s : State) (r : Nat) : (s.forceSave r).MemOk ↔ s.MemOk := Iff.rfl
@[simp ↓] theorem State.memOk_joinReplacement (s : State) (r : Nat) : (s.joinReplacement r).MemOk ↔ s.MemOk := by
  fun_cases State.joinReplacement <;> simp
@[simp ↓] theorem State.MemOk.startReplacement {s : State} {fences : List Nat} {r : Nat} {cmd : Option CmdRef}
    (ok : s.MemOk) :
    (s.startReplacement fences r cmd).MemOk := by
  unfold State.startReplacement
  simp [ok]
@[simp ↓] theorem State.MemOk.replaceRegion {s : State} {r : Nat} {cmd : Option CmdRef} (ok : s.MemOk) :
    (s.replaceRegion r cmd).MemOk := by
  unfold State.replaceRegion
  simp [ok]
@[simp ↓] theorem State.MemOk.spoilImages {s : State} {r : Nat} (ok : s.MemOk) : (s.spoilImages r).MemOk := by
  refine State.memOk_foldl (fun t l ht => ?_) ok
  dsimp only
  repeat' split
  all_goals simp [ht.freeSpan]
@[simp ↓] theorem State.MemOk.resetRegion {s : State} {r : Nat} (ok : s.MemOk) : (s.resetRegion r).MemOk := by
  fun_cases State.resetRegion
  next g s₁ s₂ s₃ s₄ y s₅ =>
    have h₁ : s₁.MemOk := by simp [s₁, ok]
    have h₂ : s₂.MemOk := by simp +contextual [s₂, h₁]
    have h₄ : s₄.MemOk := by simp [s₄, s₃, h₂]
    have h₅ : s₅.MemOk := State.memOk_foldl (fun t k ht => ht.finish) (by simp [y, h₄])
    simp [h₅]
@[simp ↓] theorem State.memOk_dropContribs (s : State) (r : Nat) : (s.dropContribs r).MemOk ↔ s.MemOk := Iff.rfl
@[simp ↓] theorem State.MemOk.leaveFlood {s : State} {r : Nat} (ok : s.MemOk) : (s.leaveFlood r).1.MemOk := by
  unfold State.leaveFlood
  simp [ok]
@[simp ↓] theorem State.MemOk.loseRegion {s : State} {r : Nat} {l : Option Nat} {cause : Nat} (ok : s.MemOk) :
    (s.loseRegion r l cause).MemOk := by
  fun_cases State.loseRegion <;> simp +zetaDelta +contextual [ok]
@[simp ↓] theorem State.MemOk.afterLoss {s : State} {r : Nat} (ok : s.MemOk) : (s.afterLoss r).MemOk := by
  fun_cases State.afterLoss <;> simp [ok]
@[simp ↓] theorem State.MemOk.loseCore {s : State} {p cause : Nat} (ok : s.MemOk) : (s.loseCore p cause).MemOk := by
  fun_cases State.loseCore <;> simp +zetaDelta [ok]
@[simp ↓] theorem State.MemOk.loseEntryOf {s : State} {r : Nat} (ok : s.MemOk) : (s.loseEntryOf r).MemOk := by
  fun_cases State.loseEntryOf <;> simp [ok]

/-! ### The functions of Machine/CmdBase.lean -/

@[simp ↓] theorem State.MemOk.runCommand {s : State} {k : CmdRef} {op : Nat} {body : Command → State → State}
    (hb : ∀ c t, t.MemOk → (body c t).MemOk) (ok : s.MemOk) :
    (s.runCommand k op body).MemOk := by
  fun_cases State.runCommand <;> simp [ok, hb]
@[simp ↓] theorem State.MemOk.refuseState {s : State} {c : Command} (ok : s.MemOk) : (s.refuseState c).MemOk := by
  unfold State.refuseState
  simp [ok]
@[simp ↓] theorem State.MemOk.refuseBusy {s : State} {c : Command} (ok : s.MemOk) : (s.refuseBusy c).MemOk := by
  unfold State.refuseBusy
  simp [ok]
@[simp ↓] theorem State.MemOk.refuseCheck {s : State} {c : Command} {x : Refused} (ok : s.MemOk) :
    (s.refuseCheck c x).MemOk := by
  unfold State.refuseCheck
  simp [ok]

/-! ### The functions of Machine/Queues.lean -/

@[simp ↓] theorem State.MemOk.arrive {s : State} {l n : Nat} {e : Entry} (ok : s.MemOk) : (s.arrive l n e).MemOk := by
  fun_cases State.arrive
  next c q s₁ =>
    have h₁ : s₁.MemOk := by
      unfold s₁
      repeat' split
      all_goals simp [ok]
    simp [h₁]
@[simp ↓] theorem State.MemOk.spilling {s : State} {l : Nat} {lines : List Nat} {move : State → State}
    (hb : ∀ t, t.MemOk → (move t).MemOk) (ok : s.MemOk) :
    (s.spilling l lines move).MemOk := by
  fun_cases State.spilling <;> simp +zetaDelta [ok, hb]

/-! ### The functions of Machine/MeshRows.lean -/

@[simp ↓] theorem State.memOk_loseDma (s : State) (l ch key n : Nat) : (s.loseDma l ch key n).MemOk ↔ s.MemOk := by
  fun_cases State.loseDma <;> simp
@[simp ↓] theorem State.MemOk.undoWrite {s : State} {key n : Nat} (ok : s.MemOk) : (s.undoWrite key n).MemOk := by
  unfold State.undoWrite
  simp [ok]
@[simp ↓] theorem State.MemOk.loseWrite {s : State} {l o key n tile run : Nat} {counted : Bool} (ok : s.MemOk) :
    (s.loseWrite l o key n tile run counted).MemOk := by
  unfold State.loseWrite
  simp [ok]
@[simp ↓] theorem State.MemOk.dropLost {s : State} {n : Nat} (ok : s.MemOk) : (s.dropLost n).1.MemOk := by
  fun_cases State.dropLost <;> simp [ok]
@[simp ↓] theorem State.MemOk.loseFlit {s : State} {n : Nat} (ok : s.MemOk) : (s.loseFlit n).MemOk := by
  fun_cases State.loseFlit <;> simp +zetaDelta [ok]
@[simp ↓] theorem State.MemOk.loseFlits {s : State} {ns : List Nat} (ok : s.MemOk) : (s.loseFlits ns).1.MemOk := by
  refine List.foldlRecOn (motive := fun x : State × NumSet => x.1.MemOk) _ _ ok (fun x hx n _ => ?_)
  simp [hx]
@[simp ↓] theorem State.memOk_enter (s : State) (n : Nat) (f : MeshFlit) (x y : Nat) (lane : Bool) :
    (s.enter n f x y lane).MemOk ↔ s.MemOk := by
  unfold State.enter
  simp
@[simp ↓] theorem State.MemOk.crossing {s : State} {n : Nat} {f : MeshFlit} {port x y : Nat} {lane : Bool}
    {o : HopOutcome} (ok : s.MemOk) :
    (s.crossing n f port x y lane o).MemOk := by
  fun_cases State.crossing <;> simp +zetaDelta [ok]
@[simp ↓] theorem State.memOk_edgeHears (s : State) (n : Nat) (f : MeshFlit) (e k : Nat) (write : Bool) :
    (s.edgeHears n f e k write).MemOk ↔ s.MemOk := by
  fun_cases State.edgeHears <;> simp +zetaDelta
@[simp ↓] theorem State.memOk_deliver (s : State) (n : Nat) (f : MeshFlit) : (s.deliver n f).MemOk ↔ s.MemOk := by
  fun_cases State.deliver <;> simp +zetaDelta
@[simp ↓] theorem State.memOk_granted (s : State) (link i : Nat) (lane : Bool) (rs : List (Nat × LinkAsk)) :
    (s.granted link i lane rs).MemOk ↔ s.MemOk := Iff.rfl
@[simp ↓] theorem State.memOk_turned (s : State) (f : MeshFlit) : (s.turned f).MemOk ↔ s.MemOk := by
  unfold State.turned
  simp
@[simp ↓] theorem State.MemOk.forward {s : State} {n : Nat} {f : MeshFlit} {port : Nat} {lane : Bool} {o : HopOutcome}
    (ok : s.MemOk) :
    (s.forward n f port lane o).MemOk := by
  fun_cases State.forward <;> simp [ok]
@[simp ↓] theorem State.memOk_leaveFifo (s : State) (n : Nat) (f : MeshFlit) : (s.leaveFifo n f).MemOk ↔ s.MemOk := by
  fun_cases State.leaveFifo <;> simp
@[simp ↓] theorem State.MemOk.hop {s : State} {n : Nat} {o : HopOutcome} (ok : s.MemOk) : (s.hop n o).MemOk := by
  fun_cases State.hop <;> simp [ok]
@[simp ↓] theorem State.MemOk.loseUnreached {s : State} {l : Nat} (ok : s.MemOk) : (s.loseUnreached l).MemOk := by
  fun_cases State.loseUnreached <;> simp +zetaDelta [ok]
@[simp ↓] theorem State.MemOk.startPlan {s : State} {p : RoutePlan} (ok : s.MemOk) : (s.startPlan p).MemOk := by
  fun_cases State.startPlan <;> simp +zetaDelta +contextual [ok]
@[simp ↓] theorem State.MemOk.endPlan {s : State} (ok : s.MemOk) : s.endPlan.MemOk := by
  fun_cases State.endPlan
  case case2 x _ _ s₁ s₂ s₃ _ _ _ | case3 x _ _ s₁ s₂ s₃ _ =>
    have h₁ : s₁.MemOk := State.memOk_foldl (fun t p ht => by simp [ht]) ok
    have h₂ : s₂.MemOk := by
      unfold s₂
      split <;> simp [h₁]
    simp [s₃, h₂]
  all_goals exact ok
@[simp ↓] theorem State.memOk_mapArbiter (s : State) (l a : Nat) (f : Core → Arbiter → Arbiter) :
    (s.mapArbiter l a f).MemOk ↔ s.MemOk := Iff.rfl
@[simp ↓] theorem State.memOk_freshBarrier (s : State) (b : Nat) : (s.freshBarrier b).MemOk ↔ s.MemOk := Iff.rfl

/-! ### The functions of Machine/ZLink.lean -/

@[simp ↓] theorem State.memOk_mapPort (s : State) (p : Nat) (f : ZPortState → ZPortState) :
    (s.mapPort p f).MemOk ↔ s.MemOk := Iff.rfl
@[simp ↓] theorem State.memOk_portRetried (s : State) (p : Nat) : (s.portRetried p).MemOk ↔ s.MemOk := by
  unfold State.portRetried
  simp
@[simp ↓] theorem State.MemOk.receive {s : State} {p : Nat} {f : Flit} {body : State → State}
    (hb : ∀ t, t.MemOk → (body t).MemOk) (ok : s.MemOk) :
    (s.receive p f body).MemOk := by
  fun_cases State.receive
  case case4 x _ _ s₁ s₂ _ => exact hb _ (by simp [s₂, s₁, ok])
  all_goals simp +zetaDelta [ok]
@[simp ↓] theorem State.memOk_portLasting (s : State) (p : Nat) : (s.portLasting p).MemOk ↔ s.MemOk := by
  unfold State.portLasting
  simp
@[simp ↓] theorem State.memOk_answer (s : State) (f : Flit) (kind : BitVec 4) (g : Flit) :
    (s.answer f kind g).MemOk ↔ s.MemOk :=
  State.memOk_sendFlit_getD ..
@[simp ↓] theorem State.memOk_answerErr (s : State) (f : Flit) (cause : Nat) :
    (s.answerErr f cause).MemOk ↔ s.MemOk := by
  unfold State.answerErr
  simp
@[simp ↓] theorem State.MemOk.fabricStore {s : State} {f : Flit} {bs : List (Byte × Bool)} (ok : s.MemOk) :
    (s.fabricStore f bs).MemOk := by
  unfold State.fabricStore
  simp +contextual [ok]
@[simp ↓] theorem State.memOk_endRunLine (s : State) (w : FabWrite) (accepted : Bool) :
    (s.endRunLine w accepted).MemOk ↔ s.MemOk := by
  unfold State.endRunLine
  simp
@[simp ↓] theorem State.MemOk.undefineLine {s : State} {l : Nat} {spans : List (Nat × Nat × Nat × Int)}
    {node line : Nat} (ok : s.MemOk) :
    (s.undefineLine l spans node line).MemOk := by
  refine State.memOk_foldl (fun t x ht => State.memOk_foldl (fun t r ht => State.memOk_foldl (fun t q ht => ?_) ht) ht) ok
  simp [ht]
@[simp ↓] theorem State.MemOk.endLine {s : State} {w : FabWrite} {accepted : Bool} (ok : s.MemOk) :
    (s.endLine w accepted).MemOk := by
  fun_cases State.endLine <;> simp [ok]
@[simp ↓] theorem State.MemOk.endWrite {s : State} {tag : BitVec 12} {node : NodeId} {accepted : Bool} (ok : s.MemOk)
    :
    (s.endWrite tag node accepted).MemOk := by
  fun_cases State.endWrite <;> simp [ok]
@[simp ↓] theorem State.memOk_failRead (s : State) (r : FabRead) : (s.failRead r).MemOk ↔ s.MemOk := Iff.rfl

/-! ### The functions of Machine/Pour.lean -/

@[simp ↓] theorem State.MemOk.undefineRange {s : State} {a n : Nat} (ok : s.MemOk) : (s.undefineRange a n).MemOk := by
  refine State.memOk_foldl (fun t q ht => ?_) ok
  split <;> simp [ht]
@[simp ↓] theorem State.memOk_failContribution (s : State) (x : Contribution) (status : Nat) :
    (s.failContribution x status).MemOk ↔ s.MemOk := by
  unfold State.failContribution
  simp
@[simp ↓] theorem State.memOk_failContributions (s : State) (slot status : Nat) (hit : Contribution → Bool) :
    (s.failContributions slot status hit).MemOk ↔ s.MemOk := by
  unfold State.failContributions
  simp
@[simp ↓] theorem State.memOk_releaseResults (s : State) (slot : Nat) :
    (s.releaseResults slot).MemOk ↔ s.MemOk := Iff.rfl
@[simp ↓] theorem State.memOk_nakRound (s : State) (slot cause : Nat) : (s.nakRound slot cause).MemOk ↔ s.MemOk := by
  refine State.memOk_foldl_iff fun t n => ?_
  split <;> simp
@[simp ↓] theorem State.MemOk.failRound {s : State} {slot : Nat} {status : Code} {cause kappa : Nat} (ok : s.MemOk) :
    (s.failRound slot status cause kappa).MemOk := by
  fun_cases State.failRound
  case case1 p s₁ s₂ l c g s₃ s₄ _ _ | case2 p s₁ s₂ l c g s₃ s₄ _ =>
    have h₂ : s₂.MemOk := by simp [s₂, s₁, ok]
    have h₄ : s₄.MemOk := by simp [s₄, s₃, h₂]
    simp [h₄]
@[simp ↓] theorem State.memOk_awaitResult (s : State) (slot line : Nat) :
    (s.awaitResult slot line).MemOk ↔ s.MemOk := by
  fun_cases State.awaitResult <;> simp
@[simp ↓] theorem State.MemOk.foldIfWhole {s : State} {slot line : Nat} (ok : s.MemOk) :
    (s.foldIfWhole slot line).MemOk := by
  fun_cases State.foldIfWhole
  case case3 | case4 => have h₁ := ok.globalWrite.of_snd ‹_›; simp [h₁]
  case case5 => exact ok.globalWrite.of_snd ‹_›
  all_goals simp [ok]
@[simp ↓] theorem State.memOk_grant (s : State) (slot rnd w : Nat) : (s.grant slot rnd w).MemOk ↔ s.MemOk := by
  refine (State.memOk_foldl_iff fun t n => ?_).trans (State.memOk_setPour ..)
  split <;> simp
@[simp ↓] theorem State.memOk_countAccepted (s : State) (x : Contribution) : (s.countAccepted x).MemOk ↔ s.MemOk := by
  fun_cases State.countAccepted <;> simp
@[simp ↓] theorem State.memOk_roundOver (s : State) (slot rnd : Nat) : (s.roundOver slot rnd).MemOk ↔ s.MemOk := by
  unfold State.roundOver
  simp
@[simp ↓] theorem State.memOk_advanceRound (s : State) (slot low : Nat) :
    (s.advanceRound slot low).MemOk ↔ s.MemOk := by
  fun_cases State.advanceRound <;> simp +zetaDelta
@[simp ↓] theorem State.memOk_askPart (s : State) (slot : Nat) : (s.askPart slot).MemOk ↔ s.MemOk := by
  fun_cases State.askPart <;> simp
@[simp ↓] theorem State.memOk_givePart (s : State) (r : Nat) : (s.givePart r).MemOk ↔ s.MemOk := by
  fun_cases State.givePart <;> simp
@[simp ↓] theorem State.memOk_giveParts (s : State) (r : Nat) : (s.giveParts r).MemOk ↔ s.MemOk := by
  unfold State.giveParts
  simp
@[simp ↓] theorem State.MemOk.storeLine {s : State} {slot kappa line node : Nat} {w : Line} {bad : Bool}
    (ok : s.MemOk) :
    (s.storeLine slot kappa line node w bad).MemOk := by
  unfold State.storeLine
  simp [ok]
@[simp ↓] theorem State.memOk_countRefused (s : State) (slot : Nat) : (s.countRefused slot).MemOk ↔ s.MemOk := Iff.rfl
@[simp ↓] theorem State.memOk_sourceLine (s : State) (x : Contribution) : (s.sourceLine x).2.MemOk ↔ s.MemOk := by
  fun_cases State.sourceLine <;> simp
@[simp ↓] theorem State.memOk_countSent (s : State) (x : Contribution) : (s.countSent x).MemOk ↔ s.MemOk := Iff.rfl
@[simp ↓] theorem State.memOk_countTaken (s : State) (x : Contribution) : (s.countTaken x).MemOk ↔ s.MemOk := by
  unfold State.countTaken
  simp
@[simp ↓] theorem State.memOk_settleSent (s : State) : s.settleSent.MemOk ↔ s.MemOk := by
  unfold State.settleSent
  simp
@[simp ↓] theorem State.MemOk.foldLocal {s : State} {x : Contribution} (ok : s.MemOk) : (s.foldLocal x).MemOk := by
  fun_cases State.foldLocal <;> simp +zetaDelta [ok]
theorem State.MemOk.sendLine {s : State} {x : Contribution} (ok : s.MemOk) :
    ∀ t, s.sendLine x = some t → t.MemOk :=
  fun _ h => (State.memOk_sendFlit h).2 ((State.memOk_sourceLine ..).2 ok)
@[simp ↓] theorem State.MemOk.pumpPour {slot n : Nat} {s : State} (ok : s.MemOk) :
    (State.pumpPour slot n s).MemOk := by
  induction n generalizing s with
  | zero => exact ok
  | succ n ih =>
    rw [State.pumpPour]
    split
    · exact ok
    · split
      · exact ih ok.foldLocal
      · split
        next t ht => exact ih (by simp [ok.sendLine t ht])
        next => exact ih (by simp [ok])
@[simp ↓] theorem State.MemOk.takeLines {s : State} {f : Flit} (ok : s.MemOk) : (s.takeLines f).MemOk := by
  refine State.memOk_foldl (fun t i ht => ?_) ok
  dsimp only
  split <;> simp [ht]
@[simp ↓] theorem State.memOk_askOwn (s : State) (slot : Nat) : (s.askOwn slot).MemOk ↔ s.MemOk := by
  fun_cases State.askOwn <;> simp
@[simp ↓] theorem State.MemOk.takeWaiting {s : State} {r : Nat} (ok : s.MemOk) : (s.takeWaiting r).MemOk := by
  refine State.memOk_foldl (fun t f ht => ?_) ok
  repeat' split
  all_goals simp [ht]
@[simp ↓] theorem State.MemOk.retryFolds {s : State} {slot : Nat} (ok : s.MemOk) : (s.retryFolds slot).MemOk := by
  fun_cases State.retryFolds <;> simp +contextual [ok]
@[simp ↓] theorem State.MemOk.runReducer {s : State} {r : Nat} (ok : s.MemOk) : (s.runReducer r).MemOk := by
  fun_cases State.runReducer
  next n mine s₁ s₂ =>
    have h₁ : s₁.MemOk := State.memOk_foldl (fun t e ht => ht.retryFolds) ok
    have h₂ : s₂.MemOk := by simp +contextual [s₂, h₁]
    exact State.memOk_foldl (fun t k ht => ht.pumpPour) h₂
@[simp ↓] theorem State.MemOk.runPours {s : State} {slot : Nat} (ok : s.MemOk) : (s.runPours slot).MemOk := by
  unfold State.runPours
  simp [ok]
@[simp ↓] theorem State.MemOk.runAllPours {s : State} (ok : s.MemOk) : s.runAllPours.MemOk := by
  unfold State.runAllPours
  simp +contextual [ok]
@[simp ↓] theorem State.MemOk.takePour {s : State} {f : Flit} (ok : s.MemOk) : (s.takePour f).MemOk := by
  fun_cases State.takePour
  · exact ok
  next slot _ s₁ s₂ =>
    have h₁ : s₁.MemOk := by simp [s₁, ok]
    have h₂ : s₂.MemOk := by simp [s₂, h₁]
    exact h₂.runPours
@[simp ↓] theorem State.MemOk.answered {s : State} {tag : BitVec 12} {node : NodeId} {accepted : Bool} (ok : s.MemOk)
    :
    (s.answered tag node accepted).MemOk := by
  fun_cases State.answered <;> simp [ok]

/-! ### The functions of Machine/Reshard.lean -/

@[simp ↓] theorem State.memOk_owe (s : State) (n : Nat) (m : CtrlMsg) : (s.owe n m).MemOk ↔ s.MemOk := Iff.rfl
@[simp ↓] theorem State.memOk_tellAll (s : State) (m : CtrlMsg) : (s.tellAll m).MemOk ↔ s.MemOk := by
  refine State.memOk_foldl_iff fun t n => ?_
  split
  next u hu => exact State.memOk_sendFlit hu
  next => split <;> simp
@[simp ↓] theorem State.memOk_setReshard (s : State) (x : Option Reshard) :
    (s.setReshard x).MemOk ↔ s.MemOk := Iff.rfl
@[simp ↓] theorem State.memOk_dropFar (s : State) (gen : Nat) (hit : Nat → Bool) :
    (s.dropFar gen hit).MemOk ↔ s.MemOk := Iff.rfl
@[simp ↓] theorem State.MemOk.dropReshard {s : State} {status : Code} (ok : s.MemOk) :
    (s.dropReshard status).MemOk := by
  fun_cases State.dropReshard <;> simp [ok]
@[simp ↓] theorem State.MemOk.undefineTable {s : State} {t : List (Nat × Nat × Nat)} (ok : s.MemOk) :
    (s.undefineTable t).MemOk := by
  unfold State.undefineTable
  simp +contextual [ok]
@[simp ↓] theorem State.MemOk.failReshard {s : State} {tell : Bool} (ok : s.MemOk) : (s.failReshard tell).MemOk := by
  fun_cases State.failReshard
  · exact ok
  next x _ s₁ =>
    have h₁ : s₁.MemOk := by
      unfold s₁
      repeat' split
      all_goals simp [ok]
    simp [h₁]
@[simp ↓] theorem State.MemOk.commitReshard {s : State} (ok : s.MemOk) : s.commitReshard.MemOk := by
  fun_cases State.commitReshard <;> simp +zetaDelta [ok]
@[simp ↓] theorem State.MemOk.tryCommit {s : State} (ok : s.MemOk) : s.tryCommit.MemOk := by
  fun_cases State.tryCommit <;> simp [ok]
@[simp ↓] theorem State.memOk_startCopies (s : State) : s.startCopies.MemOk ↔ s.MemOk := by
  fun_cases State.startCopies <;> simp
@[simp ↓] theorem State.memOk_tryCopy (s : State) : s.tryCopy.MemOk ↔ s.MemOk := by
  fun_cases State.tryCopy <;> simp
@[simp ↓] theorem State.memOk_takeDrained (s : State) (n : Nat) : (s.takeDrained n).MemOk ↔ s.MemOk := by
  fun_cases State.takeDrained <;> simp
@[simp ↓] theorem State.memOk_keepDrained (s : State) (n e : Nat) : (s.keepDrained n e).MemOk ↔ s.MemOk := Iff.rfl
@[simp ↓] theorem State.memOk_takeEarly (s : State) (e : Nat) : (s.takeEarly e).MemOk ↔ s.MemOk := by
  unfold State.takeEarly
  simp
@[simp ↓] theorem State.memOk_reportDrained (s : State) : s.reportDrained.MemOk ↔ s.MemOk := by
  fun_cases State.reportDrained <;> simp +zetaDelta
@[simp ↓] theorem State.memOk_sendFar (s : State) (own : FarOwner) (j : FarCopy) :
    (s.sendFar own j).2.MemOk ↔ s.MemOk := by
  unfold State.sendFar
  simp
@[simp ↓] theorem State.memOk_endFar (s : State) (own : FarOwner) (j : FarCopy) (dst n : Nat) :
    (s.endFar own j dst n).2.MemOk ↔ s.MemOk := by
  fun_cases State.endFar <;> simp
@[simp ↓] theorem State.MemOk.farCopy {s : State} {own : FarOwner} {job : Option FarCopy} {src dst n : Nat}
    {whole : Bool} (ok : s.MemOk) :
    (s.farCopy own job src dst n whole).2.MemOk := by
  fun_cases State.farCopy
  case case6 | case7 => have h₁ := ok.globalWrite.of_snd ‹_›; simp [h₁]
  case case8 => exact ok.globalWrite.of_snd ‹_›
  all_goals simp +zetaDelta [ok]
@[simp ↓] theorem State.MemOk.takeCopied {s : State} {n : Nat} (ok : s.MemOk) : (s.takeCopied n).MemOk := by
  fun_cases State.takeCopied <;> simp [ok]
@[simp ↓] theorem State.MemOk.copyEntry {s : State} {i : Nat} (ok : s.MemOk) : (s.copyEntry i).MemOk := by
  fun_cases State.copyEntry <;> try simp [ok]
  all_goals have h₁ := ok.farCopy.of_snd ‹_›
  all_goals simp +zetaDelta [h₁]
@[simp ↓] theorem State.MemOk.abandonReshard {s : State} (ok : s.MemOk) : s.abandonReshard.MemOk := by
  fun_cases State.abandonReshard <;> simp [ok]
@[simp ↓] theorem State.MemOk.checkReshard {s : State} (ok : s.MemOk) : s.checkReshard.MemOk := by
  fun_cases State.checkReshard <;> simp [ok]
@[simp ↓] theorem State.memOk_sendOwed (s : State) : s.sendOwed.MemOk ↔ s.MemOk := by
  fun_cases State.sendOwed
  simp +zetaDelta
@[simp ↓] theorem State.memOk_childArrival (s : State) (b gen node : Nat) :
    (s.childArrival b gen node).MemOk ↔ s.MemOk := by
  fun_cases State.childArrival <;> simp
@[simp ↓] theorem State.memOk_parentRelease (s : State) (b gen : Nat) : (s.parentRelease b gen).MemOk ↔ s.MemOk := by
  fun_cases State.parentRelease <;> simp
@[simp ↓] theorem State.MemOk.takeCtrl {s : State} {node : Nat} {a : CtrlMsg} (ok : s.MemOk) :
    (s.takeCtrl node a).MemOk := by
  fun_cases State.takeCtrl <;> simp [ok]

/-! ### The functions of Machine/ZPorts.lean -/

@[simp ↓] theorem State.memOk_portState (s : State) (p : Nat) (st : ZState) (lanes : BitVec 8) :
    (s.portState p st lanes).MemOk ↔ s.MemOk := by
  unfold State.portState
  simp
@[simp ↓] theorem State.MemOk.loseCtrl {s : State} {node : Nat} {a : CtrlMsg} (ok : s.MemOk) :
    (s.loseCtrl node a).MemOk := by
  fun_cases State.loseCtrl <;> simp [ok]
@[simp ↓] theorem State.MemOk.loseKFlit {s : State} {k : KFlit} (ok : s.MemOk) : (s.loseKFlit k).MemOk := by
  fun_cases State.loseKFlit <;> simp [ok]
@[simp ↓] theorem State.MemOk.sweepUnreachable {s : State} (ok : s.MemOk) : s.sweepUnreachable.MemOk := by
  fun_cases State.sweepUnreachable
  next s₁ s₂ lost s₃ s₄ =>
    have h₁ : s₁.MemOk := State.memOk_foldl (fun t r ht => by simp [ht]) ok
    have h₂ : s₂.MemOk := State.memOk_foldl (fun t r ht => by simp [ht]) h₁
    have h₃ : s₃.MemOk := State.memOk_foldl (fun t r ht => by simp [ht]) h₂
    have h₄ : s₄.MemOk := State.memOk_foldl (fun t r ht => by dsimp only; split <;> simp [ht]) h₃
    exact h₄.checkReshard
@[simp ↓] theorem State.MemOk.emptyPort {s : State} {p : Nat} {st : ZState} (ok : s.MemOk) :
    (s.emptyPort p st).MemOk := by
  fun_cases State.emptyPort
  next x s₁ s₂ =>
    have h₂ : s₂.MemOk := State.memOk_foldl (fun t k ht => by simp [ht]) (by simp [s₁, ok])
    simp [h₂]
@[simp ↓] theorem State.MemOk.portDown {s : State} {p : Nat} (ok : s.MemOk) : (s.portDown p).MemOk := by
  unfold State.portDown
  simp [ok]
@[simp ↓] theorem State.MemOk.settleFabric {s : State} (ok : s.MemOk) : s.settleFabric.MemOk := by
  fun_cases State.settleFabric <;> simp [ok]
@[simp ↓] theorem State.MemOk.commitPort {s : State} {p : Nat} {w : Word} (ok : s.MemOk) :
    (s.commitPort p w).MemOk := by
  fun_cases State.commitPort <;> simp +zetaDelta +contextual [ok]
@[simp ↓] theorem State.memOk_portUp (s : State) (p : Nat) (st : ZState) (lanes : BitVec 8) :
    (s.portUp p st lanes).MemOk ↔ s.MemOk := by
  unfold State.portUp
  simp

/-! ### The functions of Machine/Power.lean -/

@[simp ↓] theorem State.memOk_relaxRails (s : State) : s.relaxRails.MemOk ↔ s.MemOk := by
  refine State.memOk_foldl_iff fun t _ => State.memOk_foldl_iff fun u q => ?_
  dsimp only
  split <;> simp
@[simp ↓] theorem State.memOk_mapLive (s : State) (f : Quadrant → Quadrant) : (s.mapLive f).MemOk ↔ s.MemOk := by
  unfold State.mapLive
  simp
@[simp ↓] theorem State.memOk_sampleQuad (s : State) (x : QuadSample) : (s.sampleQuad x).MemOk ↔ s.MemOk := by
  fun_cases State.sampleQuad <;> simp
@[simp ↓] theorem State.memOk_stackTemp (s : State) (k : Nat) (t : BitVec 16) :
    (s.stackTemp k t).MemOk ↔ s.MemOk := by
  fun_cases State.stackTemp <;> simp
@[simp ↓] theorem State.memOk_coolant (s : State) (r : CoolReadings) : (s.coolant r).MemOk ↔ s.MemOk := Iff.rfl
@[simp ↓] theorem State.memOk_inputSample (s : State) (r : SensorReadings) : (s.inputSample r).MemOk ↔ s.MemOk := by
  unfold State.inputSample
  simp
@[simp ↓] theorem State.memOk_raiseConflict (s : State) (q code : Nat) :
    (s.raiseConflict q code).MemOk ↔ s.MemOk := by
  unfold State.raiseConflict
  simp
@[simp ↓] theorem State.memOk_givesUp (s : State) (q code : Nat) : (s.givesUp q code).MemOk ↔ s.MemOk := by
  fun_cases State.givesUp <;> simp
@[simp ↓] theorem State.memOk_stepRail (s : State) (q : Nat) : (s.stepRail q).MemOk ↔ s.MemOk := by
  fun_cases State.stepRail <;> simp +zetaDelta
@[simp ↓] theorem State.memOk_shedPower (bound code w : Nat) (qs : List Nat) (s : State) :
    (State.shedPower bound code w qs s).MemOk ↔ s.MemOk := by
  induction qs generalizing w s with
  | nil => simp [State.shedPower]
  | cons q qs ih =>
    rw [State.shedPower]
    split
    · rfl
    · simp [ih]
@[simp ↓] theorem State.memOk_stepPower (s : State) : s.stepPower.MemOk ↔ s.MemOk := by
  fun_cases State.stepPower <;> simp
@[simp ↓] theorem State.memOk_judgeConflict (s : State) (q : Nat) : (s.judgeConflict q).MemOk ↔ s.MemOk := by
  fun_cases State.judgeConflict <;> simp
@[simp ↓] theorem State.memOk_regainMax (s : State) : s.regainMax.MemOk ↔ s.MemOk := by
  fun_cases State.regainMax <;> simp
@[simp ↓] theorem State.memOk_setBound (s : State) (r : BoundReg) (v : Word) : (s.setBound r v).MemOk ↔ s.MemOk := by
  fun_cases State.setBound <;> simp

/-! ### The functions of Machine/Ebb.lean -/

@[simp ↓] theorem State.memOk_logCoreError (s : State) (lasting : Bool) (p kind : Nat) (met : Option Nat) :
    (s.logCoreError lasting p kind met).MemOk ↔ s.MemOk := by
  unfold State.logCoreError
  simp
@[simp ↓] theorem State.memOk_sramError (s : State) (l : Nat) (u : CoreSram) (loc : Nat) (lasting : Bool) :
    (s.sramError l u loc lasting).MemOk ↔ s.MemOk := by
  unfold State.sramError
  simp
@[simp ↓] theorem State.MemOk.loseRouter {s : State} {p : Nat} (ok : s.MemOk) : (s.loseRouter p).MemOk := by
  fun_cases State.loseRouter <;> simp +zetaDelta [ok]
@[simp ↓] theorem State.memOk_markOut (s : State) (k : Nat) : (s.markOut k).MemOk ↔ s.MemOk := by
  unfold State.markOut
  simp
@[simp ↓] theorem State.MemOk.commitWhenFree {s : State} {p : Nat} (ok : s.MemOk) : (s.commitWhenFree p).MemOk := by
  fun_cases State.commitWhenFree <;> simp [ok]
@[simp ↓] theorem State.memOk_logWeak (s : State) (l p : Nat) : (s.logWeak l p).MemOk ↔ s.MemOk := by
  unfold State.logWeak
  simp
@[simp ↓] theorem State.memOk_logEbb (s : State) (q : Nat) (lost : NumSet) : (s.logEbb q lost).MemOk ↔ s.MemOk := by
  unfold State.logEbb
  simp
@[simp ↓] theorem State.MemOk.ebbRegion {s : State} {r : Nat} (ok : s.MemOk) : (s.ebbRegion r).MemOk := by
  fun_cases State.ebbRegion <;> simp +zetaDelta +contextual [ok]
@[simp ↓] theorem State.MemOk.beginEbb {s : State} {q : Nat} (ok : s.MemOk) : (s.beginEbb q).MemOk := by
  unfold State.beginEbb
  simp +contextual [ok]
@[simp ↓] theorem State.MemOk.loseToEbb {s : State} {r q : Nat} (ok : s.MemOk) : (s.loseToEbb r q).MemOk := by
  fun_cases State.loseToEbb
  next s₁ y s₂ s₃ =>
    have h₁ : y.1.MemOk := by simp [y, s₁, ok]
    have h₂ : s₂.MemOk := State.memOk_foldl (fun t k ht => ht.finish) h₁
    simp [s₃, h₂]
@[simp ↓] theorem State.MemOk.loseInside {s : State} {ps : NumSet} (ok : s.MemOk) : (s.loseInside ps).MemOk := by
  unfold State.loseInside
  simp +contextual [ok]
@[simp ↓] theorem State.MemOk.darkCores {s : State} {q : Nat} (ok : s.MemOk) : (s.darkCores q).MemOk := by
  refine State.memOk_foldl (fun t l ht => ?_) ok
  dsimp only
  split <;> simp [ht]
@[simp ↓] theorem State.memOk_failSelfTest (s : State) (p : Nat) : (s.failSelfTest p).MemOk ↔ s.MemOk := by
  unfold State.failSelfTest
  simp
@[simp ↓] theorem State.memOk_startQuad (s : State) (q : Nat) : (s.startQuad q).MemOk ↔ s.MemOk := Iff.rfl
@[simp ↓] theorem State.memOk_fusedRails (s : State) (d : Nat) : (s.fusedRails d).MemOk ↔ s.MemOk := by
  unfold State.fusedRails
  simp
@[simp ↓] theorem State.memOk_wakeRouter (s : State) (p : Nat) : (s.wakeRouter p).MemOk ↔ s.MemOk := Iff.rfl
@[simp ↓] theorem State.MemOk.halt {s : State} (ok : s.MemOk) : s.halt.MemOk := by
  fun_cases State.halt <;> simp +zetaDelta [ok]
@[simp ↓] theorem State.memOk_setHart (s : State) (i : Nat) (h : HartState) :
    (s.setHart i h).MemOk ↔ s.MemOk := Iff.rfl
@[simp ↓] theorem State.memOk_fenceHart (s : State) (i : Nat) : (s.fenceHart i).MemOk ↔ s.MemOk := by
  fun_cases State.fenceHart <;> simp
@[simp ↓] theorem State.MemOk.powerOff {s : State} (ok : s.MemOk) : s.powerOff.MemOk :=
  ⟨Memory.wf_filter _ ok.mem, rfl⟩
@[simp ↓] theorem State.memOk_countPowerError (s : State) (lasting : Bool) :
    (s.countPowerError lasting).MemOk ↔ s.MemOk := by
  fun_cases State.countPowerError <;> simp
@[simp ↓] theorem State.MemOk.loseEdge {s : State} {e : Nat} (ok : s.MemOk) : (s.loseEdge e).MemOk := by
  fun_cases State.loseEdge
  case case1 s₁ s₂ s₃ s₄ _ | case2 s₁ s₂ s₃ s₄ _ =>
    have h₁ : (((List.range 4).foldl (fun (t : State) i => t.setHart i .fenced) s₁)).MemOk :=
      State.memOk_foldl (fun t i ht => by simp [ht]) ok
    have h₂ : s₂.MemOk := by simp [s₂, s₁, h₁, ok]
    have h₃ : s₃.MemOk := State.memOk_foldl (fun t p ht => by split <;> simp [ht]) h₂
    have h₄ : s₄.MemOk := by simp [s₄, h₃]
    simp [h₄]

/-! ### The functions of Machine/Image.lean -/

@[simp ↓] theorem State.memOk_extendSections (s : State) (r : Nat) (im : Image) :
    (s.extendSections r im).MemOk ↔ s.MemOk := Iff.rfl

/-! ### The functions of Machine/Commands.lean -/

@[simp ↓] theorem State.memOk_freeFinished (s : State) : s.freeFinished.MemOk ↔ s.MemOk := by
  unfold State.freeFinished
  simp
@[simp ↓] theorem State.MemOk.csrWriteWord {b : Submission} {x : Option (Nat × Code) × State} {w : Nat × Nat}
    (ok : x.2.MemOk) :
    (State.csrWriteWord b x w).2.MemOk := by
  fun_cases State.csrWriteWord <;> simp +zetaDelta [ok]
@[simp ↓] theorem State.memOk_setCopy (s : State) (x : CkptCopy) : (s.setCopy x).MemOk ↔ s.MemOk := Iff.rfl
@[simp ↓] theorem State.memOk_dropCopy (s : State) (k : CmdRef) : (s.dropCopy k).MemOk ↔ s.MemOk := Iff.rfl
@[simp ↓] theorem State.memOk_moverServed (s : State) (k : CmdRef) (m : Nat) :
    (s.moverServed k m).MemOk ↔ s.MemOk := Iff.rfl
@[simp ↓] theorem State.MemOk.advanceCopy {k : CmdRef} {n : Nat} {s : State} (ok : s.MemOk) :
    (State.advanceCopy k n s).MemOk := by
  induction n generalizing s with
  | zero => exact ok
  | succ n ih =>
    rw [State.advanceCopy]
    split
    next x c _ _ =>
      have h₁ : ((x.shards.drop x.written).foldl (fun (t : State) y => t.undefineRange y.dst y.len) s).MemOk :=
        State.memOk_foldl (fun t y ht => ht.undefineRange) ok
      refine State.memOk_ite (by simp [h₁]) (State.memOk_ite (by simp [ok]) ?_)
      split
      · exact ok
      · exact State.memOk_ite (by simp [ok]) (ih (by simp [ok]))
    next => exact ok
@[simp ↓] theorem State.MemOk.endShard {s : State} {x : CkptCopy} {i : Nat} {r : List Byte × Option Code}
    (ok : s.MemOk) :
    (s.endShard x i r).MemOk := by
  unfold State.endShard
  simp [ok]
@[simp ↓] theorem State.MemOk.copyShard {s : State} {x : CkptCopy} {i : Nat} {y : Shard} (ok : s.MemOk) :
    (s.copyShard x i y).MemOk := by
  fun_cases State.copyShard <;> try simp [ok]
  all_goals have h₁ := ok.farCopy.of_snd ‹_›
  all_goals simp +zetaDelta [h₁]

/-! ### The functions of Machine/StoreOps.lean -/

@[simp ↓] theorem State.memOk_writeSlot (s : State) (i : Nat) (x : FwSlot) : (s.writeSlot i x).MemOk ↔ s.MemOk := by
  unfold State.writeSlot
  simp
@[simp ↓] theorem State.MemOk.storeFailed {s : State} {k : CmdRef} {r1 : Word} (ok : s.MemOk) :
    (s.storeFailed k r1).MemOk := by
  unfold State.storeFailed
  simp [ok]
@[simp ↓] theorem State.MemOk.signReport {s : State} (ok : s.MemOk) : s.signReport.MemOk := by
  fun_cases State.signReport
  case case1 => exact ok
  case case2 t s₁ _ => exact State.memOk_ite ok ok
  case case3 t s₁ _ s₂ _ | case4 t s₁ _ s₂ _ _ _ | case5 t s₁ _ s₂ _ _ _ =>
    have h₁ : s₁.MemOk := State.memOk_ite ok ok
    simp [s₂, h₁]
@[simp ↓] theorem State.memOk_takeIndex (s : State) : s.takeIndex.MemOk ↔ s.MemOk := by
  unfold State.takeIndex
  simp
@[simp ↓] theorem State.memOk_writeWaiting (s : State) : s.writeWaiting.MemOk ↔ s.MemOk := by
  unfold State.writeWaiting
  simp

/-! ### The functions of Machine/BringUp.lean -/

@[simp ↓] theorem State.memOk_replayFault (s : State) (r : JournalRecord) : (s.replayFault r).MemOk ↔ s.MemOk := by
  unfold State.replayFault
  simp
@[simp ↓] theorem State.memOk_replay (s : State) (r : JournalRecord) : (s.replay r).MemOk ↔ s.MemOk := by
  fun_cases State.replay <;> simp
theorem State.memOk_mount {s u : State} {t : BootReport} (h : s.mount t = some u) : u.MemOk ↔ s.MemOk := by
  simp only [State.mount, Option.map_eq_some_iff] at h
  obtain ⟨c, -, rfl⟩ := h
  exact (State.memOk_foldl_iff fun u r => State.memOk_replay ..).trans (State.memOk_keep s ..)
@[simp ↓] theorem State.memOk_tryBoot (t : BootReport) (is : List Nat) (s : State) :
    (State.tryBoot t is s).1.MemOk ↔ s.MemOk := by
  induction is generalizing s with
  | nil => rfl
  | cons i is ih =>
    rw [State.tryBoot]
    split
    · rfl
    · simp [ih]
@[simp ↓] theorem State.memOk_romBoot (s : State) (t : BootReport) : (s.romBoot t).MemOk ↔ s.MemOk := by
  fun_cases State.romBoot
  next => rfl
  next u hm v i hb =>
    have h₁ := State.memOk_tryBoot t u.store.bootOrder u
    simp only [hb, State.memOk_mount hm] at h₁
    exact h₁
  next u hm v hb =>
    have h₁ := State.memOk_tryBoot t u.store.bootOrder u
    simp only [hb, State.memOk_mount hm] at h₁
    exact h₁
@[simp ↓] theorem State.memOk_bootFault (s : State) (p : Nat) (router : Bool) :
    (s.bootFault p router).MemOk ↔ s.MemOk := by
  unfold State.bootFault
  simp
@[simp ↓] theorem State.memOk_loadRow (s : State) (k : Nat) : (s.loadRow k).MemOk ↔ s.MemOk := by
  fun_cases State.loadRow <;> simp +zetaDelta
@[simp ↓] theorem State.memOk_loadRouters (s : State) (k : Nat) : (s.loadRouters k).MemOk ↔ s.MemOk := by
  unfold State.loadRouters
  simp
@[simp ↓] theorem State.memOk_markSlow (s : State) (q : Nat) : (s.markSlow q).MemOk ↔ s.MemOk := by
  unfold State.markSlow
  simp
@[simp ↓] theorem State.memOk_dieFails (s : State) (d : Nat) : (s.dieFails d).MemOk ↔ s.MemOk := by
  unfold State.dieFails
  simp
@[simp ↓] theorem State.memOk_bootQuad (s : State) (q : Nat) : (s.bootQuad q).MemOk ↔ s.MemOk := by
  unfold State.bootQuad
  simp
@[simp ↓] theorem State.memOk_routeDie (s : State) (t : BootReport) (d : Nat) : (s.routeDie t d).MemOk ↔ s.MemOk := by
  unfold State.routeDie
  simp
@[simp ↓] theorem State.memOk_trainStacks (s : State) (d : Nat) : (s.trainStacks d).MemOk ↔ s.MemOk := by
  unfold State.trainStacks
  simp
@[simp ↓] theorem State.memOk_bootCores (s : State) (t : BootReport) (d : Nat) :
    (s.bootCores t d).MemOk ↔ s.MemOk := by
  unfold State.bootCores
  simp
@[simp ↓] theorem State.memOk_bringUpDie (s : State) (t : BootReport) (d : Nat) :
    (s.bringUpDie t d).MemOk ↔ s.MemOk := by
  fun_cases State.bringUpDie <;> simp +zetaDelta
@[simp ↓] theorem State.memOk_bootRow (s : State) (n : Nat) : (s.bootRow n).MemOk ↔ s.MemOk := Iff.rfl
@[simp ↓] theorem State.memOk_startHarts (s : State) (is : List Nat) : (s.startHarts is).MemOk ↔ s.MemOk := by
  unfold State.startHarts
  simp
@[simp ↓] theorem State.memOk_trainCxl (s : State) (ps : List Nat) : (s.trainCxl ps).MemOk ↔ s.MemOk := by
  unfold State.trainCxl
  simp
@[simp ↓] theorem State.MemOk.bootDeputies {s : State} {t : BootReport} (ok : s.MemOk) :
    (s.bootDeputies t).MemOk := by
  fun_cases State.bootDeputies <;> simp [ok]
@[simp ↓] theorem State.memOk_bootRoutes (s : State) (t : BootReport) : (s.bootRoutes t).MemOk ↔ s.MemOk := by
  unfold State.bootRoutes
  simp

/-! ### The functions of Machine/Tiers.lean -/

@[simp ↓] theorem State.MemOk.copyPage {s : State} {src dst : Nat} {marks : Bool} (ok : s.MemOk) :
    (s.copyPage src dst marks).MemOk :=
  ⟨State.wf_copyPage src dst marks ok.mem, by simp [State.copyPage, State.snoopData, apply_ite, ok]⟩
@[simp ↓] theorem State.memOk_returnFrame (s : State) (l : Location) : (s.returnFrame l).MemOk ↔ s.MemOk := by
  fun_cases State.returnFrame <;> simp
theorem State.memOk_takeFrame {s t : State} {tier f : Nat} (h : s.takeFrame tier = some (f, t)) :
    t.MemOk ↔ s.MemOk := by
  revert h
  fun_cases State.takeFrame
  · simp
  · rintro ⟨⟩
    simp
@[simp ↓] theorem State.memOk_endMove (s : State) (m : Move) : (s.endMove m).MemOk ↔ s.MemOk := by
  unfold State.endMove
  simp
@[simp ↓] theorem State.MemOk.settleInval {s : State} (ok : s.MemOk) : s.settleInval.MemOk := by
  unfold State.settleInval
  simp +contextual [ok]
@[simp ↓] theorem State.MemOk.settleMoves {s : State} (ok : s.MemOk) : s.settleMoves.MemOk := by
  fun_cases State.settleMoves <;> simp [ok]
@[simp ↓] theorem State.memOk_dropInval (s : State) (l p : Nat) : (s.dropInval l p).MemOk ↔ s.MemOk := Iff.rfl
@[simp ↓] theorem State.memOk_forgetFrame (s : State) (l : Location) : (s.forgetFrame l).MemOk ↔ s.MemOk := by
  fun_cases State.forgetFrame <;> simp
@[simp ↓] theorem State.memOk_placePage (s : State) (b : Submission) (first i : Nat) :
    (s.placePage b first i).MemOk ↔ s.MemOk := by
  fun_cases State.placePage <;> simp +zetaDelta
@[simp ↓] theorem State.MemOk.waitPages {s : State} {k : CmdRef} {pages : NumSet} {result : Word} (ok : s.MemOk) :
    (s.waitPages k pages result).MemOk := by
  unfold State.waitPages
  simp [ok]
@[simp ↓] theorem State.MemOk.restoreTo {s : State} {src : Option Nat} {l : Location} (ok : s.MemOk) :
    (s.restoreTo src l).MemOk := by
  fun_cases State.restoreTo
  · exact ok.copyPage
  · exact ⟨Memory.wf_setSpan ok.mem (Memory.above_free ..) (freeCells_lt _ _ _), by simp [ok]⟩
  · exact ok
@[simp ↓] theorem State.MemOk.endRestore {s : State} {k : CmdRef} {p : Nat} (ok : s.MemOk) :
    (s.endRestore k p).MemOk := by
  unfold State.endRestore
  simp [ok]
@[simp ↓] theorem State.MemOk.writeRestore {s : State} {j : PageRestore} (ok : s.MemOk) :
    (s.writeRestore j).MemOk := by
  have h₁ : ((s.ptEntry j.page).copies.foldl (fun (t : State) l => t.restoreTo j.src l) s).MemOk :=
    State.memOk_foldl (fun t l ht => ht.restoreTo) ok
  fun_cases State.writeRestore <;> simp +zetaDelta [h₁]
@[simp ↓] theorem State.MemOk.freeFailed {s : State} {xs : List FabRead} (ok : s.MemOk) :
    (s.freeFailed xs).MemOk := by
  unfold State.freeFailed
  simp +contextual [ok]
@[simp ↓] theorem State.MemOk.goOnRestore {s : State} {j : PageRestore} (ok : s.MemOk) : (s.goOnRestore j).MemOk := by
  fun_cases State.goOnRestore <;> simp +zetaDelta [ok]
@[simp ↓] theorem State.memOk_carryBudget (s : State) : s.carryBudget.MemOk ↔ s.MemOk := Iff.rfl
@[simp ↓] theorem State.memOk_startMove (s : State) (p : Nat) (dst : Location) (demotion : Bool) (steep : Option Nat)
    :
    (s.startMove p dst demotion steep).MemOk ↔ s.MemOk := by
  unfold State.startMove
  simp
@[simp ↓] theorem State.memOk_steepConflict (s : State) (r w : Nat) (poolShort : Bool) :
    (s.steepConflict r w poolShort).MemOk ↔ s.MemOk := by
  unfold State.steepConflict
  simp
@[simp ↓] theorem State.memOk_addHeat (s : State) : s.addHeat.MemOk ↔ s.MemOk := Iff.rfl
@[simp ↓] theorem State.memOk_halveHeat (s : State) : s.halveHeat.MemOk ↔ s.MemOk := Iff.rfl
@[simp ↓] theorem State.memOk_closeEntry (s : State) (p : Nat) (dst : Option Location) :
    (s.closeEntry p dst).MemOk ↔ s.MemOk := by
  unfold State.closeEntry
  simp
@[simp ↓] theorem State.MemOk.abandonMove {s : State} {m : Move} (ok : s.MemOk) : (s.abandonMove m).MemOk := by
  unfold State.abandonMove
  simp [ok]
theorem State.MemOk.moveBytes {s : State} {m : Move} (ok : s.MemOk) : ∀ t, s.moveBytes m = some t → t.MemOk := by
  fun_cases State.moveBytes <;> simp +zetaDelta [ok]
@[simp ↓] theorem State.memOk_setMove (s : State) (m : Move) : (s.setMove m).MemOk ↔ s.MemOk := Iff.rfl
@[simp ↓] theorem State.memOk_sendMove (s : State) (m : Move) : (s.sendMove m).MemOk ↔ s.MemOk := by
  unfold State.sendMove
  simp
@[simp ↓] theorem State.MemOk.finishMove {s : State} {m : Move} (ok : s.MemOk) : (s.finishMove m).MemOk := by
  unfold State.finishMove
  simp [ok]
@[simp ↓] theorem State.MemOk.goOnMove {s : State} {m : Move} (ok : s.MemOk) : (s.goOnMove m).MemOk := by
  fun_cases State.goOnMove
  case case7 | case8 =>
    have h₁ := ok.moveBytes _ ‹_›
    simp [h₁]
  all_goals simp [ok]

/-! ### The functions of Machine/VectorEngine.lean -/

@[simp ↓] theorem State.memOk_runVecGroup (s : State) (l : Nat) (a : VecActive) :
    (s.runVecGroup l a).MemOk ↔ s.MemOk := by
  fun_cases State.runVecGroup <;> simp
@[simp ↓] theorem State.memOk_stretchCore (s : State) (l : Nat) (banks : List Nat) :
    (s.stretchCore l banks).MemOk ↔ s.MemOk := Iff.rfl
@[simp ↓] theorem State.MemOk.openFor {s : State} {l d : Nat} {body : State → State}
    (hb : ∀ t, t.MemOk → (body t).MemOk) (ok : s.MemOk) :
    (s.openFor l d body).MemOk := by
  fun_cases State.openFor
  · exact (hb _ ok.advance).settle
  · simp +zetaDelta [ok]
@[simp ↓] theorem State.memOk_vecGroup (s : State) (l : Nat) (a : VecActive) : (s.vecGroup l a).MemOk ↔ s.MemOk := by
  fun_cases State.vecGroup <;> simp +zetaDelta
@[simp ↓] theorem State.memOk_matGroup (s : State) (l : Nat) (a : MatActive) : (s.matGroup l a).MemOk ↔ s.MemOk := by
  fun_cases State.matGroup <;> simp +zetaDelta

/-! ### The functions of Machine/Streams.lean -/

@[simp ↓] theorem State.memOk_walkRuns (s : State) (l g : Nat) (rs : List Run) :
    (s.walkRuns l g rs).2.MemOk ↔ s.MemOk := by
  refine State.memOk_foldl_snd_iff fun x r => ?_
  split <;> simp
@[simp ↓] theorem State.memOk_placeRun (s : State) (l g k : Nat) (bs : List (Byte × Bool)) (errs late : Nat) :
    (s.placeRun l g k bs errs late).MemOk ↔ s.MemOk := Iff.rfl
@[simp ↓] theorem State.MemOk.writeRun {s : State} {l g : Nat} {p : Pass} {t i : Nat} {x : Option (BitVec 32 × Bool)}
    {bs : List (Byte × Bool)} (ok : s.MemOk) :
    (s.writeRun l g p t i x bs).MemOk := by
  fun_cases State.writeRun <;> simp +zetaDelta [ok]
@[simp ↓] theorem State.memOk_walkRun (s : State) (l g : Nat) (p : Pass) (t i : Nat) (x : Option (BitVec 32 × Bool)) :
    (s.walkRun l g p t i x).MemOk ↔ s.MemOk := by
  fun_cases State.walkRun <;> simp
@[simp ↓] theorem State.memOk_endWriteTile (s : State) (l g : Nat) (p : Pass) (t need : Nat) :
    (s.endWriteTile l g p t need).MemOk ↔ s.MemOk := Iff.rfl
@[simp ↓] theorem State.MemOk.writeRuns {l g : Nat} {p : Pass} {t : Nat} {xs : List (BitVec 32 × Bool)} {n i : Nat}
    {s : State}
    (ok : s.MemOk) : (State.writeRuns l g p t xs n i s).MemOk := by
  induction n generalizing i s with
  | zero => exact ok
  | succ n ih =>
    rw [State.writeRuns]
    dsimp only
    split
    · exact ok
    · exact ih (by simp [ok])

/-! ### The functions of Machine/Dma.lean -/

@[simp ↓] theorem State.memOk_walkSpans (s : State) (l : Nat) (xs : List (Nat × Nat)) :
    (s.walkSpans l xs).MemOk ↔ s.MemOk := by
  refine State.memOk_foldl_snd_iff fun y q => ?_
  split
  · rfl
  · split <;> simp
@[simp ↓] theorem State.memOk_walkChecked (s : State) (l : Nat) (d : Desc) (cause : Nat) :
    (s.walkChecked l d cause).MemOk ↔ s.MemOk := by
  fun_cases State.walkChecked <;> simp
@[simp ↓] theorem State.MemOk.dmaRead {s : State} {l a n : Nat} {o : ReadOutcome} (ok : s.MemOk) :
    (s.dmaRead l a n o).2.MemOk := by
  fun_cases State.dmaRead
  next w x =>
    have h₁ : x.2.MemOk := State.memOk_foldl_snd (fun x q hx => by split <;> simp [hx]) (by simp [w, ok])
    simp [h₁]
@[simp ↓] theorem State.memOk_dmaLate (s : State) (l a n : Nat) : (s.dmaLate l a n).2.MemOk ↔ s.MemOk := by
  unfold State.dmaLate
  dsimp only
  split <;> simp
@[simp ↓] theorem State.MemOk.dmaPiece {s : State} {l a n : Nat} {o : PieceRead} (ok : s.MemOk) :
    (s.dmaPiece l a n o).2.MemOk := by
  fun_cases State.dmaPiece <;> simp [ok]
@[simp ↓] theorem State.MemOk.csrFill {s : State} {a : Nat} {bs : List Byte} (ok : s.MemOk) :
    (s.csrFill a bs).MemOk := by
  unfold State.csrFill
  simp +contextual [ok]
@[simp ↓] theorem State.MemOk.dmaPut {s : State} {l a : Nat} {bs : List (Byte × Bool)} (ok : s.MemOk) :
    (s.dmaPut l a bs).2.MemOk := by
  fun_cases State.dmaPut <;> simp +zetaDelta [ok]
@[simp ↓] theorem State.MemOk.dmaWrite {s : State} {l a : Nat} {bs : List (Byte × Bool)} (ok : s.MemOk) :
    (s.dmaWrite l a bs).2.MemOk := by
  refine List.foldlRecOn (motive := fun x : Bool × Nat × State => x.2.2.MemOk) _ _ ok (fun x hx q _ => ?_)
  dsimp only
  split <;> simp [hx]
@[simp ↓] theorem State.MemOk.undefinedPiece {s : State} {l a n : Nat} (ok : s.MemOk) :
    (s.undefinedPiece l a n).MemOk := by
  unfold State.undefinedPiece
  simp [ok]
@[simp ↓] theorem State.MemOk.rowBytes {s : State} {l : Nat} {d : Desc} {o : DmaOutcome} {limit : Option Nat}
    {r : Nat} (ok : s.MemOk) :
    (s.rowBytes l d o limit r).2.MemOk := by
  refine State.memOk_foldl_snd (fun x k hx => ?_) ok
  dsimp only
  repeat' split
  all_goals simp [hx]
theorem State.MemOk.movedRow {m : Moved} (ok : m.s.MemOk) (l : Nat) (d : Desc) (o : DmaOutcome) (limit : Option Nat)
    (r : Nat) :
    (Moved.row l d o limit m r).s.MemOk := by
  fun_cases Moved.row
  · simp [ok]
  next dst _ g w whole n failed =>
    have h₁ : w.2.MemOk := by simp [w, g, ok]
    simp [h₁]
@[simp ↓] theorem State.memOk_clearFilled (s : State) (d : Desc) : (s.clearFilled d).MemOk ↔ s.MemOk := by
  fun_cases State.clearFilled
  · refine State.memOk_foldl_iff fun t a => ?_
    split
    · rfl
    · split <;> (try split) <;> simp
  · rfl
theorem State.MemOk.carryOut {s : State} (ok : s.MemOk) (l : Nat) (d : Desc) (o : DmaOutcome) :
    (s.carryOut l d o).s.MemOk := by
  have key : ∀ limit, ((List.range d.rows).foldl (Moved.row l d o limit) { s := s }).s.MemOk := fun limit =>
    List.foldlRecOn (motive := fun m : Moved => m.s.MemOk) _ _ ok (fun m hm r _ => hm.movedRow l d o limit r)
  fun_cases State.carryOut <;> simp +zetaDelta [key]
@[simp ↓] theorem State.MemOk.undefinedFrom {s : State} {l : Nat} {d : Desc} {n : Nat} (ok : s.MemOk) :
    (s.undefinedFrom l d n).MemOk := by
  refine State.memOk_foldl (fun t x ht => ?_) ok
  dsimp only
  split <;> simp [ht]
@[simp ↓] theorem State.MemOk.writeBack {s : State} {l off : Nat} {w : Word} (ok : s.MemOk) :
    (s.writeBack l off w).MemOk := by
  unfold State.writeBack
  simp [ok]
@[simp ↓] theorem State.MemOk.endDesc {s : State} {l ch off : Nat} {x : Desc} {cause bytes : Nat} {poisoned : Bool}
    (ok : s.MemOk) :
    (s.endDesc l ch off x cause bytes poisoned).MemOk := by
  unfold State.endDesc
  simp [ok]
@[simp ↓] theorem State.memOk_setFab (s : State) (l ch off : Nat) (f : DmaFab) :
    (s.setFab l ch off f).MemOk ↔ s.MemOk := Iff.rfl
@[simp ↓] theorem State.memOk_sendFab (s : State) (l ch off : Nat) (x : Desc) (f : DmaFab) :
    (s.sendFab l ch off x f).MemOk ↔ s.MemOk := by
  unfold State.sendFab
  simp
@[simp ↓] theorem State.MemOk.moveDesc {s : State} {l ch off : Nat} {x : Desc} {o : DmaOutcome}
    {lost : List (Nat × Nat)} (ok : s.MemOk) :
    (s.moveDesc l ch off x o lost).MemOk := by
  fun_cases State.moveDesc
  all_goals
    have h₁ : ∀ o, ((s.dropReads (s.readsOf l (4 + ch))).carryOut l x o).s.MemOk := fun o =>
      State.MemOk.carryOut (by simp [ok]) l x o
    simp +zetaDelta [h₁]
@[simp ↓] theorem State.memOk_readBack (s : State) (l ch off : Nat) (x : Desc) (f : DmaFab) (n : Nat) :
    (s.readBack l ch off x f n).MemOk ↔ s.MemOk := by
  unfold State.readBack
  simp
@[simp ↓] theorem State.MemOk.closeDesc {s : State} {l ch off : Nat} {x : Desc} {f : DmaFab} {e : Nat × Nat × Bool}
    (ok : s.MemOk) :
    (s.closeDesc l ch off x f e).MemOk := by
  fun_cases State.closeDesc <;> simp +zetaDelta [ok]
@[simp ↓] theorem State.MemOk.goOnFab {s : State} {l ch off : Nat} {x : Desc} {o : DmaOutcome} {f : DmaFab}
    (ok : s.MemOk) :
    (s.goOnFab l ch off x o f).MemOk := by
  fun_cases State.goOnFab <;> simp +zetaDelta [ok]
@[simp ↓] theorem State.memOk_walkDst (s : State) (l : Nat) (x : Desc) : (s.walkDst l x).MemOk ↔ s.MemOk := by
  unfold State.walkDst
  simp
@[simp ↓] theorem State.MemOk.takeDesc {s : State} {l ch off : Nat} {x : Desc} {o : DmaOutcome} (ok : s.MemOk) :
    (s.takeDesc l ch off x o).MemOk := by
  fun_cases State.takeDesc <;> simp +zetaDelta [ok]
@[simp ↓] theorem State.MemOk.undefinePosted {s : State} {l : Nat} {x : Nat × Nat × Nat × Int} (ok : s.MemOk) :
    (s.undefinePosted l x).MemOk := by
  refine State.memOk_foldl (fun t r ht => State.memOk_foldl (fun t k ht => ?_) ht) ok
  dsimp only
  split <;> simp [ht]

/-! ### The functions of Machine/RegionCmds.lean -/

@[simp ↓] theorem State.memOk_startCores (s : State) (r : Nat) (im : Image) :
    (s.startCores r im).MemOk ↔ s.MemOk := by
  unfold State.startCores
  simp
@[simp ↓] theorem State.MemOk.stageCores {s : State} {r : Nat} {im : Image} {slack : Bool} (ok : s.MemOk) :
    (s.stageCores r im slack).MemOk := by
  unfold State.stageCores
  simp +contextual [ok]
@[simp ↓] theorem State.MemOk.writeArgs {s : State} {r off : Nat} {bs : List Byte} (ok : s.MemOk) :
    (s.writeArgs r off bs).MemOk := by
  unfold State.writeArgs
  simp +contextual [ok]
@[simp ↓] theorem State.memOk_startEbb (s : State) (r : Nat) : (s.startEbb r).MemOk ↔ s.MemOk := Iff.rfl

/-! ### The functions of Machine/RegionEvents.lean -/

@[simp ↓] theorem State.MemOk.enqueueTides {s : State} {l : Nat} (ok : s.MemOk) : (s.enqueueTides l).MemOk := by
  refine State.memOk_foldl (fun t n ht => ?_) ok
  dsimp only
  split
  · exact ht.spilling fun u hu => by simp [hu]
  · exact ht
@[simp ↓] theorem State.MemOk.endLoad {s : State} {r : Nat} (ok : s.MemOk) : (s.endLoad r).MemOk := by
  fun_cases State.endLoad <;> simp +zetaDelta [ok]
@[simp ↓] theorem State.MemOk.switchOff {s : State} {r : Nat} (ok : s.MemOk) : (s.switchOff r).MemOk := by
  unfold State.switchOff
  simp +contextual [ok]
@[simp ↓] theorem State.MemOk.endScan {s : State} {r : Nat} (ok : s.MemOk) : (s.endScan r).MemOk := by
  have h₁ (x : Option (Nat × Nat)) : (match x with
      | some (l, cause) => s.endRequest r stProgramFault 0 (r1Core (some l) cause 0 0)
      | none => s).MemOk := by
    split <;> simp [ok]
  fun_cases State.endScan
  case case1 => exact (h₁ _).endRequest.endRegionCommands.replaceRegion
  case case2 => exact (h₁ _).endRequest.endRegionCommands
  case case3 => exact h₁ _
  case case4 => exact State.memOk_foldl (fun t d ht => ht.succeed) ((State.memOk_setRegion ..).2 (h₁ _))
@[simp ↓] theorem State.memOk_dropFault (s : State) (m : FaultMessage) : (s.dropFault m).MemOk ↔ s.MemOk := Iff.rfl
@[simp ↓] theorem State.MemOk.takeDone {s : State} {r l : Nat} (ok : s.MemOk) : (s.takeDone r l).MemOk := by
  fun_cases State.takeDone <;> simp +zetaDelta [ok]

/-! ### The functions of Machine/Transit.lean -/

@[simp ↓] theorem State.memOk_answerRead (s : State) (f : Flit) : (s.answerRead f).MemOk ↔ s.MemOk := by
  unfold State.answerRead
  simp
@[simp ↓] theorem State.MemOk.answerWrite {s : State} {f : Flit} (ok : s.MemOk) : (s.answerWrite f).MemOk := by
  unfold State.answerWrite
  simp [ok]
@[simp ↓] theorem State.MemOk.hdmEnd {s : State} {a : Nat} {wr : Option (BitVec 512)} {poison : Bool} (ok : s.MemOk) :
    (s.hdmEnd a wr poison).MemOk := by
  fun_cases State.hdmEnd <;> simp +zetaDelta [ok]
@[simp ↓] theorem State.memOk_hdmLost (s : State) (wr : Option (BitVec 512)) : (s.hdmLost wr).MemOk ↔ s.MemOk := by
  fun_cases State.hdmLost <;> simp +zetaDelta
@[simp ↓] theorem State.MemOk.endTransit {s : State} {r : TransitReq} (ok : s.MemOk) : (s.endTransit r).MemOk := by
  fun_cases State.endTransit <;> simp [ok]
@[simp ↓] theorem State.memOk_loseTransit (s : State) (r : TransitReq) : (s.loseTransit r).MemOk ↔ s.MemOk := by
  fun_cases State.loseTransit <;> simp
@[simp ↓] theorem State.memOk_refuseTransit (s : State) (r : TransitReq) : (s.refuseTransit r).MemOk ↔ s.MemOk := by
  fun_cases State.refuseTransit <;> simp
theorem State.memOk_sendEdge {s t : State} {e : Nat} {write : Bool} {ps : List (Nat × Nat)} {ns : List Nat}
    (h : s.sendEdge e write ps = some (ns, t)) : t.MemOk ↔ s.MemOk := by
  refine List.foldlRecOn (motive := fun x : Option (List Nat × State) => ∀ ns t, x = some (ns, t) → (t.MemOk ↔ s.MemOk))
    (cutLines ps) _ (b := some ([], s)) ?_ ?_ ns t h
  · rintro ns t ⟨⟩
    rfl
  · intro x hx q _ ns t h
    split at h
    next => cases h
    next ns' u =>
      split at h
      next => exact hx _ _ h
      next p _ =>
        obtain ⟨j, -, h⟩ := Option.map_eq_some_iff.1 h
        cases h
        simp [hx _ _ rfl]
@[simp ↓] theorem State.MemOk.transit {s : State} {e : Nat} {r : TransitReq} {write : Bool} {ps : List (Nat × Nat)}
    (ok : s.MemOk) :
    (s.transit e r write ps).MemOk := by
  fun_cases State.transit
  · simp [ok]
  all_goals simp [State.memOk_sendEdge ‹_›, ok]
@[simp ↓] theorem State.MemOk.settleTransits {s : State} (ok : s.MemOk) : s.settleTransits.MemOk := by
  refine State.memOk_foldl (fun t x ht => ?_) ok
  dsimp only
  split <;> simp [ht]

/-! ## ? -/

/-! ### Answers of the rows -/

/-- Where a command answers a next state, its memories are in canonical form. -/
def Answer.MemOk (a : Answer) : Prop := ∀ t, a = .next t → t.MemOk
@[simp ↓] theorem Answer.memOk_next (s : State) : Answer.MemOk (.next s) ↔ s.MemOk := by simp [Answer.MemOk]
@[simp ↓] theorem Answer.memOk_fault (f : Fault) : Answer.MemOk (.fault f) := by simp [Answer.MemOk]
theorem State.MemOk.next {s : State} (ok : s.MemOk) : Answer.MemOk (.next s) := (Answer.memOk_next s).2 ok
@[simp ↓] theorem Answer.memOk_ite {c : Prop} [Decidable c] {a b : Answer} (ha : Answer.MemOk a) (hb : Answer.MemOk b)
    :
    Answer.MemOk (if c then a else b) := by split <;> assumption

@[simp] theorem Eval.memOk_demote (v : Eval) (p : Nat) : (v.demote p).s.MemOk ↔ v.s.MemOk := by
  fun_cases Eval.demote <;> simp
@[simp] theorem Eval.memOk_promote (v : Eval) (p tier : Nat) (steep : Option Nat) :
    (v.promote p tier steep).s.MemOk ↔ v.s.MemOk := by
  fun_cases Eval.promote
  · rfl
  · rfl
  · simp [State.memOk_takeFrame ‹_›]
theorem Eval.memOk_foldl {α : Type} {f : Eval → α → Eval} {xs : List α} (hf : ∀ w x, (f w x).s.MemOk ↔ w.s.MemOk)
    (v : Eval) : (xs.foldl f v).s.MemOk ↔ v.s.MemOk :=
  List.foldlRecOn (motive := fun w : Eval => w.s.MemOk ↔ v.s.MemOk) xs f Iff.rfl fun w hw x _ => (hf w x).trans hw
theorem Eval.memOk_ite {c : Prop} [Decidable c] {v w u : Eval} (hv : v.s.MemOk ↔ u.s.MemOk)
    (hw : w.s.MemOk ↔ u.s.MemOk) :
    (if c then v else w).s.MemOk ↔ u.s.MemOk := by split <;> assumption
@[simp] theorem Eval.memOk_leaveWindows (v : Eval) (steeps : List Steep) :
    (v.leaveWindows steeps).s.MemOk ↔ v.s.MemOk :=
  Eval.memOk_foldl (fun w _ => Eval.memOk_ite (Eval.memOk_demote w _) Iff.rfl) v
@[simp] theorem Eval.memOk_enterWindows (v : Eval) (steeps : List Steep) :
    (v.enterWindows steeps).s.MemOk ↔ v.s.MemOk :=
  Eval.memOk_foldl (fun w _ => Eval.memOk_foldl (fun w _ => Eval.memOk_ite (Eval.memOk_promote w ..) Iff.rfl) w) v
@[simp] theorem Eval.memOk_heatUp (v : Eval) : v.heatUp.s.MemOk ↔ v.s.MemOk :=
  Eval.memOk_foldl (fun w _ => Eval.memOk_ite (Eval.memOk_promote w ..) Iff.rfl) v
@[simp] theorem Eval.memOk_heatDown (v : Eval) (steeps : List Steep) : (v.heatDown steeps).s.MemOk ↔ v.s.MemOk :=
  Eval.memOk_foldl (fun w _ => Eval.memOk_ite (Eval.memOk_demote w _) Iff.rfl) v

/-! ### The rows of Machine/HostRows.lean -/

@[simp ↓] theorem Answer.MemOk.execSubmissionFetch {q : RingId} {s : State} (ok : s.MemOk) :
    Answer.MemOk (execSubmissionFetch q s) := by
  refine State.MemOk.next ?_
  dsimp only
  split <;> simp [ok]
@[simp ↓] theorem Answer.MemOk.execBootDoorbell {v : Word} {s : State} (ok : s.MemOk) :
    Answer.MemOk (execBootDoorbell v s) := by
  unfold Machine.execBootDoorbell
  simp [ok]
@[simp ↓] theorem Answer.MemOk.execSqTailDoorbell {q : RingId} {t : Word} {s : State} (ok : s.MemOk) :
    Answer.MemOk (execSqTailDoorbell q t s) := by
  unfold Machine.execSqTailDoorbell
  simp [ok]
@[simp ↓] theorem Answer.MemOk.execCqHeadDoorbell {q : RingId} {h : Word} {s : State} (ok : s.MemOk) :
    Answer.MemOk (execCqHeadDoorbell q h s) := by
  unfold Machine.execCqHeadDoorbell
  simp [ok]
@[simp ↓] theorem Answer.MemOk.execRingEnable {q : RingId} {v : Word} {s : State} (ok : s.MemOk) :
    Answer.MemOk (execRingEnable q v s) := by
  unfold Machine.execRingEnable
  simp [ok]
@[simp ↓] theorem Answer.MemOk.execRingStop {q : RingId} {v : Word} {s : State} (ok : s.MemOk) :
    Answer.MemOk (execRingStop q v s) := by
  unfold Machine.execRingStop
  simp [ok]
@[simp ↓] theorem Answer.MemOk.execRingReset {s : State} (ok : s.MemOk) : Answer.MemOk (execRingReset s) := by
  unfold Machine.execRingReset
  simp [ok]
@[simp ↓] theorem Answer.MemOk.execHwinEn {en : Bool} {s : State} (ok : s.MemOk) :
    Answer.MemOk (execHwinEn en s) := by
  unfold Machine.execHwinEn
  simp [ok]
@[simp ↓] theorem Answer.MemOk.execRegisterWrite {off : BitVec 17} {bytes : BitVec 4} {v : Option Word} {s : State}
    (ok : s.MemOk) :
    Answer.MemOk (execRegisterWrite off bytes v s) := by
  have h₁ : (if bytes != 8 || off.toNat % 8 != 0 then
      { s with host := { s.host with errAlign := BitVec.ofNat 16 (satInc 16 s.host.errAlign.toNat) } } else s).MemOk :=
    State.memOk_ite ok ok
  refine State.MemOk.next ?_
  split
  · exact State.memOk_ite h₁ h₁.bar0Write
  · exact h₁
@[simp ↓] theorem Answer.MemOk.execIntDelayExpire {q : RingId} {s : State} (ok : s.MemOk) :
    Answer.MemOk (execIntDelayExpire q s) := by
  unfold Machine.execIntDelayExpire
  simp [ok]
@[simp ↓] theorem Answer.MemOk.execHdmDecoderCommit {s : State} (ok : s.MemOk) :
    Answer.MemOk (execHdmDecoderCommit s) := by
  unfold Machine.execHdmDecoderCommit
  simp [ok]
@[simp ↓] theorem Answer.MemOk.execHostSnoop {a : BitVec 64} {s : State} (ok : s.MemOk) :
    Answer.MemOk (execHostSnoop a s) := by
  unfold Machine.execHostSnoop
  simp [ok]
@[simp ↓] theorem Answer.MemOk.execCxlPortDown {p : BitVec 1} {s : State} (ok : s.MemOk) :
    Answer.MemOk (execCxlPortDown p s) := by
  unfold Machine.execCxlPortDown
  simp [ok]
@[simp ↓] theorem Answer.MemOk.execCxlPortUp {p : BitVec 1} {speed width : BitVec 4} {pid : BitVec 12} {s : State}
    (ok : s.MemOk) :
    Answer.MemOk (execCxlPortUp p speed width pid s) := by
  unfold Machine.execCxlPortUp
  simp [ok]
@[simp ↓] theorem Answer.MemOk.execIdeFailure {p : BitVec 1} {s : State} (ok : s.MemOk) :
    Answer.MemOk (execIdeFailure p s) := by
  unfold Machine.execIdeFailure
  simp [ok]
@[simp ↓] theorem Answer.MemOk.execDoeRequest {p : BitVec 1} {m : DoeMessage} {s : State} (ok : s.MemOk) :
    Answer.MemOk (execDoeRequest p m s) := by
  unfold Machine.execDoeRequest
  simp [ok]

/-! ### The rows of Machine/Csr.lean -/

@[simp ↓] theorem Answer.MemOk.execGo {s : State} (ok : s.MemOk) : Answer.MemOk (execGo s) := by
  unfold Machine.execGo
  simp [ok]
@[simp ↓] theorem Answer.MemOk.execClear {c : CoreId} {s : State} (ok : s.MemOk) : Answer.MemOk (execClear c s) := by
  unfold Machine.execClear
  simp [ok]
@[simp ↓] theorem Answer.MemOk.execFreeze {c : CoreId} {on : Bool} {s : State} (ok : s.MemOk) :
    Answer.MemOk (execFreeze c on s) := by
  unfold Machine.execFreeze
  simp [ok]
@[simp ↓] theorem Answer.MemOk.execArbCommit {c : CoreId} {s : State} (ok : s.MemOk) :
    Answer.MemOk (execArbCommit c s) := by
  unfold Machine.execArbCommit
  simp [ok]
@[simp ↓] theorem Answer.MemOk.execCorePour {c : CoreId} {v : Word} {s : State} (ok : s.MemOk) :
    Answer.MemOk (execCorePour c v s) := by
  unfold Machine.execCorePour
  simp [ok]

/-! ### The rows of Machine/Queues.lean -/

@[simp ↓] theorem Answer.MemOk.execSqEntrySend {c : CoreId} {q : BitVec 3} {s : State} (ok : s.MemOk) :
    Answer.MemOk (execSqEntrySend c q s) := by
  refine State.MemOk.next ?_
  dsimp only
  split <;> simp [ok]
@[simp ↓] theorem Answer.MemOk.execSqEntryArrive {c : CoreId} {q : BitVec 3} {s : State} (ok : s.MemOk) :
    Answer.MemOk (execSqEntryArrive c q s) := by
  refine State.MemOk.next ?_
  repeat' split
  all_goals simp +contextual [ok]
@[simp ↓] theorem Answer.MemOk.execSqCreditGrant {c : CoreId} {q : BitVec 3} {phase : Bool} {s : State} (ok : s.MemOk)
    :
    Answer.MemOk (execSqCreditGrant c q phase s) := by
  refine State.MemOk.next ?_
  dsimp only
  split <;> simp [ok]
@[simp ↓] theorem Answer.MemOk.execSpillReturn {c : CoreId} {q : BitVec 4} {s : State} (ok : s.MemOk) :
    Answer.MemOk (execSpillReturn c q s) := by
  unfold Machine.execSpillReturn
  simp [ok]

/-! ### The rows of Machine/MeshRows.lean -/

@[simp ↓] theorem Answer.MemOk.execReplan {p : RoutePlan} {s : State} (ok : s.MemOk) :
    Answer.MemOk (execReplan p s) := by
  refine State.MemOk.next ?_
  dsimp only
  split <;> simp [ok]
@[simp ↓] theorem Answer.MemOk.execEpochFlip {p : PhysId} {s : State} (ok : s.MemOk) :
    Answer.MemOk (execEpochFlip p s) := by
  refine Answer.memOk_ite (Answer.memOk_fault _) (State.MemOk.next ?_)
  split
  · exact ok
  · exact State.memOk_ite ok (by simp [ok])
@[simp ↓] theorem Answer.MemOk.execOldEmpty {p : PhysId} {s : State} (ok : s.MemOk) :
    Answer.MemOk (execOldEmpty p s) := by
  refine Answer.memOk_ite (Answer.memOk_fault _) (State.MemOk.next ?_)
  split
  · exact ok
  · exact State.memOk_ite ok (by simp [ok])
@[simp ↓] theorem Answer.MemOk.execRouterIsolationTimeout {p : PhysId} {s : State} (ok : s.MemOk) :
    Answer.MemOk (execRouterIsolationTimeout p s) := by
  refine Answer.memOk_ite (Answer.memOk_fault _) (State.MemOk.next ?_)
  split
  · exact ok
  · exact State.memOk_ite ok (State.memOk_foldl (fun t k ht => ht.loseEntryOf) (by simp [ok])).endPlan
@[simp ↓] theorem Answer.MemOk.execArbRequest {c : CoreId} {a : BitVec 5} {k : BitVec 3} {s : State} (ok : s.MemOk) :
    Answer.MemOk (execArbRequest c a k s) := by
  fun_cases Machine.execArbRequest <;> simp [ok]
@[simp ↓] theorem Answer.MemOk.execArbResourceFree {c : CoreId} {a : BitVec 5} {s : State} (ok : s.MemOk) :
    Answer.MemOk (execArbResourceFree c a s) := by
  fun_cases Machine.execArbResourceFree <;> simp [ok]
@[simp ↓] theorem Answer.MemOk.execArbWithdraw {c : CoreId} {a : BitVec 5} {s : State} (ok : s.MemOk) :
    Answer.MemOk (execArbWithdraw c a s) := by
  fun_cases Machine.execArbWithdraw <;> simp [ok]
@[simp ↓] theorem Answer.MemOk.execRouterArb {k : CmdRef} {s : State} (ok : s.MemOk) :
    Answer.MemOk (execRouterArb k s) := by
  refine State.MemOk.next (ok.runCommand fun c t ht => ?_)
  dsimp only
  split
  · simp [ht]
  · split
    · simp [ht]
    · split <;> simp [ht]
@[simp ↓] theorem Answer.MemOk.execBarrierArrival {c : CoreId} {b : BitVec 8} {s : State} (ok : s.MemOk) :
    Answer.MemOk (execBarrierArrival c b s) := by
  refine State.MemOk.next ?_
  dsimp only
  repeat' split
  all_goals simp [ok]
@[simp ↓] theorem Answer.MemOk.execBarrierRelease {c : CoreId} {b : BitVec 8} {s : State} (ok : s.MemOk) :
    Answer.MemOk (execBarrierRelease c b s) := by
  refine State.MemOk.next ?_
  dsimp only
  repeat' split
  all_goals simp [ok]
@[simp ↓] theorem Answer.MemOk.execBarrierSet {k : CmdRef} {s : State} (ok : s.MemOk) :
    Answer.MemOk (execBarrierSet k s) := by
  refine State.MemOk.next (ok.runCommand fun c t ht => ?_)
  dsimp only
  split <;> simp [ht]
@[simp ↓] theorem Answer.MemOk.execSpraySet {k : CmdRef} {s : State} (ok : s.MemOk) :
    Answer.MemOk (execSpraySet k s) := by
  refine State.MemOk.next (ok.runCommand fun c t ht => ?_)
  dsimp only
  simp [ht]

/-! ### The rows of Machine/ZLink.lean -/

@[simp ↓] theorem Answer.MemOk.execLcredit {p : ZPort} {f : Flit} {s : State} (ok : s.MemOk) :
    Answer.MemOk (execLcredit p f s) := by
  unfold Machine.execLcredit
  simp [ok]
@[simp ↓] theorem Answer.MemOk.execLnak {p : ZPort} {f : Flit} {s : State} (ok : s.MemOk) :
    Answer.MemOk (execLnak p f s) := by
  unfold Machine.execLnak
  simp [ok]
@[simp ↓] theorem Answer.MemOk.execFlitCrcError {p : ZPort} {seq : BitVec 12} {s : State} (ok : s.MemOk) :
    Answer.MemOk (execFlitCrcError p seq s) := by
  unfold Machine.execFlitCrcError
  simp [ok]
@[simp ↓] theorem Answer.MemOk.execResp {p : ZPort} {f : Flit} {s : State} (ok : s.MemOk) :
    Answer.MemOk (execResp p f s) := by
  refine State.MemOk.next (ok.receive fun t ht => ?_)
  dsimp only
  split <;> simp [ht]

/-! ### The rows of Machine/Pour.lean -/

@[simp ↓] theorem Answer.MemOk.execPour {p : ZPort} {f : Flit} {s : State} (ok : s.MemOk) :
    Answer.MemOk (execPour p f s) := by
  unfold Machine.execPour
  simp +contextual [ok]
@[simp ↓] theorem Answer.MemOk.execLack {p : ZPort} {f : Flit} {s : State} (ok : s.MemOk) :
    Answer.MemOk (execLack p f s) := by
  unfold Machine.execLack
  simp [ok]
@[simp ↓] theorem Answer.MemOk.execWack {p : ZPort} {f : Flit} {s : State} (ok : s.MemOk) :
    Answer.MemOk (execWack p f s) := by
  unfold Machine.execWack
  simp +contextual [ok]
@[simp ↓] theorem Answer.MemOk.execErr {p : ZPort} {f : Flit} {s : State} (ok : s.MemOk) :
    Answer.MemOk (execErr p f s) := by
  refine State.MemOk.next (ok.receive fun t ht => ?_)
  split <;> simp [ht]
@[simp ↓] theorem Answer.MemOk.execPcredit {p : ZPort} {f : Flit} {s : State} (ok : s.MemOk) :
    Answer.MemOk (execPcredit p f s) := by
  refine State.MemOk.next (ok.receive fun t ht => ?_)
  dsimp only
  simp [ht]
@[simp ↓] theorem Answer.MemOk.execPnak {p : ZPort} {f : Flit} {s : State} (ok : s.MemOk) :
    Answer.MemOk (execPnak p f s) := by
  unfold Machine.execPnak
  simp [ok]
@[simp ↓] theorem Answer.MemOk.execPourTimeout {sl : PourSlot} {s : State} (ok : s.MemOk) :
    Answer.MemOk (execPourTimeout sl s) := by
  refine State.MemOk.next ?_
  split
  · split <;> simp [ok]
  · simp [ok]
@[simp ↓] theorem Answer.MemOk.execPourSet {k : CmdRef} {s : State} (ok : s.MemOk) :
    Answer.MemOk (execPourSet k s) := by
  refine State.MemOk.next (ok.runCommand fun c t ht => ?_)
  dsimp only
  split
  · simp [ht]
  · split <;> simp [ht]

/-! ### The rows of Machine/Reshard.lean -/

@[simp ↓] theorem Answer.MemOk.execReshard {k : CmdRef} {s : State} (ok : s.MemOk) :
    Answer.MemOk (execReshard k s) := by
  refine State.MemOk.next (ok.runCommand fun c t ht => ?_)
  dsimp only
  split
  · simp [ht]
  · split <;> simp [ht]
@[simp ↓] theorem Answer.MemOk.execDrained {n : NodeId} {s : State} (ok : s.MemOk) :
    Answer.MemOk (execDrained n s) := by
  unfold Machine.execDrained
  simp [ok]
@[simp ↓] theorem Answer.MemOk.execCopy {s : State} (ok : s.MemOk) : Answer.MemOk (execCopy s) := by
  refine State.MemOk.next ?_
  split <;> simp [ok]
@[simp ↓] theorem Answer.MemOk.execCommit {s : State} (ok : s.MemOk) : Answer.MemOk (execCommit s) := by
  refine State.MemOk.next ?_
  split <;> simp [ok]
@[simp ↓] theorem Answer.MemOk.execAbandon {s : State} (ok : s.MemOk) : Answer.MemOk (execAbandon s) := by
  unfold Machine.execAbandon
  simp [ok]
@[simp ↓] theorem Answer.MemOk.execReshardDrainTimeout {s : State} (ok : s.MemOk) :
    Answer.MemOk (execReshardDrainTimeout s) := by
  refine State.MemOk.next ?_
  split <;> simp [ok]
@[simp ↓] theorem Answer.MemOk.execCtrl {p : ZPort} {f : Flit} {s : State} (ok : s.MemOk) :
    Answer.MemOk (execCtrl p f s) := by
  refine State.MemOk.next (ok.receive fun t ht => ?_)
  split <;> simp [ht]

/-! ### The rows of Machine/ZPorts.lean -/

@[simp ↓] theorem Answer.MemOk.execFabricSet {k : CmdRef} {s : State} (ok : s.MemOk) :
    Answer.MemOk (execFabricSet k s) := by
  refine State.MemOk.next (ok.runCommand fun c t ht => ?_)
  dsimp only
  split
  · simp [ht]
  · split
    · simp [ht]
    · refine State.MemOk.settleFabric (State.MemOk.sweepUnreachable (State.memOk_foldl (fun u e hu => ?_) ?_))
      · simp [hu]
      · simp [ht]
@[simp ↓] theorem Answer.MemOk.execFabricTrainingTimeout {s : State} (ok : s.MemOk) :
    Answer.MemOk (execFabricTrainingTimeout s) := by
  refine State.MemOk.next ?_
  dsimp only
  split <;> simp [ok]
@[simp ↓] theorem Answer.MemOk.execZlPortUp {p : ZPort} {t : PortTraining} {s : State} (ok : s.MemOk) :
    Answer.MemOk (execZlPortUp p t s) := by
  refine State.MemOk.next ?_
  dsimp only
  split
  · simp [ok]
  · split
    · simp [ok]
    · split <;> simp [ok]
@[simp ↓] theorem Answer.MemOk.execPortRetrain {p : ZPort} {lanesGood : BitVec 8} {s : State} (ok : s.MemOk) :
    Answer.MemOk (execPortRetrain p lanesGood s) := by
  refine State.MemOk.next ?_
  dsimp only
  split
  · simp [ok]
  · split <;> simp [ok]
@[simp ↓] theorem Answer.MemOk.execEqLoopEval {p : ZPort} {lane : BitVec 3} {dev : BitVec 8} {s : State}
    (ok : s.MemOk) :
    Answer.MemOk (execEqLoopEval p lane dev s) := by
  refine State.MemOk.next ?_
  dsimp only
  split <;> simp [ok]

/-! ### The rows of Machine/Power.lean -/

@[simp ↓] theorem Answer.MemOk.execRateSensorCompare {q : QuadId} {rate : BitVec 8} {s : State} (ok : s.MemOk) :
    Answer.MemOk (execRateSensorCompare q rate s) := by
  unfold Machine.execRateSensorCompare
  simp [ok]
@[simp ↓] theorem Answer.MemOk.execSensorSample {r : SensorReadings} {s : State} (ok : s.MemOk) :
    Answer.MemOk (execSensorSample r s) := by
  unfold Machine.execSensorSample
  simp [ok]
@[simp ↓] theorem Answer.MemOk.execStackOverheat {k : StackId} {temp : BitVec 16} {s : State} (ok : s.MemOk) :
    Answer.MemOk (execStackOverheat k temp s) := by
  unfold Machine.execStackOverheat
  simp [ok]
@[simp ↓] theorem Answer.MemOk.execCoolantAlarm {r : CoolReadings} {s : State} (ok : s.MemOk) :
    Answer.MemOk (execCoolantAlarm r s) := by
  unfold Machine.execCoolantAlarm
  simp [ok]
@[simp ↓] theorem Answer.MemOk.execRateLoopEval {s : State} (ok : s.MemOk) : Answer.MemOk (execRateLoopEval s) := by
  unfold Machine.execRateLoopEval
  simp [ok]
@[simp ↓] theorem Answer.MemOk.execThermalLoopEval {s : State} (ok : s.MemOk) :
    Answer.MemOk (execThermalLoopEval s) := by
  unfold Machine.execThermalLoopEval
  simp [ok]
@[simp ↓] theorem Answer.MemOk.execTworkRaise {q : QuadId} {s : State} (ok : s.MemOk) :
    Answer.MemOk (execTworkRaise q s) := by
  unfold Machine.execTworkRaise
  simp [ok]
@[simp ↓] theorem Answer.MemOk.execBoundsSet {k : CmdRef} {s : State} (ok : s.MemOk) :
    Answer.MemOk (execBoundsSet k s) := by
  refine State.MemOk.next (ok.runCommand fun c t ht => ?_)
  dsimp only
  split
  · simp [ht]
  · split <;> simp [ht]
@[simp ↓] theorem Answer.MemOk.execUsecTick {s : State} (ok : s.MemOk) : Answer.MemOk (execUsecTick s) := by
  unfold Machine.execUsecTick
  simp [ok]
@[simp ↓] theorem Answer.MemOk.execHeartbeatTick {s : State} (ok : s.MemOk) : Answer.MemOk (execHeartbeatTick s) := by
  unfold Machine.execHeartbeatTick
  simp [ok]

/-! ### The rows of Machine/Ebb.lean -/

@[simp ↓] theorem Answer.MemOk.execProbe {c : CoreId} {answered : Bool} {s : State} (ok : s.MemOk) :
    Answer.MemOk (execProbe c answered s) := by
  unfold Machine.execProbe
  simp [ok]
@[simp ↓] theorem Answer.MemOk.execProbeRetry {c : CoreId} {answered routerWorks : Bool} {s : State} (ok : s.MemOk) :
    Answer.MemOk (execProbeRetry c answered routerWorks s) := by
  refine State.MemOk.next ?_
  dsimp only
  split <;> simp [ok]
@[simp ↓] theorem Answer.MemOk.execSelfCheckReport {c : CoreId} {k : SelfCheck} {s : State} (ok : s.MemOk) :
    Answer.MemOk (execSelfCheckReport c k s) := by
  refine State.MemOk.next ?_
  dsimp only
  repeat' split
  all_goals simp [ok]
@[simp ↓] theorem Answer.MemOk.execWeakCoreFence {c : CoreId} {s : State} (ok : s.MemOk) :
    Answer.MemOk (execWeakCoreFence c s) := by
  unfold Machine.execWeakCoreFence
  simp [ok]
@[simp ↓] theorem Answer.MemOk.execPendingFaultCommit {d : DieId} {row : BitVec 5} {s : State} (ok : s.MemOk) :
    Answer.MemOk (execPendingFaultCommit d row s) := by
  refine State.MemOk.next ?_
  split
  · exact ok
  · exact State.memOk_foldl (fun t p ht => State.memOk_ite ht ht.commitWhenFree) ok
@[simp ↓] theorem Answer.MemOk.execThermalEbb {q : QuadId} {s : State} (ok : s.MemOk) :
    Answer.MemOk (execThermalEbb q s) := by
  unfold Machine.execThermalEbb
  simp [ok]
@[simp ↓] theorem Answer.MemOk.execEbbPowerOff {q : QuadId} {s : State} (ok : s.MemOk) :
    Answer.MemOk (execEbbPowerOff q s) := by
  refine State.MemOk.next (State.memOk_ite ok ?_)
  have h₁ : ((s.regionsIn q.toNat).foldl (fun (t : State) r => t.loseToEbb r q.toNat) s).MemOk :=
    State.memOk_foldl (fun t r ht => ht.loseToEbb) ok
  have h₂ := State.memOk_foldl (xs := replanAround (.quadrantEbb q))
    (f := fun t p => t.setRouter p { t.router p with isolated := true }) (fun t p ht => by simp [ht])
    (State.memOk_ite (c := (s.regionsIn q.toNat).isEmpty) h₁ ((State.memOk_logEbb _ q.toNat (s.regionsIn q.toNat)).2 h₁))
  have h₃ := State.memOk_foldl (xs := quadPhys q.toNat)
    (f := fun t p => if keptRouter q.toNat p then t.setRouter p { t.router p with pass := true } else t)
    (fun t p ht => by simp [ht]) h₂
  exact (State.memOk_remap _).2 (State.MemOk.endPlan ((State.memOk_setQuad ..).2 h₃.loseInside.darkCores))
@[simp ↓] theorem Answer.MemOk.execQuadrantReturn {q : QuadId} {t : SelfTests} {s : State} (ok : s.MemOk) :
    Answer.MemOk (execQuadrantReturn q t s) := by
  unfold Machine.execQuadrantReturn
  simp [ok]
@[simp ↓] theorem Answer.MemOk.execHartWatchdogExpire {h : Hart} {s : State} (ok : s.MemOk) :
    Answer.MemOk (execHartWatchdogExpire h s) := by
  refine State.MemOk.next ?_
  dsimp only
  repeat' split
  all_goals simp [ok]
@[simp ↓] theorem Answer.MemOk.execUndervoltageStop {s : State} (ok : s.MemOk) :
    Answer.MemOk (execUndervoltageStop s) := by
  unfold Machine.execUndervoltageStop
  simp [ok]
@[simp ↓] theorem Answer.MemOk.execOvervoltageStop {s : State} (ok : s.MemOk) :
    Answer.MemOk (execOvervoltageStop s) := by
  unfold Machine.execOvervoltageStop
  simp [ok]
@[simp ↓] theorem Answer.MemOk.execBrickFail {retryOk : Bool} {s : State} (ok : s.MemOk) :
    Answer.MemOk (execBrickFail retryOk s) := by
  refine State.MemOk.next ?_
  dsimp only
  split
  · simp [ok]
  · split <;> simp [ok]
@[simp ↓] theorem Answer.MemOk.execPhaseFail {q : QuadId} {retryOk : Bool} {s : State} (ok : s.MemOk) :
    Answer.MemOk (execPhaseFail q retryOk s) := by
  refine State.MemOk.next ?_
  dsimp only
  split
  · simp [ok]
  · split <;> simp [ok]
@[simp ↓] theorem Answer.MemOk.execEdgePhaseFail {e : BitVec 2} {retryOk : Bool} {s : State} (ok : s.MemOk) :
    Answer.MemOk (execEdgePhaseFail e retryOk s) := by
  refine State.MemOk.next ?_
  dsimp only
  split
  · simp [ok]
  · split <;> simp [ok]
@[simp ↓] theorem Answer.MemOk.execStackFailure {k : StackId} {o : StackFault} {s : State} (ok : s.MemOk) :
    Answer.MemOk (execStackFailure k o s) := by
  refine State.MemOk.next ?_
  dsimp only
  split
  · simp [ok]
  · split <;> simp [ok]

/-! ### The rows of Machine/Commands.lean -/

@[simp ↓] theorem Answer.MemOk.execIdentify {k : CmdRef} {s : State} (ok : s.MemOk) :
    Answer.MemOk (execIdentify k s) := by
  refine State.MemOk.next (ok.runCommand fun c t ht => ?_)
  simp [ht]
@[simp ↓] theorem Answer.MemOk.execResync {k : CmdRef} {s : State} (ok : s.MemOk) :
    Answer.MemOk (execResync k s) := by
  refine State.MemOk.next (ok.runCommand fun c t ht => ?_)
  dsimp only
  simp [ht]
@[simp ↓] theorem Answer.MemOk.execCsrRead {k : CmdRef} {s : State} (ok : s.MemOk) :
    Answer.MemOk (execCsrRead k s) := by
  refine State.MemOk.next (ok.runCommand fun c t ht => ?_)
  dsimp only
  split <;> simp [ht]
@[simp ↓] theorem Answer.MemOk.execCsrWrite {k : CmdRef} {s : State} (ok : s.MemOk) :
    Answer.MemOk (execCsrWrite k s) := by
  refine State.MemOk.next (ok.runCommand fun c t ht => ?_)
  have h₁ : ((accessWords c.sub).foldl (State.csrWriteWord c.sub) (none, t)).2.MemOk :=
    State.memOk_foldl_snd (fun x w hx => State.MemOk.csrWriteWord hx) ht
  dsimp only
  split <;> simp [h₁]
@[simp ↓] theorem Answer.MemOk.execLogRead {k : CmdRef} {s : State} (ok : s.MemOk) :
    Answer.MemOk (execLogRead k s) := by
  refine State.MemOk.next (ok.runCommand fun c t ht => ?_)
  dsimp only
  simp [ht]
@[simp ↓] theorem Answer.MemOk.execFaultmapRead {k : CmdRef} {s : State} (ok : s.MemOk) :
    Answer.MemOk (execFaultmapRead k s) := by
  refine State.MemOk.next (ok.runCommand fun c t ht => ?_)
  simp [ht]
@[simp ↓] theorem Answer.MemOk.execCkptCopy {k : CmdRef} {s : State} (ok : s.MemOk) :
    Answer.MemOk (execCkptCopy k s) := by
  refine State.MemOk.next (ok.runCommand fun c t ht => ?_)
  dsimp only
  split <;> simp [ht]
@[simp ↓] theorem Answer.MemOk.execShardCopyComplete {j : CopyJob} {o : CopyOutcome} {s : State} (ok : s.MemOk) :
    Answer.MemOk (execShardCopyComplete j o s) := by
  refine State.MemOk.next ?_
  repeat' split
  all_goals simp [ok]

/-! ### The rows of Machine/StoreOps.lean -/

@[simp ↓] theorem Answer.MemOk.execFwStage {k : CmdRef} {s : State} (ok : s.MemOk) :
    Answer.MemOk (execFwStage k s) := by
  refine State.MemOk.next (ok.runCommand fun c t ht => ?_)
  dsimp only
  repeat' split
  all_goals simp [ht]
@[simp ↓] theorem Answer.MemOk.execFwActivate {k : CmdRef} {s : State} (ok : s.MemOk) :
    Answer.MemOk (execFwActivate k s) := by
  refine State.MemOk.next (ok.runCommand fun c t ht => ?_)
  dsimp only
  split
  · simp [ht]
  · split <;> simp [ht]
@[simp ↓] theorem Answer.MemOk.execCalExport {k : CmdRef} {s : State} (ok : s.MemOk) :
    Answer.MemOk (execCalExport k s) := by
  refine State.MemOk.next (ok.runCommand fun c t ht => ?_)
  simp [ht]
@[simp ↓] theorem Answer.MemOk.execCalImport {k : CmdRef} {s : State} (ok : s.MemOk) :
    Answer.MemOk (execCalImport k s) := by
  refine State.MemOk.next (ok.runCommand fun c t ht => ?_)
  dsimp only
  repeat' split
  all_goals simp [ht]
@[simp ↓] theorem Answer.MemOk.execAttest {k : CmdRef} {s : State} (ok : s.MemOk) :
    Answer.MemOk (execAttest k s) := by
  refine State.MemOk.next (ok.runCommand fun c t ht => ?_)
  dsimp only
  repeat' split
  all_goals simp [ht]
@[simp ↓] theorem Answer.MemOk.execLowerTreeBuild {s : State} (ok : s.MemOk) :
    Answer.MemOk (execLowerTreeBuild s) := by
  refine State.MemOk.next ?_
  dsimp only
  split <;> simp [ok]
@[simp ↓] theorem Answer.MemOk.execJournalCompaction {s : State} (ok : s.MemOk) :
    Answer.MemOk (execJournalCompaction s) := by
  refine State.MemOk.next ?_
  dsimp only
  split
  · simp [ok]
  · split
    · simp [ok]
    · split <;> simp [ok]
@[simp ↓] theorem Answer.MemOk.execCountersRecord {s : State} (ok : s.MemOk) :
    Answer.MemOk (execCountersRecord s) := by
  unfold Machine.execCountersRecord
  simp [ok]

/-! ### The rows of Machine/BringUp.lean -/

@[simp ↓] theorem Answer.MemOk.execPowerOn {s : State} (ok : s.MemOk) : Answer.MemOk (execPowerOn s) := by
  unfold Machine.execPowerOn
  simp [ok]
@[simp ↓] theorem Answer.MemOk.execBringUp {t : BootReport} {s : State} (ok : s.MemOk) :
    Answer.MemOk (execBringUp t s) := by
  refine State.MemOk.next ?_
  dsimp only
  split
  · simp [ok]
  · split <;> simp [ok]

/-! ### The rows of Machine/Tiers.lean -/

@[simp ↓] theorem Answer.MemOk.execPtMissWalk {c : CoreId} {p : PageId} {s : State} (ok : s.MemOk) :
    Answer.MemOk (execPtMissWalk c p s) := by
  unfold Machine.execPtMissWalk
  simp [ok]
@[simp ↓] theorem Answer.MemOk.execPtInvalidate {c : CoreId} {p : PageId} {s : State} (ok : s.MemOk) :
    Answer.MemOk (execPtInvalidate c p s) := by
  refine State.MemOk.next ?_
  dsimp only
  split <;> simp +contextual [ok]
@[simp ↓] theorem Answer.MemOk.execPlace {k : CmdRef} {s : State} (ok : s.MemOk) : Answer.MemOk (execPlace k s) := by
  refine State.MemOk.next (ok.runCommand fun c t ht => ?_)
  dsimp only
  repeat' split
  all_goals simp +contextual [ht]
@[simp ↓] theorem Answer.MemOk.execTierPool {k : CmdRef} {s : State} (ok : s.MemOk) :
    Answer.MemOk (execTierPool k s) := by
  refine State.MemOk.next (ok.runCommand fun c t ht => ?_)
  dsimp only
  split <;> simp [ht]
@[simp ↓] theorem Answer.MemOk.execSteepSet {k : CmdRef} {s : State} (ok : s.MemOk) :
    Answer.MemOk (execSteepSet k s) := by
  refine State.MemOk.next (ok.runCommand fun c t ht => ?_)
  dsimp only
  simp [ht]
@[simp ↓] theorem Answer.MemOk.execPageRestore {k : CmdRef} {s : State} (ok : s.MemOk) :
    Answer.MemOk (execPageRestore k s) := by
  refine State.MemOk.next ?_
  split
  · simp [ok]
  · refine ok.runCommand fun c t ht => ?_
    dsimp only
    repeat' split
    all_goals simp [ht]
@[simp ↓] theorem Answer.MemOk.execMigEval {x : List (PageId × BitVec 16)} {s : State} (ok : s.MemOk) :
    Answer.MemOk (execMigEval x s) := by
  refine State.MemOk.next ?_
  simp [ok]
@[simp ↓] theorem Answer.MemOk.execPageMoveComplete {p : PageId} {o : MoveOutcome} {s : State} (ok : s.MemOk) :
    Answer.MemOk (execPageMoveComplete p o s) := by
  refine State.MemOk.next ?_
  dsimp only
  repeat' split
  all_goals simp [ok]
@[simp ↓] theorem Answer.MemOk.execTierReport {r : RegionId} {s : State} (ok : s.MemOk) :
    Answer.MemOk (execTierReport r s) := by
  refine State.MemOk.next ?_
  dsimp only
  split
  · simp [ok]
  · split <;> simp [ok]
@[simp ↓] theorem Answer.MemOk.execWatchTick {s : State} (ok : s.MemOk) : Answer.MemOk (execWatchTick s) := by
  unfold Machine.execWatchTick
  simp [ok]
@[simp ↓] theorem Answer.MemOk.execWdogExpire {c : CoreId} {s : State} (ok : s.MemOk) :
    Answer.MemOk (execWdogExpire c s) := by
  refine State.MemOk.next ?_
  dsimp only
  split <;> simp +contextual [ok]

/-! ### The rows of Machine/VectorEngine.lean -/

@[simp ↓] theorem Answer.MemOk.execEngineInstrStart {c : CoreId} {e : Engine} {s : State} (ok : s.MemOk) :
    Answer.MemOk (execEngineInstrStart c e s) := by
  refine State.MemOk.next ?_
  dsimp only
  repeat' split
  all_goals simp [ok]
@[simp ↓] theorem Answer.MemOk.execEngineGroup {c : CoreId} {e : Engine} {s : State} (ok : s.MemOk) :
    Answer.MemOk (execEngineGroup c e s) := by
  refine State.MemOk.next ?_
  dsimp only
  repeat' split
  all_goals simp +contextual [ok]
@[simp ↓] theorem Answer.MemOk.execMmaTile {c : CoreId} {s : State} (ok : s.MemOk) :
    Answer.MemOk (execMmaTile c s) := by
  refine State.MemOk.next ?_
  repeat' split
  all_goals simp [ok]

/-! ### The rows of Machine/Streams.lean -/

@[simp ↓] theorem Answer.MemOk.execAgTileRead {c : CoreId} {g : BitVec 2} {s : State} (ok : s.MemOk) :
    Answer.MemOk (execAgTileRead c g s) := by
  refine State.MemOk.next (ok.landing fun t ht => ?_)
  dsimp only
  repeat' split
  all_goals simp [ht]
@[simp ↓] theorem Answer.MemOk.execFetchReadReturn {c : CoreId} {g : BitVec 2} {k : Nat} {o : ReadOutcome} {s : State}
    (ok : s.MemOk) :
    Answer.MemOk (execFetchReadReturn c g k o s) := by
  refine State.MemOk.next (ok.landing fun t ht => ?_)
  dsimp only
  repeat' split
  all_goals simp [ht]
@[simp ↓] theorem Answer.MemOk.execReadDeadlineExpire {c : CoreId} {g : BitVec 2} {k : Nat} {s : State} (ok : s.MemOk)
    :
    Answer.MemOk (execReadDeadlineExpire c g k s) := by
  refine State.MemOk.next (ok.landing fun t ht => ?_)
  dsimp only
  repeat' split
  all_goals simp [ht]
@[simp ↓] theorem Answer.MemOk.execAgWriteEntry {c : CoreId} {g : BitVec 2} {s : State} (ok : s.MemOk) :
    Answer.MemOk (execAgWriteEntry c g s) := by
  refine State.MemOk.next (ok.landing fun t ht => ?_)
  dsimp only
  repeat' split
  all_goals simp [ht]
@[simp ↓] theorem Answer.MemOk.execPackFrame {c : CoreId} {s : State} (ok : s.MemOk) :
    Answer.MemOk (execPackFrame c s) := by
  refine State.MemOk.next (ok.landing fun t ht => ?_)
  dsimp only
  repeat' split
  all_goals simp [ht]
@[simp ↓] theorem Answer.MemOk.execUnpackFrame {c : CoreId} {s : State} (ok : s.MemOk) :
    Answer.MemOk (execUnpackFrame c s) := by
  refine State.MemOk.next (ok.landing fun t ht => ?_)
  dsimp only
  repeat' split
  all_goals simp [ht]

/-! ### The rows of Machine/Dma.lean -/

@[simp ↓] theorem Answer.MemOk.execDmaDescriptor {c : CoreId} {ch : BitVec 1} {o : DmaOutcome} {s : State}
    (ok : s.MemOk) :
    Answer.MemOk (execDmaDescriptor c ch o s) := by
  refine State.MemOk.next ?_
  dsimp only
  repeat' split
  all_goals simp [ok]
@[simp ↓] theorem Answer.MemOk.execPostedWriteRefused {c : CoreId} {ch : BitVec 1} {s : State} (ok : s.MemOk) :
    Answer.MemOk (execPostedWriteRefused c ch s) := by
  refine State.MemOk.next (State.memOk_ite ok ?_)
  exact (State.memOk_setCore ..).2 (State.memOk_foldl (fun t x ht => ht.undefinePosted) ok)

/-! ### The rows of Machine/RegionCmds.lean -/

@[simp ↓] theorem Answer.MemOk.execRegionConfig {k : CmdRef} {s : State} (ok : s.MemOk) :
    Answer.MemOk (execRegionConfig k s) := by
  refine State.MemOk.next (ok.runCommand fun c t ht => ?_)
  dsimp only
  split <;> simp [ht]
@[simp ↓] theorem Answer.MemOk.execRegionEnable {k : CmdRef} {s : State} (ok : s.MemOk) :
    Answer.MemOk (execRegionEnable k s) := by
  refine State.MemOk.next ?_
  split
  · simp [ok]
  · refine ok.runCommand fun c t ht => ?_
    dsimp only
    split
    · simp [ht]
    · refine State.memOk_ite ht.refuse (State.memOk_ite ht.refuseState ?_)
      split
      · simp [ht]
      · simp [ht]
@[simp ↓] theorem Answer.MemOk.execSectionLoad {k : CmdRef} {s : State} (ok : s.MemOk) :
    Answer.MemOk (execSectionLoad k s) := by
  refine State.MemOk.next (ok.runCommand fun c t ht => ?_)
  dsimp only
  repeat' split
  all_goals simp [ht]
@[simp ↓] theorem Answer.MemOk.execRun {k : CmdRef} {s : State} (ok : s.MemOk) : Answer.MemOk (execRun k s) := by
  refine State.MemOk.next (ok.runCommand fun c t ht => ?_)
  dsimp only
  split
  · simp [ht]
  · split <;> simp [ht]
@[simp ↓] theorem Answer.MemOk.execRegionDrain {k : CmdRef} {s : State} (ok : s.MemOk) :
    Answer.MemOk (execRegionDrain k s) := by
  refine State.MemOk.next (ok.runCommand fun c t ht => ?_)
  dsimp only
  split
  · simp [ht]
  · split <;> simp [ht]
@[simp ↓] theorem Answer.MemOk.execRegionFlood {k : CmdRef} {s : State} (ok : s.MemOk) :
    Answer.MemOk (execRegionFlood k s) := by
  refine State.MemOk.next (ok.runCommand fun c t ht => ?_)
  dsimp only
  split
  · simp [ht]
  · split
    · simp [ht]
    · split <;> simp [ht]
@[simp ↓] theorem Answer.MemOk.execRegionReset {k : CmdRef} {s : State} (ok : s.MemOk) :
    Answer.MemOk (execRegionReset k s) := by
  refine State.MemOk.next (ok.runCommand fun c t ht => ?_)
  dsimp only
  split <;> simp [ht]
@[simp ↓] theorem Answer.MemOk.execRegionFree {k : CmdRef} {s : State} (ok : s.MemOk) :
    Answer.MemOk (execRegionFree k s) := by
  refine State.MemOk.next (ok.runCommand fun c t ht => ?_)
  dsimp only
  split <;> simp [ht]
@[simp ↓] theorem Answer.MemOk.execReplace {k : CmdRef} {s : State} (ok : s.MemOk) :
    Answer.MemOk (execReplace k s) := by
  refine State.MemOk.next (ok.runCommand fun c t ht => ?_)
  dsimp only
  split
  · simp [ht]
  · split <;> simp [ht]

/-! ### The rows of Machine/RegionEvents.lean -/

@[simp ↓] theorem Answer.MemOk.execStaged {c : CoreId} {s : State} (ok : s.MemOk) :
    Answer.MemOk (execStaged c s) := by
  unfold Machine.execStaged
  simp [ok]
@[simp ↓] theorem Answer.MemOk.execCoreSwitch {c : CoreId} {s : State} (ok : s.MemOk) :
    Answer.MemOk (execCoreSwitch c s) := by
  have h₁ := (ok.retired (l := c.toNat)).enqueueTides (l := c.toNat)
  refine State.MemOk.next (State.memOk_ite ?_ ok)
  dsimp only
  split
  · split <;> simp [h₁]
  · simp [h₁]
@[simp ↓] theorem Answer.MemOk.execDeadlockSample {s : State} (ok : s.MemOk) :
    Answer.MemOk (execDeadlockSample s) := by
  unfold Machine.execDeadlockSample
  simp [ok]
@[simp ↓] theorem Answer.MemOk.execDeadlockReport {r : RegionId} {s : State} (ok : s.MemOk) :
    Answer.MemOk (execDeadlockReport r s) := by
  refine State.MemOk.next ?_
  dsimp only
  split
  · simp [ok]
  · split <;> simp [ok]
@[simp ↓] theorem Answer.MemOk.execEbbDrainComplete {r : RegionId} {s : State} (ok : s.MemOk) :
    Answer.MemOk (execEbbDrainComplete r s) := by
  refine State.MemOk.next ?_
  dsimp only
  split
  · have h₁ := State.memOk_foldl (xs := rectCores (s.region r.toNat).rect) (f := fun t l => t.retired l)
      (fun t l ht => ht.retired) ok
    repeat' split
    all_goals simp [h₁]
  · exact ok
@[simp ↓] theorem Answer.MemOk.execStopConfirm {c : CoreId} {s : State} (ok : s.MemOk) :
    Answer.MemOk (execStopConfirm c s) := by
  refine State.MemOk.next ?_
  split <;> simp [ok]
@[simp ↓] theorem Answer.MemOk.execScanComplete {r : RegionId} {s : State} (ok : s.MemOk) :
    Answer.MemOk (execScanComplete r s) := by
  refine State.MemOk.next (State.memOk_ite ?_ ok)
  refine State.MemOk.advanceReplacements ((State.memOk_setRegion ..).2 (State.MemOk.endScan ?_))
  simp [ok]
@[simp ↓] theorem Answer.MemOk.execFloodComplete {r : RegionId} {s : State} (ok : s.MemOk) :
    Answer.MemOk (execFloodComplete r s) := by
  refine State.MemOk.next (State.memOk_ite ?_ ok)
  refine State.MemOk.endReplacements ((State.memOk_doneReplaced ..).2 (State.memOk_foldl (fun t k ht => ht.succeed) ?_))
  simp [ok]
@[simp ↓] theorem Answer.MemOk.execFaultMessage {c : CoreId} {s : State} (ok : s.MemOk) :
    Answer.MemOk (execFaultMessage c s) := by
  refine State.MemOk.next ?_
  dsimp only
  repeat' split
  all_goals simp [ok]
@[simp ↓] theorem Answer.MemOk.execEvtMessage {c : CoreId} {s : State} (ok : s.MemOk) :
    Answer.MemOk (execEvtMessage c s) := by
  refine State.MemOk.next ?_
  dsimp only
  split
  · simp [ok]
  · split <;> simp [ok]
@[simp ↓] theorem Answer.MemOk.execReqTimeout {r : RegionId} {s : State} (ok : s.MemOk) :
    Answer.MemOk (execReqTimeout r s) := by
  refine State.MemOk.next ?_
  split <;> simp +contextual [ok]

/-! ### The rows of Machine/Transit.lean -/

@[simp ↓] theorem Answer.MemOk.execFlitHop {n : Nat} {o : HopOutcome} {s : State} (ok : s.MemOk) :
    Answer.MemOk (execFlitHop n o s) := by
  unfold Machine.execFlitHop
  simp [ok]
@[simp ↓] theorem Answer.MemOk.execRead {p : ZPort} {f : Flit} {s : State} (ok : s.MemOk) :
    Answer.MemOk (execRead p f s) := by
  refine State.MemOk.next (ok.receive fun t ht => ?_)
  split <;> simp [ht]
@[simp ↓] theorem Answer.MemOk.execWrite {p : ZPort} {f : Flit} {s : State} (ok : s.MemOk) :
    Answer.MemOk (execWrite p f s) := by
  refine State.MemOk.next ?_
  split
  · exact ok
  · refine ok.receive fun t ht => ?_
    split <;> simp [ht]
@[simp ↓] theorem Answer.MemOk.execHdmAccess {o : BitVec 36} {wr : Option (BitVec 512)} {poison : Bool} {s : State}
    (ok : s.MemOk) :
    Answer.MemOk (execHdmAccess o wr poison s) := by
  refine State.MemOk.next ?_
  split <;> simp [ok]

/-! ## What an instruction row is made of -/

/-- The operations that the instruction rows of core l are made of keep a property of states: its core written, a slot opened,
its fault message, an EVT message, a barrier arrival. -/
structure InstrKeeps (l : Nat) (P : State → Prop) : Prop where
  setCore : ∀ {s : State} {c : Core}, P s → P (s.setCore l c)
  advance : ∀ {s : State} {t : Nat}, P s → P (s.advance l t)
  sendFault : ∀ {s : State}, P s → P (s.sendFault l)
  tellNemar : ∀ {s : State}, P s → P (s.tellNemar l .evt 0)
  sendArrival : ∀ {s : State} {b : Nat}, P s → P (s.sendArrival l b)

section
variable {l : Nat} {P : State → Prop} (h : InstrKeeps l P) {s t : State} {w : Word}
include h

theorem InstrKeeps.settle (hs : P s) : P (s.settle l) := by
  fun_cases State.settle
  · exact h.advance hs
  · exact hs

theorem InstrKeeps.finishIssue {f : Flow} {held : List Nat} (hs : P s) : P (s.finishIssue l f held) :=
  h.settle (h.advance (h.setCore hs))

theorem InstrKeeps.issue {trap : Option Nat} {causes : State → List (Bool × Nat)} {leaves : Core → Bool} {flow : Core → Flow}
    {body : State → State} (hb : ∀ {t : State}, P t → P (body t)) (hs : P s) : P (s.issue l w trap causes leaves flow body) := by
  fun_cases State.issue
  · exact h.sendFault (h.setCore (h.advance hs))
  · exact h.finishIssue (hb (h.advance hs))
  · exact hs

theorem InstrKeeps.issueAccess {causes : State → List (Bool × Nat)} {off : Core → Nat} {n : Nat} {body : State → State}
    (hb : ∀ {t : State}, P t → P (body t)) (hs : P s) : P (s.issueAccess l w causes off n body) := by
  fun_cases State.issueAccess
  · exact h.setCore (h.advance hs)
  · exact h.issue (fun ht => hb (h.setCore ht)) hs

theorem InstrKeeps.issueEngine {full : Core → Bool} {causes : State → List (Bool × Nat)} {body : State → State}
    (hb : ∀ {t : State}, P t → P (body t)) (hs : P s) : P (s.issueEngine l w full causes body) := by
  fun_cases State.issueEngine
  · exact h.advance (h.advance hs)
  · exact h.issue hb hs

theorem InstrKeeps.issueReg {bad : Bool} {sd : BitVec 5} {lat : Nat} {value : Core → Word} (hs : P s) :
    P (s.issueReg l w bad sd lat value) := h.issue h.setCore hs

theorem InstrKeeps.branch {op : BitVec 8} {f : FmtB} {taken : Word → Word → Bool} (hs : P s) : P (s.branch l op f taken) := by
  unfold State.branch
  exact h.issue id hs

theorem InstrKeeps.issueVec {op : Nat} {f : FmtV} (hs : P s) : P (s.issueVec l op f) := h.issueEngine h.setCore hs

theorem InstrKeeps.arriveAt {b : Nat} (hs : P s) : P (s.arriveAt l b) := by
  fun_cases State.arriveAt
  · exact h.sendArrival (h.setCore hs)
  · exact h.setCore hs

end

/-- Every instruction row of a core keeps what its operations keep. -/
theorem InstrKeeps.exec {P : State → Prop} {s t : State} {i : Instr} {c : CoreId} {w : Word} (h : InstrKeeps c.toNat P)
    (hw : wordOf i = some (c, w)) (hs : P s) (he : exec i s = .next t) : P t := by
  cases i with
  | nop _ f | j _ f | jr _ f | waits _ f | waiti _ f | waitd _ f | trap _ f =>
    cases hw; cases he; exact h.issue id hs
  | add _ f | sub _ f | and _ f | or _ f | xor _ f | sll _ f | srl _ f | sra _ f | slt _ f | sltu _ f | min _ f | max _ f
  | mul _ f | mulhu _ f | flt _ f | fle _ f | slot _ f | addi _ f | andi _ f | ori _ f | xori _ f | slli _ f | srli _ f
  | srai _ f | slti _ f | li _ f | lih _ f =>
    cases hw; cases he; exact h.issueReg hs
  | beq _ f | bne _ f | blt _ f | bge _ f | bltu _ f | bgeu _ f =>
    cases hw; cases he; exact h.branch hs
  | ld _ f | st _ f =>
    cases hw; cases he; exact h.issueAccess h.setCore hs
  | lcsr _ f | scsr _ f | jal _ f | swapi _ f | ends _ f =>
    cases hw; cases he; exact h.issue h.setCore hs
  | evt _ f =>
    cases hw; cases he
    refine h.issue (fun {t} ht => ?_) hs
    dsimp only
    split
    · exact h.setCore ht
    · exact h.tellNemar (h.setCore ht)
  | bara _ f =>
    cases hw; cases he; exact h.issue h.arriveAt hs
  | mload _ f | mstr _ f | mstrl _ f | mma _ f | fgo _ f | fstop _ f | dma _ f =>
    cases hw; cases he; exact h.issueEngine h.setCore hs
  | vadd _ f | vsub _ f | vmul _ f | vfma _ f | vdiv _ f | vsqrt _ f | vrsqrt _ f | vexp _ f | vexp2 _ f | vlog2 _ f
  | vtanh _ f | vmax _ f | vmin _ f | vabs _ f | vneg _ f | vcmplt _ f | vcmple _ f | vcmpeq _ f | visfin _ f | vsel _ f
  | vmov _ f | vcvt _ f | vsplat _ f | viota _ f | vrand _ f | vpld _ f | vpst _ f | vfxadd _ f | vbcr _ f | vbcc _ f
  | vrrow _ f | vcompress _ f | vexpand _ f | vred _ f | hflush _ f =>
    cases hw; cases he; exact h.issueVec hs
  | reservedOpcode _ v =>
    simp only [wordOf] at hw
    split at hw
    · cases hw
    next ha =>
      cases hw; cases he
      rw [if_neg ha]
      exact h.issue id hs
  | _ => cases hw

theorem instrKeeps_memOk (l : Nat) : InstrKeeps l State.MemOk where
  setCore h := (State.memOk_setCore ..).2 h
  advance h := h.advance
  sendFault h := (State.memOk_sendFault ..).2 h
  tellNemar h := (State.memOk_tellNemar ..).2 h
  sendArrival h := (State.memOk_sendArrival ..).2 h

@[simp ↓] theorem Answer.MemOk.execReservedOpcode {c : CoreId} {w : Word} {s : State} (ok : s.MemOk) :
    Answer.MemOk (execReservedOpcode c w s) :=
  State.MemOk.next (State.memOk_ite ok ((instrKeeps_memOk _).issue id ok))

theorem State.MemOk.exec {s : State} (ok : s.MemOk) (i : Instr) : Answer.MemOk (exec i s) := by
  cases hw : wordOf i with
  | some x => exact fun t he => (instrKeeps_memOk _).exec hw ok he
  | none => cases i <;> simp [wordOf, Machine.exec, ok] at hw ⊢

/-- Settles O58: the canonical form is an invariant of every row, `State.MemOk.exec`, and a step is a row run a moment later. -/
theorem memoryKeepsItsForm : Obligations.MemoryKeepsItsForm := by
  intro s t hm hb hs
  have ok : s.MemOk := ⟨hm, hb⟩
  unfold step at hs
  split at hs
  · cases hs
    exact ok
  · exact State.MemOk.exec ((State.memOk_keep s ..).2 ok) _ t hs

/-- Settles O59: by evaluation of the reset state. -/
theorem resetMemoryIsCanonical : Obligations.ResetMemoryIsCanonical :=
  ⟨rfl, rfl, fun _ => rfl, rfl⟩

end Sys2Proof.Machine

/-! ## Instruction rows stay in their core (R28, R101, R119)

`State.OwnOf l s t` says what a change by core l leaves as it was. It is reflexive and transitive, so each operation of the
instruction rows is compared with the state that it is applied to, and `InstrKeeps.exec` joins them. -/

namespace Sys2Proof.Machine

/-- The part of the state that no core's instruction changes. -/
def State.shared (s : State) : State :=
  { grade := s.grade, regions := s.regions, images := s.images, tiers := s.tiers, plant := s.plant, pending := s.pending
    nemar := { s.nemar with faultMsgs := [], log := [], logNext := 0 }
    mesh := { s.mesh with flits := [], nextFlit := 0, nextArr := 0 } }

/-- From s to t only core l changed of the cores, nothing of the shared part, and no message that was in the mesh. -/
structure State.OwnOf (l : Nat) (s t : State) : Prop where
  core : ∀ k, k ≠ l → t.core k = s.core k
  shared : t.shared = s.shared
  nextFlit : s.mesh.nextFlit ≤ t.mesh.nextFlit
  flits : ∀ n, n < s.mesh.nextFlit → find? t.mesh.flits n = find? s.mesh.flits n

theorem State.OwnOf.rfl {l : Nat} {s : State} : s.OwnOf l s := ⟨fun _ _ => .refl _, .refl _, Nat.le_refl _, fun _ _ => .refl _⟩

theorem State.OwnOf.trans {l : Nat} {s t u : State} (h : s.OwnOf l t) (k : t.OwnOf l u) : s.OwnOf l u where
  core n hn := (k.core n hn).trans (h.core n hn)
  shared := k.shared.trans h.shared
  nextFlit := Nat.le_trans h.nextFlit k.nextFlit
  flits n hn := (k.flits n (Nat.lt_of_lt_of_le hn h.nextFlit)).trans (h.flits n hn)

/-- A change outside the cores, the mesh and the shared part. -/
theorem State.OwnOf.of_eq {l : Nat} {s t : State} (hc : t.cores = s.cores) (hm : t.mesh = s.mesh)
    (hs : t.shared = s.shared) : s.OwnOf l t where
  core k _ := by simp only [State.core, hc]
  shared := hs
  nextFlit := Nat.le_of_eq (by rw [hm])
  flits n _ := by rw [hm]

theorem State.OwnOf.foldl {α : Type} {l : Nat} {f : State → α → State} (hf : ∀ (t : State) x, t.OwnOf l (f t x)) (xs : List α)
    (s : State) : s.OwnOf l (xs.foldl f s) := by
  induction xs generalizing s with
  | nil => exact .rfl
  | cons x xs ih => exact (hf s x).trans (ih _)

/-! ### The operations of the instruction rows -/

section
variable (s : State) (l : Nat)

theorem State.ownOf_setCore (c : Core) : s.OwnOf l (s.setCore l c) where
  core _ h := State.core_setCore_other s c h
  shared := rfl
  nextFlit := Nat.le_refl _
  flits _ _ := rfl

theorem State.ownOf_writeMem (a : Nat) (bs : List (Byte × Bool)) : s.OwnOf l (s.writeMem a bs) := .of_eq rfl rfl rfl

theorem State.ownOf_unspill (n : Nat) : s.OwnOf l (s.unspill l n) := by
  fun_cases State.unspill
  · exact .rfl
  · exact s.ownOf_setCore l _

theorem State.ownOf_toSpill (n : Nat) (e : Entry) : s.OwnOf l (s.toSpill l n e) :=
  (s.ownOf_setCore l _).trans (State.ownOf_writeMem ..)

theorem State.ownOf_push (n : Nat) (e : Entry) : s.OwnOf l (s.push l n e) := by
  fun_cases State.push
  next q s₁ c q' s₂ =>
    have h₁ : s.OwnOf l s₁ := by
      unfold s₁
      split
      · exact State.OwnOf.foldl (fun t _ => t.ownOf_unspill l n) _ s
      · split
        · exact s.ownOf_unspill l n
        · exact .rfl
    have h₂ : s₁.OwnOf l s₂ := by
      unfold s₂
      split
      · exact s₁.ownOf_setCore l _
      · exact s₁.ownOf_toSpill l n e
    exact (h₁.trans h₂).trans (s₂.ownOf_setCore l _)

theorem State.ownOf_journalAppend (kind : BitVec 16) (key : Nat) (body : List Word) :
    s.OwnOf l (s.journalAppend kind key body) := by
  fun_cases State.journalAppend
  · exact .rfl
  · exact .of_eq rfl rfl rfl

theorem State.ownOf_logEvent (h : LogHead) (w0 w1 w2 w3 : Word) : s.OwnOf l (s.logEvent h w0 w1 w2 w3) := by
  fun_cases State.logEvent
  · exact .rfl
  · exact State.OwnOf.trans (State.OwnOf.of_eq (by rfl) (by rfl) (by rfl)) (State.ownOf_journalAppend ..)
  · exact .of_eq rfl rfl rfl

theorem State.ownOf_pourStart (v : Word) : s.OwnOf l (s.pourStart l v) := by
  fun_cases State.pourStart
  · exact (s.ownOf_setCore l _).trans (State.ownOf_logEvent ..)
  · exact .of_eq rfl rfl rfl

theorem State.ownOf_coreWrite (off : Nat) (v : Word) : s.OwnOf l (s.coreWrite l off v) := by
  fun_cases State.coreWrite
  case case1 => exact s.ownOf_pourStart l v
  case case5 | case7 => exact .rfl
  all_goals exact s.ownOf_setCore l _

theorem State.ownOf_applyEffect (e : Effect) : s.OwnOf l (s.applyEffect l e) := by
  cases e with
  | store | poolElems | poolWords => exact s.ownOf_writeMem l _ _
  | csr off v => exact s.ownOf_coreWrite l off v
  | enqueue | enqueueLine => exact s.ownOf_push l _ _
  | _ => exact s.ownOf_setCore l _

theorem State.ownOf_spillTurned (e : Effect) : s.OwnOf l (s.spillTurned l e) := by
  fun_cases State.spillTurned
  · exact s.ownOf_setCore l _
  · exact .rfl

theorem ownOf_settleList (l t : Nat) (ps : List Pending) (s : State) : s.OwnOf l (settleList l t ps s).2 := by
  induction ps generalizing s with
  | nil => exact .rfl
  | cons p ps ih =>
    rw [settleList]
    split
    · exact .rfl
    · exact ((s.ownOf_spillTurned l _).trans (State.ownOf_applyEffect _ l _)).trans (ih _)

theorem State.ownOf_advance (t : Nat) : s.OwnOf l (s.advance l t) :=
  (ownOf_settleList l t _ s).trans (State.ownOf_setCore _ l _)

/-- A message enters the mesh under a number that none in it has. -/
theorem State.ownOf_inject (f : MeshFlit) : s.OwnOf l (s.inject f).2 where
  core _ _ := rfl
  shared := rfl
  nextFlit := Nat.le_succ _
  flits _ hn := find?_put_other _ _ (Nat.ne_of_lt hn)

theorem State.ownOf_sendFault : s.OwnOf l (s.sendFault l) := by
  fun_cases State.sendFault
  · exact .rfl
  · exact State.OwnOf.trans (State.OwnOf.of_eq (by rfl) (by rfl) (by rfl)) (State.ownOf_inject _ l _)

theorem instrKeeps_ownOf : InstrKeeps l (s.OwnOf l) where
  setCore h := h.trans (State.ownOf_setCore ..)
  advance h := h.trans (State.ownOf_advance ..)
  sendFault h := h.trans (State.ownOf_sendFault ..)
  tellNemar h := h.trans (State.ownOf_inject ..)
  sendArrival h := h.trans (State.ownOf_inject ..)

end

/-- Settles O14: what the operations of the instruction rows keep, every row keeps. -/
theorem instructionRowsStayInTheirCore : Obligations.InstructionRowsStayInTheirCore := by
  intro s i c w t hw he
  obtain ⟨hcore, hshared, -, hflits⟩ := (instrKeeps_ownOf s c.toNat).exec hw .rfl he
  injection hshared with hgrade _ _ _ hregions himages hnemar _ htiers hmesh hplant _ _ _ hpending
  have hmesh' := congrArg (fun m : Mesh => { m with
    flits := s.mesh.flits, nextFlit := s.mesh.nextFlit, nextArr := s.mesh.nextArr }) hmesh
  have hnemar' := congrArg (fun n : Nemar => { n with
    faultMsgs := s.nemar.faultMsgs, log := s.nemar.log, logNext := s.nemar.logNext }) hnemar
  exact ⟨hcore, hgrade, hregions, himages, htiers, hplant, hpending, hmesh', hflits, hnemar'⟩

end Sys2Proof.Machine

/-! ## Faults come into force; hot quadrants ebb and return (R16 to R19, R390, R401 to R403)

What a record, a row of the fault map, a fence and its commit change, in that order; then the routers and the rail of a
quadrant that ebbs and returns. -/

namespace Sys2Proof.Machine

/-! ### What a record leaves as it was -/

@[simp] theorem State.journalAppend_nemar (s : State) (kind : BitVec 16) (key : Nat) (body : List Word) :
    (s.journalAppend kind key body).nemar = s.nemar := by
  fun_cases State.journalAppend <;> rfl
@[simp] theorem State.journalAppend_plant (s : State) (kind : BitVec 16) (key : Nat) (body : List Word) :
    (s.journalAppend kind key body).plant = s.plant := by
  fun_cases State.journalAppend <;> rfl
@[simp] theorem State.journalAppend_regions (s : State) (kind : BitVec 16) (key : Nat) (body : List Word) :
    (s.journalAppend kind key body).regions = s.regions := by
  fun_cases State.journalAppend <;> rfl
@[simp] theorem State.journalAppend_cores (s : State) (kind : BitVec 16) (key : Nat) (body : List Word) :
    (s.journalAppend kind key body).cores = s.cores := by
  fun_cases State.journalAppend <;> rfl

@[simp] theorem State.logEvent_plant (s : State) (h : LogHead) (w0 w1 w2 w3 : Word) :
    (s.logEvent h w0 w1 w2 w3).plant = s.plant := by
  fun_cases State.logEvent <;> simp +zetaDelta
@[simp] theorem State.logEvent_regions (s : State) (h : LogHead) (w0 w1 w2 w3 : Word) :
    (s.logEvent h w0 w1 w2 w3).regions = s.regions := by
  fun_cases State.logEvent <;> simp +zetaDelta
@[simp] theorem State.logEvent_cores (s : State) (h : LogHead) (w0 w1 w2 w3 : Word) :
    (s.logEvent h w0 w1 w2 w3).cores = s.cores := by
  fun_cases State.logEvent <;> simp +zetaDelta
/-- A record changes the log of Nemar's registers only. -/
theorem State.logEvent_nemar (s : State) (h : LogHead) (w0 w1 w2 w3 : Word) :
    (s.logEvent h w0 w1 w2 w3).nemar = { s.nemar with log := (s.logEvent h w0 w1 w2 w3).nemar.log,
                                                      logNext := (s.logEvent h w0 w1 w2 w3).nemar.logNext } := by
  fun_cases State.logEvent <;> simp +zetaDelta

/-- The newest entry is never the one that a full log gives up. -/
theorem mem_log_append (xs : List LogRecord) (r : LogRecord) :
    r ∈ if Config.logRecords < (xs ++ [r]).length then (xs ++ [r]).drop 1 else xs ++ [r] := by
  cases xs with
  | nil => simp [Config.logRecords]
  | cons x xs => split <;> simp

/-- The record that a log entry is. -/
theorem State.exists_mem_logEvent {s : State} (hs : s.host.state ≠ .halted) (h : LogHead) (w0 w1 w2 w3 : Word) :
    ∃ e ∈ (s.logEvent h w0 w1 w2 w3).nemar.log, e.seq = s.nemar.logNext ∧ e.code = h.code ∧ e.srcKind = h.srcKind ∧
      e.srcId = BitVec.ofNat 32 h.srcId ∧ e.w1 = w1 ∧ e.w2 = w2 := by
  fun_cases State.logEvent
  case case1 hh => exact absurd hh hs
  case case2 r _ _ _ _ =>
    refine ⟨r, ?_, rfl, rfl, rfl, rfl, rfl, rfl⟩
    rw [State.journalAppend_nemar]
    exact mem_log_append ..
  case case3 r _ _ _ _ => exact ⟨r, mem_log_append .., rfl, rfl, rfl, rfl, rfl, rfl⟩

/-! ### Room in the store (R428, R429) -/

/-- The store takes n more bytes of records at once, and owes none of entry k of the fault map. -/
def Store.Takes (st : Store) (k n : Nat) : Prop :=
  st.verifyFails = false ∧ st.used + n ≤ halfBytes ∧ st.faultOwed k = false

theorem Store.Takes.mono {st : Store} {k m n : Nat} (h : st.Takes k n) (hm : m ≤ n) : st.Takes k m :=
  ⟨h.1, Nat.le_trans (Nat.add_le_add_left hm _) h.2.1, h.2.2⟩

theorem Store.takes_le (st : Store) {w : Nat} (h : w ≤ 8) : st.takes w ≤ 224 := by
  have hr : recordBytes w ≤ 112 := by
    unfold recordBytes ceilDiv
    omega
  unfold Store.takes
  split <;> omega

/-- A record of up to eight words. -/
theorem Store.Takes.append {st : Store} {k n : Nat} (h : st.Takes k (224 + n)) (kind : BitVec 16) (key : Nat)
    {body : List Word} (hb : body.length ≤ 8) : (st.append kind key body).Takes k n := by
  obtain ⟨hv, hu, ho⟩ := h
  have ht := st.takes_le hb
  fun_cases Store.append
  case case1 hf =>
    have hf' : halfBytes < st.used + st.takes body.length := of_decide_eq_true hf
    omega
  case case2 hv' => exact absurd (hv.symm.trans hv') Bool.false_ne_true
  case case3 =>
    refine ⟨hv, by dsimp only; omega, ?_⟩
    simp only [Store.faultOwed, Bool.or_eq_false_iff] at ho ⊢
    refine ⟨?_, ho.2⟩
    split
    · simpa [mem_dropNum] using fun hk => absurd hk (by simpa using ho.1)
    · exact ho.1

theorem State.takes_journalAppend {s : State} {k n : Nat} (h : s.store.Takes k (224 + n)) (kind : BitVec 16) (key : Nat)
    {body : List Word} (hb : body.length ≤ 8) : (s.journalAppend kind key body).store.Takes k n := by
  fun_cases State.journalAppend
  · exact h.mono (Nat.le_add_left ..)
  · exact h.append kind key hb

theorem State.takes_logEvent {s : State} {k n : Nat} (h : s.store.Takes k (224 + n)) (e : LogHead) (w0 w1 w2 w3 : Word) :
    (s.logEvent e w0 w1 w2 w3).store.Takes k n := by
  fun_cases State.logEvent
  case case2 => exact State.takes_journalAppend (body := LogRecord.words _) (by exact h) _ _ (Nat.le_refl 8)
  all_goals exact h.mono (Nat.le_add_left ..)

/-! ### Rows of the fault map (R16, R425) -/

@[simp] theorem State.recordFault_nemar (s : State) (k : Nat) : (s.recordFault k).nemar = s.nemar := by
  fun_cases State.recordFault <;> simp +zetaDelta
@[simp] theorem State.recordFault_plant (s : State) (k : Nat) : (s.recordFault k).plant = s.plant := by
  fun_cases State.recordFault <;> simp +zetaDelta
@[simp] theorem State.recordFault_regions (s : State) (k : Nat) : (s.recordFault k).regions = s.regions := by
  fun_cases State.recordFault <;> simp +zetaDelta
theorem State.length_faultEntry (s : State) (k : Nat) : (s.faultEntry k).length = 2 := by
  fun_cases State.faultEntry <;> rfl
theorem State.takes_recordFault {s : State} {k n : Nat} (h : s.store.Takes k (224 + n)) (j : Nat) :
    (s.recordFault j).store.Takes k n := by
  have ht : ∀ body : List Word, body.length ≤ 8 → (s.journalAppend jkFault j body).store.Takes k n :=
    fun _ => State.takes_journalAppend h _ _
  fun_cases State.recordFault
  · exact ht _ (by simp [State.length_faultEntry])
  · exact ht _ (by simp [State.length_faultEntry])

@[simp] theorem State.writeRow_nemar (s : State) (k : Nat) (w : Row) : (s.writeRow k w).nemar = s.nemar := by
  fun_cases State.writeRow <;> simp +zetaDelta
@[simp] theorem State.writeRow_regions (s : State) (k : Nat) (w : Row) : (s.writeRow k w).regions = s.regions := by
  fun_cases State.writeRow <;> simp +zetaDelta
@[simp] theorem State.look_writeRow_self (s : State) (k : Nat) (w : Row) :
    look (s.writeRow k w).plant.rows k ({} : Row) = w := by
  fun_cases State.writeRow <;> simp +zetaDelta
theorem State.takes_writeRow {s : State} {k n : Nat} (h : s.store.Takes k (224 + n)) (j : Nat) (w : Row) :
    (s.writeRow j w).store.Takes k n := by
  fun_cases State.writeRow
  · exact h.mono (Nat.le_add_left ..)
  · exact State.takes_recordFault (by exact h) _

/-! ### Fences (R394) -/

@[simp] theorem State.fence_nemar (s : State) (p : Nat) (b : Bool) : (s.fence p b).nemar =
    { s.nemar with fencedNow := addNum s.nemar.fencedNow p, weak := dropNum s.nemar.weak p } := by
  unfold State.fence
  split <;> simp
@[simp] theorem State.fence_regions (s : State) (p : Nat) (b : Bool) : (s.fence p b).regions = s.regions := by
  unfold State.fence
  split <;> simp
theorem State.look_fence (s : State) (p : Nat) : look (s.fence p false).plant.rows (rowOf p) ({} : Row) =
    { look s.plant.rows (rowOf p) ({} : Row) with
      faults := addNum (look s.plant.rows (rowOf p) ({} : Row)).faults (physColOf p) } := by
  unfold State.fence
  split <;> simp
theorem State.takes_fence {s : State} {k n : Nat} (h : s.store.Takes k (224 + n)) (p : Nat) (b : Bool) :
    (s.fence p b).store.Takes k n := by
  unfold State.fence
  refine State.takes_writeRow ?_ _ _
  split <;> exact h

/-! ### Faults come into force (R16, R18, R19) -/

/-- What every turn of a loop leaves as it was, the loop leaves. -/
theorem foldl_keeps {α β : Type} {f : State → α → State} (g : State → β) (hf : ∀ t x, g (f t x) = g t) (xs : List α)
    (s : State) : g (xs.foldl f s) = g s :=
  List.foldlRecOn (motive := fun t => g t = g s) xs f rfl fun t ht x _ => (hf t x).trans ht

@[simp] theorem State.undefineCore_nemar (s : State) (l : Nat) : (s.undefineCore l).nemar = s.nemar := rfl
@[simp] theorem State.undefineCore_plant (s : State) (l : Nat) : (s.undefineCore l).plant = s.plant := rfl
@[simp] theorem State.undefineCore_mesh (s : State) (l : Nat) : (s.undefineCore l).mesh = s.mesh := rfl

@[simp] theorem State.commitFence_nemar (s : State) (p : Nat) : (s.commitFence p).nemar = s.nemar := by
  unfold State.commitFence
  rw [foldl_keeps State.nemar (by simp), State.writeRow_nemar]
theorem State.look_commitFence (s : State) (p : Nat) : look (s.commitFence p).plant.rows (rowOf p) ({} : Row) =
    { look s.plant.rows (rowOf p) ({} : Row) with
      inForce := addNum (look s.plant.rows (rowOf p) ({} : Row)).inForce (physColOf p) } := by
  unfold State.commitFence
  rw [foldl_keeps State.plant (by simp), State.look_writeRow_self]

@[simp] theorem State.markOut_nemar (s : State) (k : Nat) : (s.markOut k).nemar = s.nemar := by
  fun_cases State.markOut <;> simp +zetaDelta
theorem State.look_markOut {s : State} {k : Nat} (h : s.store.Takes k 224) :
    look (s.markOut k).plant.rows k ({} : Row) =
      { look s.plant.rows k ({} : Row) with rowOut := true, inForceOut := true } := by
  have ho := (State.takes_writeRow (n := 0) h k { look s.plant.rows k ({} : Row) with rowOut := true }).2.2
  simp [State.markOut, ho]

theorem State.movedRegions_of_none {s : State} (h : s.regions = []) (ps : List Nat) : s.movedRegions ps = [] := by
  simp [State.movedRegions, h]
theorem State.rowHeld_of_none {s : State} (h : s.regions = []) (k : Nat) : s.rowHeld k = false := by
  simp [State.rowHeld, h]

/-- With two faults or fewer the row map goes around them. -/
theorem State.commitWhenFree_of_spare {s : State} {p : Nat} (hr : s.regions = []) (ho : s.store.faultOwed (rowOf p) = false)
    (hf : (look s.plant.rows (rowOf p) ({} : Row)).faults.length ≤ 2) : s.commitWhenFree p = s.commitFence p := by
  have hb : s.rowBroken (rowOf p) = false := by simpa [State.rowBroken] using hf
  simp [State.commitWhenFree, ho, hb, State.movedRegions_of_none hr]
/-- With more the row is out. -/
theorem State.commitWhenFree_of_broken {s : State} {p : Nat} (hr : s.regions = [])
    (ho : s.store.faultOwed (rowOf p) = false) (hf : 2 < (look s.plant.rows (rowOf p) ({} : Row)).faults.length) :
    s.commitWhenFree p = s.markOut (rowOf p) := by
  have hb : s.rowBroken (rowOf p) = true := by simpa [State.rowBroken] using hf
  simp [State.commitWhenFree, ho, hb, State.rowHeld_of_none hr]

@[simp] theorem State.commitWhenFree_nemar (s : State) (p : Nat) : (s.commitWhenFree p).nemar = s.nemar := by
  fun_cases State.commitWhenFree <;> simp +zetaDelta

theorem State.logWeak_nemar (s : State) (l p : Nat) : (s.logWeak l p).nemar =
    { s.nemar with log := (s.logWeak l p).nemar.log, logNext := (s.logWeak l p).nemar.logNext } :=
  State.logEvent_nemar ..
@[simp] theorem State.logWeak_plant (s : State) (l p : Nat) : (s.logWeak l p).plant = s.plant := State.logEvent_plant ..
@[simp] theorem State.logWeak_regions (s : State) (l p : Nat) : (s.logWeak l p).regions = s.regions :=
  State.logEvent_regions ..

theorem State.managed_of {s : State} (hp : s.plant.powerGood = true) (hh : s.host.state ≠ .halted) : s.managed = true := by
  simp [State.managed, hp, hh]

/-- The state that WEAK_CORE_FENCE leaves of a weak core p, known as logical core l. -/
def State.weakFenced (s : State) (l p : Nat) : State := ((s.logWeak l p).fence p false).commitWhenFree p

theorem exec_weakCoreFence {s : State} {c : CoreId} (hm : s.managed = true) (hw : s.physOf c.toNat ∈ s.nemar.weak)
    (ha : s.available c.toNat = true) (hr : s.regions = []) :
    exec (.weakCoreFence c) s = .next (s.weakFenced c.toNat (s.physOf c.toNat)) := by
  simp [exec, execWeakCoreFence, State.weakFenced, hm, hw, ha, State.movedRegions_of_none hr]

theorem State.weakFenced_nemar (s : State) (l p : Nat) : (s.weakFenced l p).nemar =
    { s.nemar with log := (s.logWeak l p).nemar.log, logNext := (s.logWeak l p).nemar.logNext,
                   fencedNow := addNum s.nemar.fencedNow p, weak := dropNum s.nemar.weak p } := by
  rw [State.weakFenced, State.commitWhenFree_nemar, State.fence_nemar, State.logWeak_nemar]

/-- The row of a weak core's fence: with two faults or fewer in force, with more out. -/
theorem State.look_weakFenced {s : State} {p : Nat} (l : Nat) (hr : s.regions = []) (hs : s.store.Takes (rowOf p) 672) :
    let w := look s.plant.rows (rowOf p) ({} : Row)
    look (s.weakFenced l p).plant.rows (rowOf p) ({} : Row) =
      if (addNum w.faults (physColOf p)).length ≤ 2 then
        { w with faults := addNum w.faults (physColOf p), inForce := addNum w.inForce (physColOf p) }
      else { w with faults := addNum w.faults (physColOf p), rowOut := true, inForceOut := true } := by
  intro w
  have hr' : ((s.logWeak l p).fence p false).regions = [] := by simp [hr]
  have ht : ((s.logWeak l p).fence p false).store.Takes (rowOf p) 224 :=
    State.takes_fence (State.takes_logEvent (by exact hs) ..) ..
  have hw : look ((s.logWeak l p).fence p false).plant.rows (rowOf p) ({} : Row) =
      { w with faults := addNum w.faults (physColOf p) } := by rw [State.look_fence, State.logWeak_plant]
  unfold State.weakFenced
  split
  next hf => rw [State.commitWhenFree_of_spare hr' ht.2.2 (by rw [hw]; exact hf), State.look_commitFence, hw]
  next hf =>
    rw [State.commitWhenFree_of_broken hr' ht.2.2 (by rw [hw]; exact Nat.lt_of_not_le hf), State.look_markOut ht, hw]

/-- The pending faults of a row, where one column has one. -/
theorem State.pendingFaults_of_one {s : State} {k f : Nat}
    (h : (look s.plant.rows k ({} : Row)).faults.filter
      (fun c => !(look s.plant.rows k ({} : Row)).inForce.contains c) = [f]) :
    s.pendingFaults k = [k / 32 * 1088 + k % 32 * 34 + f] := by
  simp only [State.pendingFaults, h, List.map_cons, List.map_nil]

theorem rowOf_at (k : Nat) {f : Nat} (h : f < 34) : rowOf (k / 32 * 1088 + k % 32 * 34 + f) = k := by
  unfold rowOf physDie physRow
  omega
theorem physColOf_at (k : Nat) {f : Nat} (h : f < 34) : physColOf (k / 32 * 1088 + k % 32 * 34 + f) = f := by
  unfold physColOf
  omega

theorem exec_pendingFaultCommit {s : State} {d : DieId} {row : BitVec 5} {f : Nat} (hm : s.managed = true)
    (ho : (look s.plant.rows (d.toNat * 32 + row.toNat) ({} : Row)).inForceOut = false)
    (hf : s.pendingFaults (d.toNat * 32 + row.toNat) = [f]) :
    exec (.pendingFaultCommit d row) s = .next (s.commitWhenFree f) := by
  simp [exec, execPendingFaultCommit, hm, ho, hf]

/-! ### The thermal ebb -/

theorem exec_thermalEbb {s : State} {q : QuadId} (hl : s.liveQuad q.toNat = true) (hb : (s.quad q.toNat).ebbing = false)
    (he : (s.quad q.toNat).ebbs = true) (hh : s.host.state ≠ .halted) :
    exec (.thermalEbb q) s = .next (s.beginEbb q.toNat) := by
  simp [exec, execThermalEbb, hl, hb, he, hh]

/-- With no region in the quadrant an ebb begins with its record alone. -/
theorem State.beginEbb_of_none {s : State} {q : Nat} (h : s.regionsIn q = []) : s.beginEbb q =
    (s.setQuad q { s.quad q with ebbing := true, ebbUsec := s.nemar.usec }).logEbb q [] := by
  have hr : ((s.setQuad q { s.quad q with ebbing := true, ebbUsec := s.nemar.usec }).logEbb q []).regionsIn q = [] := by
    simpa [State.regionsIn, State.logEbb, State.physOf, State.row, State.setQuad] using h
  simp only [State.beginEbb, hr, List.foldl_nil]

theorem State.router_setRouter (s : State) (p k : Nat) (r : Router) :
    (s.setRouter p r).router k = if k = p then r else s.router k := look_put ..

theorem mem_quadPhys {q p : Nat} (h : physQuad p = q) : p ∈ quadPhys q := by
  have hd : q / 4 = physDie p := by
    unfold physQuad at h
    have hr : physRow p / 16 < 2 := by
      unfold physRow
      omega
    split at h <;> omega
  simp only [quadPhys, rangeFrom, hd, List.mem_filter, List.mem_map, List.mem_range, beq_iff_eq]
  refine ⟨⟨p % 1088, Nat.mod_lt _ (by decide), ?_⟩, h⟩
  unfold physDie
  omega
theorem physQuad_of_mem {q p : Nat} (h : p ∈ quadPhys q) : physQuad p = q := by
  simpa using (List.mem_filter.1 h).2

/-- The routers that an ebb takes from the mesh. -/
theorem mem_ebbRouters {q : QuadId} {p : Nat} :
    p ∈ replanAround (.quadrantEbb q) ↔ p ∈ quadPhys q.toNat ∧ keptRouter q.toNat p = false := by
  simp [replanAround]

/-- The routers of a list are isolated. -/
def State.isolate (s : State) (ps : List Nat) : State :=
  ps.foldl (fun (t : State) p => t.setRouter p { t.router p with isolated := true }) s

theorem State.isolated_isolate (s : State) (ps : List Nat) (k : Nat) :
    ((s.isolate ps).router k).isolated = (ps.contains k || (s.router k).isolated) := by
  unfold State.isolate
  induction ps generalizing s with
  | nil => simp
  | cons p ps ih =>
    rw [List.foldl_cons, ih, State.router_setRouter]
    by_cases h : k = p <;> simp [h]

/-- Those routers of a list that a quadrant keeps pass flits on. -/
def State.passKept (s : State) (q : Nat) (ps : List Nat) : State :=
  ps.foldl (fun (t : State) p => if keptRouter q p then t.setRouter p { t.router p with pass := true } else t) s

theorem State.pass_passKept (s : State) (q : Nat) (ps : List Nat) (k : Nat) :
    ((s.passKept q ps).router k).pass = ((ps.contains k && keptRouter q k) || (s.router k).pass) := by
  unfold State.passKept
  induction ps generalizing s with
  | nil => simp
  | cons p ps ih =>
    rw [List.foldl_cons, ih]
    split
    next hp => rw [State.router_setRouter]; by_cases h : k = p <;> simp [h, hp]
    next hp => by_cases h : k = p <;> simp [h, hp]
theorem State.isolated_passKept (s : State) (q : Nat) (ps : List Nat) (k : Nat) :
    ((s.passKept q ps).router k).isolated = (s.router k).isolated := by
  refine foldl_keeps (fun t => (t.router k).isolated) (fun t p => ?_) ps s
  dsimp only
  split
  · rw [State.router_setRouter]
    split
    next h => rw [h]
    next => rfl
  · rfl

theorem State.isolate_flits (s : State) (ps : List Nat) : (s.isolate ps).mesh.flits = s.mesh.flits :=
  foldl_keeps (fun t => t.mesh.flits) (fun _ _ => by rfl) ps s
theorem State.isolate_replan (s : State) (ps : List Nat) : (s.isolate ps).mesh.replan = s.mesh.replan :=
  foldl_keeps (fun t => t.mesh.replan) (fun _ _ => by rfl) ps s
theorem State.passKept_flits (s : State) (q : Nat) (ps : List Nat) : (s.passKept q ps).mesh.flits = s.mesh.flits :=
  foldl_keeps (fun t => t.mesh.flits) (fun _ _ => by dsimp only; split <;> rfl) ps s
theorem State.passKept_replan (s : State) (q : Nat) (ps : List Nat) : (s.passKept q ps).mesh.replan = s.mesh.replan :=
  foldl_keeps (fun t => t.mesh.replan) (fun _ _ => by dsimp only; split <;> rfl) ps s

theorem State.loseInside_of_none {s : State} {ps : NumSet}
    (h : ∀ e ∈ s.mesh.flits, e.2.delivered = true ∨ physAt e.2.px e.2.py ∉ ps) : s.loseInside ps = s := by
  have hf : s.mesh.flits.filter (fun e => !e.2.delivered && ps.contains (physAt e.2.px e.2.py)) = [] := by
    refine List.filter_eq_nil_iff.2 fun e he => ?_
    rcases h e he with hd | hd <;> simp [hd]
  simp only [State.loseInside, hf, List.map_nil, State.loseFlits, List.foldl_nil]

theorem State.darkCores_mesh (s : State) (q : Nat) : (s.darkCores q).mesh = s.mesh :=
  foldl_keeps State.mesh (fun _ _ => by dsimp only; split <;> rfl) _ s

theorem State.endPlan_of_none {s : State} (h : s.mesh.replan = none) : s.endPlan = s := by
  simp [State.endPlan, h]

theorem State.quad_remap (s : State) (q : Nat) : s.remap.quad q = s.quad q := rfl
theorem State.router_remap (s : State) (p : Nat) : s.remap.router p = s.router p := rfl

/-- The quadrant once its rail is off. -/
def Quadrant.off (x : Quadrant) : Quadrant :=
  { x with ebbed := true, ebbing := false, powered := false, vrail := 0, rate := 0, tj := 0, throttled := false
           safetyTemp := false, safetyCur := false, conflict := false, conflictQuiet := 0, coolUsec := 0 }

/-- The mesh of a quadrant whose rail goes off. -/
def State.ebbMesh (s : State) (q : QuadId) : State :=
  (s.isolate (replanAround (.quadrantEbb q))).passKept q.toNat (quadPhys q.toNat)

/-- The state in which a quadrant with nothing in it is left without its rail. -/
def State.ebbOff (s : State) (q : QuadId) : State :=
  let t := (s.ebbMesh q).darkCores q.toNat
  (t.setQuad q.toNat (t.quad q.toNat).off).remap

theorem exec_ebbPowerOff {s : State} {q : QuadId} (he : (s.quad q.toNat).ebbing = true) (hr : s.ebbReady q.toNat = true)
    (hn : s.regionsIn q.toNat = []) (hp : s.mesh.replan = none)
    (hf : ∀ e ∈ s.mesh.flits, e.2.delivered = true ∨ physQuad (physAt e.2.px e.2.py) ≠ q.toNat) :
    exec (.ebbPowerOff q) s = .next (s.ebbOff q) := by
  have hl : (s.ebbMesh q).loseInside (replanAround (.quadrantEbb q)) = s.ebbMesh q := by
    refine State.loseInside_of_none fun e hm => ?_
    rw [State.ebbMesh, State.passKept_flits, State.isolate_flits] at hm
    exact (hf e hm).imp_right fun hq hin => hq (physQuad_of_mem (mem_ebbRouters.1 hin).1)
  have hplan : ∀ x, (((s.ebbMesh q).darkCores q.toNat).setQuad q.toNat x).mesh.replan = none := fun x => by
    rw [State.setQuad_mesh, State.darkCores_mesh, State.ebbMesh, State.passKept_replan, State.isolate_replan, hp]
  have hx : exec (.ebbPowerOff q) s = .next
      ((((s.ebbMesh q).loseInside (replanAround (.quadrantEbb q))).darkCores q.toNat).setQuad q.toNat
        ((((s.ebbMesh q).loseInside (replanAround (.quadrantEbb q))).darkCores q.toNat).quad q.toNat).off).endPlan.remap := by
    simp only [exec, execEbbPowerOff, he, hr, hn, Bool.not_true, Bool.or_self, Bool.false_eq_true, if_false,
      List.foldl_nil, List.isEmpty_nil, if_true]
    rfl
  rw [hx, hl, State.endPlan_of_none (hplan _), State.ebbOff]

theorem State.quad_ebbOff (s : State) (q : QuadId) :
    (s.ebbOff q).quad q.toNat = (((s.ebbMesh q).darkCores q.toNat).quad q.toNat).off := by
  rw [State.ebbOff, State.quad_remap, State.quad_setQuad_self]

theorem State.router_ebbOff (s : State) (q : QuadId) (p : Nat) : (s.ebbOff q).router p = (s.ebbMesh q).router p := by
  rw [State.ebbOff, State.router_remap, State.router, State.setQuad_mesh, State.darkCores_mesh, State.router]

theorem State.router_ebbMesh_pass {s : State} {q : QuadId} {p : Nat} (hq : physQuad p = q.toNat)
    (hk : keptRouter q.toNat p = true) : ((s.ebbMesh q).router p).pass = true := by
  rw [State.ebbMesh, State.pass_passKept]
  simp [mem_quadPhys hq, hk]

theorem State.router_ebbMesh_isolated {s : State} {q : QuadId} {p : Nat} (hq : physQuad p = q.toNat)
    (hk : keptRouter q.toNat p = false) : ((s.ebbMesh q).router p).isolated = true := by
  rw [State.ebbMesh, State.isolated_passKept, State.isolated_isolate]
  simp [mem_ebbRouters, mem_quadPhys hq, hk]

/-! ### A quadrant returns (R403) -/

theorem State.calRail_le (s : State) (q r : Nat) : s.calRail q r ≤ 850 := by
  have hm : s.calRail q r ∈ 550 :: (rangeFrom 550 301).filter (fun mv => s.calRate q mv 7000 ≤ (r : Int)) :=
    List.getLastD_mem_cons
  rcases List.mem_cons.1 hm with h | h
  · omega
  · obtain ⟨i, hi, he⟩ := List.mem_map.1 (List.mem_filter.1 h).1
    have := List.mem_range.1 hi
    omega

theorem State.railBound_of_alone {s : State} {q : Nat} (h : ∀ k ∈ s.rails, k = q) : s.railBound q = 850 := by
  have hf : s.rails.filter (quadsTouch q) = [] := by
    refine List.filter_eq_nil_iff.2 fun k hk => ?_
    rw [h k hk]
    simp [quadsTouch]
  simp [State.railBound, hf]

/-- Rails within their bounds stay as they are. -/
theorem State.relaxRails_of_within {s : State} (h : ∀ q ∈ s.liveQuads, (s.quad q).vrail ≤ s.railBound q) :
    s.relaxRails = s := by
  have hin : s.liveQuads.foldl (fun (u : State) q =>
      let x := u.quad q
      if u.railBound q < x.vrail then u.setQuad q { x with vrail := u.railBound q } else u) s = s :=
    List.foldlRecOn (motive := fun u => u = s) s.liveQuads _ rfl fun u hu q hq => by
      subst hu
      exact if_neg (Nat.not_lt.2 (h q hq))
  exact List.foldlRecOn (motive := fun u => u = s) _ _ rfl fun u hu _ _ => by
    subst hu
    exact hin

/-- The routers of a returning quadrant join the mesh. -/
def State.wakeQuad (s : State) (q : Nat) : State := (quadPhys q).foldl (fun (t : State) p => t.wakeRouter p) s

theorem State.wakeQuad_eq (s : State) (q : Nat) : s.wakeQuad q = { s with mesh := (s.wakeQuad q).mesh } :=
  List.foldlRecOn (motive := fun t : State => t = { s with mesh := t.mesh }) _ _ rfl fun t ht _ _ => by
    rw [ht]
    rfl

/-- What a rail depends on is outside the mesh. -/
theorem State.rails_mesh (s : State) (m : Mesh) : ({ s with mesh := m } : State).rails = s.rails := rfl
theorem State.calRail_mesh (s : State) (m : Mesh) (q r : Nat) : ({ s with mesh := m } : State).calRail q r = s.calRail q r := rfl
theorem State.quad_mesh (s : State) (m : Mesh) (q : Nat) : ({ s with mesh := m } : State).quad q = s.quad q := rfl

theorem State.rails_wakeQuad (s : State) (q : Nat) : (s.wakeQuad q).rails = s.rails := by
  rw [State.wakeQuad_eq, State.rails_mesh]
theorem State.calRail_wakeQuad (s : State) (q k r : Nat) : (s.wakeQuad q).calRail k r = s.calRail k r := by
  rw [State.wakeQuad_eq, State.calRail_mesh]
theorem State.quad_wakeQuad (s : State) (q k : Nat) : (s.wakeQuad q).quad k = s.quad k := by
  rw [State.wakeQuad_eq, State.quad_mesh]
theorem State.cores_wakeQuad (s : State) (q : Nat) : (s.wakeQuad q).cores = s.cores := by
  rw [State.wakeQuad_eq]

theorem State.router_wakeQuad {s : State} {q p : Nat} (h : physQuad p ≠ q) : (s.wakeQuad q).router p = s.router p :=
  List.foldlRecOn (motive := fun t : State => t.router p = s.router p) _ _ rfl fun t ht k hk => by
    have hpk : p ≠ k := fun e => h (e ▸ physQuad_of_mem hk)
    exact (look_put_other _ _ _ hpk).trans ht

theorem exec_quadrantReturn {s : State} {q : QuadId} (hp : s.plant.powerGood = true) (hh : s.host.state ≠ .halted)
    (he : (s.quad q.toNat).ebbed = true) (ho : (s.quad q.toNat).powered = false)
    (hc : 1000000 ≤ (s.quad q.toNat).coolUsec) (hn : 18 ≤ (s.quad q.toNat).phases) :
    exec (.quadrantReturn q { failed := [] }) s = .next ((s.wakeQuad q.toNat).startQuad q.toNat).relaxRails := by
  have hc' : ¬ (s.quad q.toNat).coolUsec < 1000000 := by omega
  have hn' : ¬ (s.quad q.toNat).phases < 18 := by omega
  simp [exec, execQuadrantReturn, hp, hh, he, ho, hc', hn', State.wakeQuad]

theorem State.startQuad_cores (s : State) (q : Nat) : (s.startQuad q).cores = s.cores := rfl
theorem State.router_startQuad (s : State) (q p : Nat) : (s.startQuad q).router p = s.router p := rfl

/-- The rail of a quadrant that starts beside none that is up. -/
theorem State.startQuad_of_alone {s : State} {q : Nat} (h : s.rails = []) :
    ((s.startQuad q).quad q).powered = true ∧ ((s.startQuad q).quad q).vrail = s.calRail q 1600 ∧
      ((s.startQuad q).quad q).twork = (s.quad q).thi ∧ ((s.startQuad q).quad q).ebbed = (s.quad q).ebbed := by
  have hb : s.railBound q = 850 := State.railBound_of_alone (by simp [h])
  have hv : Nat.min (s.calRail q 1600) (s.railBound q) = s.calRail q 1600 := by
    rw [hb]
    exact Nat.min_eq_left (s.calRail_le q 1600)
  simp only [State.startQuad, State.quad_setQuad_self]
  exact ⟨trivial, hv, trivial, trivial⟩

/-- No other rail is up once a quadrant has started beside none. -/
theorem State.rails_startQuad {s : State} {q : Nat} (h : s.rails = []) : ∀ k ∈ (s.startQuad q).rails, k = q := by
  intro k hk
  obtain ⟨hr, hp⟩ := List.mem_filter.1 hk
  refine Decidable.byContradiction fun hne => ?_
  rw [State.startQuad, State.quad_setQuad, if_neg hne] at hp
  have hm : k ∈ s.rails := List.mem_filter.2 ⟨hr, by exact hp⟩
  rw [h] at hm
  exact List.not_mem_nil hm

theorem State.relaxRails_startQuad {s : State} {q : Nat} (h : s.rails = []) : (s.startQuad q).relaxRails = s.startQuad q := by
  refine State.relaxRails_of_within fun k hk => ?_
  obtain ⟨hr, hl⟩ := List.mem_filter.1 hk
  have hp : ((s.startQuad q).quad k).powered = true := (Bool.and_eq_true_iff.1 hl).2
  obtain rfl := State.rails_startQuad h k (List.mem_filter.2 ⟨hr, hp⟩)
  rw [State.railBound_of_alone (State.rails_startQuad h), (State.startQuad_of_alone h).2.1]
  exact s.calRail_le k 1600

/-- Settles O32: each row's next state is an expression of the lemmas above, which say what its row, its quadrant and its
routers are. -/
theorem faultMapsAndThermalEbbsTakeEffect : Obligations.FaultMapsAndThermalEbbsTakeEffect := by
  refine ⟨⟨?fence, ?commit⟩, fun s q => ⟨?ebb, ?off, ?back⟩⟩
  case fence =>
    intro s c l p w v hpow hhalt hroom howed hweak havail hreg _ hdie hrow
    obtain ⟨hv, hu⟩ := hroom
    have hk : rowOf p = coreDie l * 32 + coreRow l := by rw [← hdie, ← hrow]; rfl
    have hcol : physColOf p = p % 34 := rfl
    have hs : s.store.Takes (rowOf p) 672 := Store.Takes.mono ⟨hv, hu, howed⟩ (by decide)
    have hlook := State.look_weakFenced l hreg hs
    simp only [hk, hcol] at hlook
    obtain ⟨e, he, hseq, hcode, hkind, hid, -⟩ := State.exists_mem_logEvent hhalt
      { code := rcLasting, srcKind := 0, srcId := l }
      (BitVec.ofNat 64 (((look s.nemar.sram p []).getLast?.getD 0) / 2 ^ 32)) (BitVec.ofNat 64 (physColOf p)) 0 allOnes
    have hvt : v (s.weakFenced l p) = look (s.weakFenced l p).plant.rows (coreDie l * 32 + coreRow l) ({} : Row) := rfl
    refine ⟨s.weakFenced l p, exec_weakCoreFence (State.managed_of hpow hhalt) hweak havail hreg, ?_, ?_, ?_, ?_, ?_, ?_, ?_⟩
    · rw [hvt, hlook]
      split <;> exact (mem_addNum ..).2 (.inl rfl)
    · rw [State.weakFenced_nemar]
      exact (mem_addNum ..).2 (.inl rfl)
    · rw [State.weakFenced_nemar]
      exact fun hm => ((mem_dropNum ..).1 hm).2 rfl
    · rw [State.weakFenced_nemar]
    · refine ⟨e, ?_, hseq, hcode, hkind, hid⟩
      rw [State.weakFenced_nemar]
      exact he
    · intro hf
      rw [hvt, hlook, if_pos (by exact hf)]
      exact ⟨(mem_addNum ..).2 (.inl rfl), rfl⟩
    · intro hf
      rw [hvt, hlook, if_neg (by exact Nat.not_le.2 hf)]
      exact ⟨rfl, rfl⟩
  case commit =>
    intro s d row f k w hout hone hf hlen hreg _ hpow hhalt howed
    have hpend := State.pendingFaults_of_one hone
    have hrow := rowOf_at k hf
    have hcol := physColOf_at k hf
    have hnext := State.commitWhenFree_of_spare (p := k / 32 * 1088 + k % 32 * 34 + f) hreg
      (by rw [hrow]; exact howed) (by rw [hrow]; exact hlen)
    have hlook := State.look_commitFence s (k / 32 * 1088 + k % 32 * 34 + f)
    rw [hrow, hcol, ← hnext] at hlook
    refine ⟨_, exec_pendingFaultCommit (State.managed_of hpow hhalt) hout hpend, ?_, ?_⟩
    · exact congrArg Row.inForce hlook
    · exact (congrArg Row.faults hlook :)
  case ebb =>
    intro hlive hebbing hebbs hhalt hnone
    obtain ⟨e, he, hseq, hcode, -, -, hw1, hw2⟩ := State.exists_mem_logEvent
      (s := s.setQuad q.toNat { s.quad q.toNat with ebbing := true, ebbUsec := s.nemar.usec }) hhalt
      { code := stCoreLost, srcKind := 2, srcId := q.toNat / 4 } allOnes (BitVec.ofNat 64 q.toNat) 7 0
    refine ⟨_, exec_thermalEbb hlive hebbing hebbs hhalt, ?_⟩
    rw [State.beginEbb_of_none hnone]
    refine ⟨?_, ?_, ?_, e, he, hseq, hcode, hw1, hw2⟩
    · rw [State.logEbb, State.quad, State.logEvent_plant]
      exact State.quad_setQuad_self ..
    · rw [State.logEbb, State.logEvent_cores, State.setQuad_cores]
    · rw [State.logEbb, State.logEvent_regions, State.setQuad_regions]
  case off =>
    intro hebbing hready hnone hplan hflits
    refine ⟨s.ebbOff q, exec_ebbPowerOff hebbing hready hnone hplan hflits, ?_⟩
    rw [State.quad_ebbOff]
    refine ⟨rfl, rfl, rfl, rfl, fun p _ hpq hk => ?_, fun p _ hpq hk => ?_⟩
    · rw [State.router_ebbOff, State.router_ebbMesh_pass hpq hk]
    · rw [State.router_ebbOff, State.router_ebbMesh_isolated hpq hk]
  case back =>
    intro hebbed hoff hpow hhalt hcool hphases _ hrails
    have hrails' : (s.wakeQuad q.toNat).rails = [] := (s.rails_wakeQuad q.toNat).trans hrails
    obtain ⟨hpowered, hvrail, htwork, hebbed'⟩ := State.startQuad_of_alone (q := q.toNat) hrails'
    rw [State.calRail_wakeQuad] at hvrail
    rw [State.quad_wakeQuad] at htwork hebbed'
    refine ⟨_, exec_quadrantReturn hpow hhalt hebbed hoff hcool hphases, ?_⟩
    rw [State.relaxRails_startQuad hrails']
    refine ⟨hebbed'.trans hebbed, hpowered, hvrail, htwork, ?_, fun p hp => ?_⟩
    · rw [State.startQuad_cores, State.cores_wakeQuad]
    · rw [State.router_startQuad, State.router_wakeQuad hp]

end Sys2Proof.Machine

/-! ## Tiles of a walk start; generators read their tiles (R146 to R150, R188, R195, R196)

A slot opened for an engine event and the tile that starts in it; then the generators of a core, what the reads of a tile
leave as it was, and the generator whose next tile waits for its runs. -/

namespace Sys2Proof.Machine

/-! ### A slot opened for an engine event -/

/-- With nothing in flight, settling completes some slots of the core, and none of a core that has not ended. -/
theorem State.settle_slots (s : State) (l : Nat) (c : Core) (h : c.pend = []) :
    ∃ n, (c.ended = false → n = 0) ∧ (s.setCore l c).settle l = s.setCore l (c.completeSlots n) := by
  cases he : c.ended with
  | false => exact ⟨0, fun _ => rfl, by rw [State.settle_still s l c h (.inl he), Core.completeSlots_zero]⟩
  | true =>
    fun_cases State.settle
    · refine ⟨Nat.min c.quietTo c.retireSlot - c.slot, nofun, ?_⟩
      rw [State.advance_still _ _ _ (by simpa using h), State.setCore_setCore]
      simp +zetaDelta [he]
    · exact ⟨0, nofun, by rw [Core.completeSlots_zero]⟩

/-- With nothing in flight, slot d opens and holds no entry for a full queue. -/
theorem State.openFor_still (s : State) (l d : Nat) (body : State → State) (h : (s.core l).pend = [])
    (hd : (s.core l).slot ≤ d) :
    s.openFor l d body = (body (s.setCore l ((s.core l).completeSlots (d - (s.core l).slot)))).settle l := by
  have hslot : ((s.core l).completeSlots (d - (s.core l).slot)).slot = d := by
    rw [Core.completeSlots_eq]
    exact Nat.add_sub_cancel' hd
  have hheld : ((s.core l).completeSlots (d - (s.core l).slot)).heldEnqueues = [] := by
    rw [Core.heldEnqueues, Core.completeSlots_eq]
    simp [h]
  unfold State.openFor
  rw [State.advance_still s l d h]
  simp [hslot, hheld]

theorem State.onlyCore_setCore (s : State) (l : Nat) (c : Core) : s.onlyCore (s.setCore l c) l :=
  ⟨fun _ hk => State.core_setCore_other s c hk, rfl⟩

/-! ### A tile of a walk -/

/-- The start of a tile changes CORE_SEQ_POS and the instruction in hand alone. -/
theorem Core.startTile_eq (c : Core) (a : MatActive) (p : WalkPos) :
    c.startTile a p = { c with seqPos := p.w.pos p.tile, matA := (c.startTile a p).matA } := by
  fun_cases Core.startTile <;> rfl

theorem Core.startTile_matA_computed (c : Core) (a : MatActive) {p : WalkPos} (h : p.w.isComputed p.tile = true) :
    ∃ b, (c.startTile a p).matA = some b ∧ b.start = p.due ∧ b.g = 0 ∧ b.str = some (p.w.streamOf p.tile p.plane) ∧
      b.ld = (p.w.nextComputed p.tile).map (fun n => (!p.plane, p.w.loadOf n)) := by
  unfold Core.startTile
  rw [if_pos h]
  exact ⟨_, rfl, rfl, rfl, rfl, rfl⟩

theorem Core.startTile_matA_skipped (c : Core) (a : MatActive) {p : WalkPos} (h : p.w.isComputed p.tile = false)
    (hmore : p.tile + 1 < p.w.tiles) :
    (c.startTile a p).matA = some { a with walk := some { p with tile := p.tile + 1, due := p.due + 1 } } := by
  unfold Core.startTile
  simp [h, hmore, MatActive.complete]

/-- MMA_TILE with nothing in flight: the tile starts in slot d, and slots complete after it only of a core that has ended. -/
theorem exec_mmaTile {s : State} {c : CoreId} {d : Nat} {a : MatActive} {p : WalkPos} (hpend : (s.core c.toNat).pend = [])
    (hslot : (s.core c.toNat).slot ≤ d) (hev : s.eventSlot c.toNat .matrix = some d) (ha : (s.core c.toNat).matA = some a)
    (hp : a.walk = some p) (hg : a.groups ≤ a.g) :
    ∃ (k : Core) (n : Nat), k.slot = d ∧ ((s.core c.toNat).ended = false → n = 0) ∧
      exec (.mmaTile c) s = .next (s.setCore c.toNat ((k.startTile a p).completeSlots n)) := by
  let k := (s.core c.toNat).completeSlots (d - (s.core c.toNat).slot)
  have hk : k.slot = d ∧ k.pend = [] ∧ k.ended = (s.core c.toNat).ended := by
    simp only [k]
    rw [Core.completeSlots_eq]
    exact ⟨Nat.add_sub_cancel' hslot, hpend, rfl⟩
  obtain ⟨hkslot, hkpend, hkended⟩ := hk
  obtain ⟨n, hn, ht⟩ := s.settle_slots c.toNat (k.startTile a p) (by rw [Core.startTile_eq]; exact hkpend)
  refine ⟨k, n, hkslot, fun he => hn (by rw [Core.startTile_eq]; exact hkended.trans he), ?_⟩
  rw [← ht]
  show execMmaTile c s = _
  simp only [execMmaTile, hev, ha, hp, if_pos hg]
  rw [State.openFor_still _ _ _ _ hpend hslot, State.core_setCore_self, State.setCore_setCore]

/-! ### Generators of a core -/

theorem Core.gen_congr {c d : Core} (h : d.ag = c.ag) {g : Nat} : d.gen g = c.gen g := by
  rw [Core.gen, Core.gen, h]

theorem Core.gen_setGen (c : Core) {g : Nat} (hg : g < 4) (k : Nat) (a : AddrGen) :
    (c.setGen g a).gen k = if k = g then a else c.gen k := by
  unfold Core.gen Core.setGen
  by_cases h : k = g
  · subst h; simp [hg]
  · simp [h, Vector.getElem?_setIfInBounds_ne (Ne.symm h)]

theorem Core.gen_setGen_self (c : Core) {g : Nat} (hg : g < 4) (a : AddrGen) : (c.setGen g a).gen g = a := by
  rw [Core.gen_setGen c hg, if_pos rfl]

theorem Core.setGen_setGen (c : Core) (g : Nat) (a b : AddrGen) : (c.setGen g a).setGen g b = c.setGen g b := by
  unfold Core.setGen
  simp

/-- A generator with nothing landed keeps its core without landed entries. -/
theorem Core.landless.setGen {c : Core} {g : Nat} {a : AddrGen} (h : c.landless) (hg : g < 4) (hl : a.landed = [])
    (hf : a.fresh = 0) : (c.setGen g a).landless := by
  intro k hk
  rw [Core.gen_setGen c hg]
  split
  · exact ⟨hl, hf⟩
  · exact h k hk

theorem State.readLanded_landless {s : State} {l g : Nat} (h : (s.core l).landless) (hg : g < 4) : s.readLanded l g = s := by
  simp [State.readLanded, h g hg]

theorem State.settleLanded_landless {s : State} {l g : Nat} (h : (s.core l).landless) (hg : g < 4) :
    s.settleLanded l g = s := by
  simp [State.settleLanded, h g hg]

/-- Where nothing is landed before and after, the landing areas are left as they are. -/
theorem State.landing_landless {s t : State} {l : Nat} {f : State → State} (h : (s.core l).landless) (hf : f s = t)
    (ht : (t.core l).landless) : s.landing l f = t := by
  simp [State.landing, List.range, List.range.loop, State.readLanded_landless h, hf, State.settleLanded_landless ht]

/-! ### A fetch queue that waits for a run -/

theorem AddrGen.deliver_nil (a : AddrGen) : a.deliver [] = a := by
  simp [AddrGen.deliver]

/-- A generator whose oldest run has not returned delivers nothing (R195). -/
theorem AddrGen.emit_waiting {a : AddrGen} {r : Run} {rs : List Run} {ts : List (List Run)} (h : a.tiles = (r :: rs) :: ts)
    (hr : r.got = none) (n : Nat) : a.emit n = a := by
  cases n with
  | zero => rfl
  | succ n => simp [AddrGen.emit, h, hr, rangeFrom, AddrGen.deliver_nil]

theorem Core.acceptFetch_nil {c : Core} (h : c.fetchQ = []) : c.acceptFetch = c := by
  rw [Core.acceptFetch, h, acceptFetches, ← h]

/-- Once a tile of a generator that is not indexed has begun to wait, nothing of its core goes on. -/
theorem Core.acceptFetch_setGen_waiting {c : Core} {g : Nat} {a : AddrGen} {r : Run} {rs : List Run} {ts : List (List Run)}
    (hg : g < 4) (hi : a.indexed = false) (h : a.tiles = (r :: rs) :: ts) (hr : r.got = none) (hq : c.fetchQ = []) :
    (((c.setGen g a).pruneIndexer g).emitGen g).acceptFetch = c.setGen g a := by
  have hprune : (c.setGen g a).pruneIndexer g = c.setGen g a := by
    simp [Core.pruneIndexer, Core.gen_setGen_self c hg, hi]
  have hemit : (c.setGen g a).emitGen g = c.setGen g a := by
    simp [Core.emitGen, Core.gen_setGen_self c hg, AddrGen.emit_waiting h hr, Core.setGen_setGen]
  rw [hprune, hemit, Core.acceptFetch_nil (c := c.setGen g a) hq]

/-! ### Reads that leave a core -/

/-- From s to t core l's MU translates and sends reads: no byte of memory, no other core, and of core l neither its
generators nor its fetch queue change. -/
structure State.ReadsOf (l : Nat) (s t : State) : Prop where
  mem : t.mem = s.mem
  marks : t.marks = s.marks
  core : ∀ j, j ≠ l → t.core j = s.core j
  ag : (t.core l).ag = (s.core l).ag
  fetchQ : (t.core l).fetchQ = (s.core l).fetchQ

theorem State.ReadsOf.rfl {l : Nat} {s : State} : s.ReadsOf l s := ⟨.refl _, .refl _, fun _ _ => .refl _, .refl _, .refl _⟩

theorem State.ReadsOf.trans {l : Nat} {s t u : State} (h : s.ReadsOf l t) (k : t.ReadsOf l u) : s.ReadsOf l u where
  mem := k.mem.trans h.mem
  marks := k.marks.trans h.marks
  core j hj := (k.core j hj).trans (h.core j hj)
  ag := k.ag.trans h.ag
  fetchQ := k.fetchQ.trans h.fetchQ

/-- A change outside memory and the cores. -/
theorem State.ReadsOf.of_eq {l : Nat} {s t : State} (hmem : t.mem = s.mem) (hmarks : t.marks = s.marks)
    (hcores : t.cores = s.cores) : s.ReadsOf l t := by
  have hcore : ∀ j, t.core j = s.core j := fun j => by rw [State.core, State.core, hcores]
  exact ⟨hmem, hmarks, fun j _ => hcore j, by rw [hcore], by rw [hcore]⟩

/-- A change of core l outside its generators and their queues. -/
theorem State.ReadsOf.of_setCore {l : Nat} {s : State} {c : Core} (hag : c.ag = (s.core l).ag)
    (hq : c.fetchQ = (s.core l).fetchQ) : s.ReadsOf l (s.setCore l c) where
  mem := .refl _
  marks := .refl _
  core _ hj := State.core_setCore_other s c hj
  ag := by rw [State.core_setCore_self, hag]
  fetchQ := by rw [State.core_setCore_self, hq]

theorem State.ReadsOf.foldl {α : Type} {l : Nat} {f : State → α → State} (hf : ∀ (t : State) x, t.ReadsOf l (f t x))
    (xs : List α) (s : State) : s.ReadsOf l (xs.foldl f s) := by
  induction xs generalizing s with
  | nil => exact .rfl
  | cons x xs ih => exact (hf s x).trans (ih _)

theorem State.ReadsOf.foldl_snd {α β : Type} {l : Nat} {f : β × State → α → β × State}
    (hf : ∀ (x : β × State) a, x.2.ReadsOf l (f x a).2) (xs : List α) (x : β × State) : x.2.ReadsOf l (xs.foldl f x).2 := by
  induction xs generalizing x with
  | nil => exact .rfl
  | cons a xs ih => exact (hf x a).trans (ih _)

theorem State.ReadsOf.landless {l : Nat} {s t : State} (h : s.ReadsOf l t) (hs : (s.core l).landless) :
    (t.core l).landless := by
  intro g hg
  rw [Core.gen_congr h.ag]
  exact hs g hg

theorem State.ReadsOf.landing {l : Nat} {s t : State} {f : State → State} (hs : (s.core l).landless)
    (h : t.ReadsOf l (f s)) (ht : (t.core l).landless) : t.ReadsOf l (s.landing l f) := by
  rw [State.landing_landless hs (t := f s) (.refl _) (h.landless ht)]
  exact h

section
variable (s : State) (l : Nat)

theorem State.readsOf_free (f : Nat) : s.ReadsOf l { s with free := f } := .of_eq rfl rfl rfl

theorem State.readsOf_translate (p : Nat) : s.ReadsOf l (s.translate l p).2 := by
  fun_cases State.translate
  · exact .rfl
  · exact .of_setCore rfl rfl

theorem State.readsOf_steepTouch (p tier : Nat) : s.ReadsOf l (s.steepTouch l p tier) := by
  fun_cases State.steepTouch
  · exact .rfl
  case case2 r _ x t _ _ =>
    have ht : s.ReadsOf l t := .of_eq rfl rfl rfl
    exact ht.trans (.of_setCore rfl rfl)
  · exact .of_eq rfl rfl rfl

theorem State.readsOf_heatRead (p n : Nat) : s.ReadsOf l (s.heatRead p n) := .of_eq rfl rfl rfl

theorem State.readsOf_walkRead (a n : Nat) : s.ReadsOf l (s.walkRead l a n).2 := by
  refine State.ReadsOf.foldl_snd (fun x q => ?_) _ ([], s)
  split
  next p _ _ =>
    refine (x.2.readsOf_translate l p).trans ?_
    dsimp only
    split
    · exact (State.readsOf_steepTouch _ l _ _).trans (State.readsOf_heatRead ..)
    · exact State.readsOf_steepTouch _ l _ _
  next => exact .rfl

theorem State.readsOf_sendOne (key : Nat) (kind : FlitKind) : s.ReadsOf l (s.sendOne l key kind).2 := by
  fun_cases State.sendOne
  · exact .rfl
  all_goals exact .of_eq rfl rfl rfl

theorem State.readsOf_askMesh (owner : Nat) (ps : List (Nat × Nat)) : s.ReadsOf l (s.askMesh l owner ps).2 := by
  refine State.ReadsOf.foldl_snd (fun x q => ?_) _ ([], s)
  exact x.2.readsOf_sendOne l _ _

theorem State.readsOf_walkRuns (g : Nat) (rs : List Run) : s.ReadsOf l (s.walkRuns l g rs).2 := by
  refine State.ReadsOf.foldl_snd (fun x r => ?_) _ ([], s)
  split
  · exact .rfl
  · exact (x.2.readsOf_walkRead l _ _).trans (State.readsOf_askMesh _ l _ _)

theorem State.readsOf_sendReads (g : Nat) (ls : List (Nat × Nat)) : s.ReadsOf l (s.sendReads l g ls) := by
  refine State.ReadsOf.foldl (fun t x => ?_) _ s
  dsimp only
  split
  next u hu =>
    have hsend : t.ReadsOf l u := by
      revert hu
      fun_cases State.sendFlit <;> rintro ⟨⟩
      exact .of_eq rfl rfl rfl
    exact hsend.trans (.of_eq rfl rfl rfl)
  next => exact .rfl

end

/-- What a run asks for, the pages and flits of its read apart. -/
def Run.asked (r : Run) : Nat × Nat × Nat × Bool × Option (List (Byte × Bool)) := (r.addr, r.len, r.slot, r.withheld, r.got)

/-- The MU's walk leaves what each run asks for. -/
theorem State.asked_walkRuns (s : State) (l g : Nat) (rs : List Run) :
    (s.walkRuns l g rs).1.map Run.asked = rs.map Run.asked := by
  have go : ∀ (f : List Run × State → Run → List Run × State),
      (∀ x r, (f x r).1.map Run.asked = x.1.map Run.asked ++ [r.asked]) →
      ∀ (rs : List Run) x, (rs.foldl f x).1.map Run.asked = x.1.map Run.asked ++ rs.map Run.asked := by
    intro f hf rs
    induction rs with
    | nil => simp
    | cons r rs ih => intro x; simp [ih, hf]
  refine go _ (fun x r => ?_) rs ([], s)
  split <;> simp [Run.asked]

/-! ### The next tile of a generator that reads -/

theorem State.gateOpen_region {s : State} {l r : Nat} (h : s.regionOf l = some r) : s.gateOpen l = (s.region r).gate := by
  rw [State.gateOpen, h]

theorem AddrGen.step_eq (a : AddrGen) (p : Pass) (t : Nat) : a.step p t = { a with
    passes := if a.cur.isNone then a.passes.drop 1 else a.passes
    cur := if t + 1 < a.tilesIn p then some (p, t + 1) else none } := by
  unfold AddrGen.step
  split <;> rfl

theorem AddrGen.useIndices_zero (a : AddrGen) (fin : Bool) :
    a.useIndices 0 fin = { a with indices := if fin && a.replay.isEmpty then [] else a.indices } := by
  cases fin <;> cases h : a.replay.isEmpty <;> simp [AddrGen.useIndices, h]

/-- The generator once tile t of pass p, of n entries, waits with its runs `rs`. -/
def AddrGen.awaiting (a : AddrGen) (p : Pass) (t n : Nat) (rs : List Run) : AddrGen :=
  let fin := decide (a.tilesIn p ≤ t + 1)
  { a with
    gated := false
    tiles := a.tiles ++ [rs]
    left := a.left ++ [⟨n - a.skip, fin, p, t, [], 0, 0⟩]
    passes := if a.cur.isNone then a.passes.drop 1 else a.passes
    cur := if t + 1 < a.tilesIn p then some (p, t + 1) else none
    indices := if fin && a.replay.isEmpty then [] else a.indices
    begun := a.begun - 1
    told := if a.left.isEmpty && a.deq = 0 then t else a.told }

theorem AddrGen.tiles_awaiting {a : AddrGen} (h : a.tiles = []) (p : Pass) (t n : Nat) (rs : List Run) :
    (a.awaiting p t n rs).tiles = [rs] := by
  rw [AddrGen.awaiting, h, List.nil_append]

/-- The runs of tile t of a pass of a generator that is not indexed (R188). -/
def AddrGen.plainRuns (a : AddrGen) (p : Pass) (t : Nat) : List Run :=
  (List.range (a.tileRuns p.cnt)).map (fun j => a.makeRun p t j none)

/-- What lets a generator that is not indexed read its next tile, the entry gate apart (R195, R196). -/
structure State.MayRead (s : State) (l n : Nat) (p : Pass) (t : Nat) : Prop where
  next : ((s.core l).gen n).next = some (p, t)
  moves : s.queuesMove l = true
  due : (s.core l).reached p.due = true
  en : ((s.core l).gen n).en = true
  reads : ((s.core l).gen n).writes = false
  plain : ((s.core l).gen n).indexed = false
  ahead : ((s.core l).gen n).left.length < ((s.core l).gen n).ahead
  room : ((s.core l).gen n).held + (s.core l).tileEntries n p.cnt ≤ 16 + ((s.core l).gen n).lsize
  landless : (s.core l).landless

/-- Nothing but the entry gate holds such a generator. -/
theorem State.MayRead.not_held {s : State} {l n : Nat} {p : Pass} {t : Nat} (h : s.MayRead l n p t) :
    (!s.queuesMove l || !(s.core l).reached p.due || !((s.core l).gen n).en || ((s.core l).gen n).writes ||
      ((s.core l).gen n).reach ≤ ((s.core l).gen n).left.length ||
      16 + ((s.core l).gen n).lsize < ((s.core l).gen n).held + (s.core l).tileEntries n p.cnt) = false := by
  have hahead := h.ahead
  have hroom := h.room
  simp [AddrGen.reach, h.moves, h.due, h.en, h.reads, h.plain]
  omega

/-- The closed gate: the generator is GATED. -/
theorem State.MayRead.exec_gated {s : State} {c : CoreId} {g : BitVec 2} {p : Pass} {t : Nat}
    (h : s.MayRead c.toNat g.toNat p t) (hgate : ((s.core c.toNat).gen g.toNat).atGate p t = true)
    (hshut : s.gateOpen c.toNat = false) :
    exec (.agTileRead c g) s = .next (s.setCore c.toNat ((s.core c.toNat).setGen g.toNat
      { (s.core c.toNat).gen g.toNat with gated := true })) := by
  obtain ⟨hlanded, hfresh⟩ := h.landless g.toNat g.isLt
  refine congrArg Host.Outcome.next (State.landing_landless h.landless ?_ ?_)
  · simp only [h.next, h.not_held, hgate, hshut]
    rfl
  · rw [State.core_setCore_self]
    exact h.landless.setGen g.isLt hlanded hfresh

/-- A generator that takes no index leaves its core as it was. -/
theorem Core.takeIndices_zero (g n : Nat) (c : Core) : Core.takeIndices g 0 n c = c := by
  cases n <;> simp [Core.takeIndices]

theorem AddrGen.withheld_plainRuns {a : AddrGen} {p : Pass} {t : Nat} {r : Run} (h : r ∈ a.plainRuns p t) :
    r.withheld = false := by
  obtain ⟨j, -, rfl⟩ := List.mem_map.1 h
  rfl

/-- What AG_TILE_READ makes of a generator that takes no index and whose tile has no run withheld. -/
theorem AddrGen.awaiting_eq (a : AddrGen) (p : Pass) (t n : Nat) (rs : List Run) :
    let b := ({ a with gated := false } : AddrGen).step p t
    let b := ({ b with errs := b.errs + BitVec.ofNat 64 0 } : AddrGen).useIndices 0 b.cur.isNone
    ({ b with
      tiles := b.tiles ++ [rs], left := b.left ++ [⟨n - b.skip, b.cur.isNone, p, t, [], 0, 0⟩], begun := b.begun - 1
      told := if b.left.isEmpty && b.deq = 0 then t else b.told } : AddrGen) = a.awaiting p t n rs := by
  have hfin : (if t + 1 < a.tilesIn p then some (p, t + 1) else none).isNone = decide (a.tilesIn p ≤ t + 1) := by
    split <;> simp <;> omega
  have hsame : ({ a with gated := false } : AddrGen).tilesIn p = a.tilesIn p := rfl
  simp only [AddrGen.step_eq, AddrGen.useIndices_zero, AddrGen.awaiting, hsame, hfin, BitVec.add_zero]

/-- The first of the runs that wait has not returned. -/
theorem State.walkRuns_plain (s : State) (l g : Nat) {a : AddrGen} {p : Pass} (h : 0 < a.tileRuns p.cnt) (t : Nat) :
    ∃ r rs, (s.walkRuns l g (a.plainRuns p t)).1 = r :: rs ∧ r.got = none := by
  have hmap := s.asked_walkRuns l g (a.plainRuns p t)
  cases hrs : (s.walkRuns l g (a.plainRuns p t)).1 with
  | nil =>
    rw [hrs] at hmap
    simp [AddrGen.plainRuns] at hmap
    omega
  | cons r rs =>
    have hr : r.asked ∈ (a.plainRuns p t).map Run.asked := by simp [← hmap, hrs]
    obtain ⟨r', hr', hasked⟩ := List.mem_map.1 hr
    obtain ⟨j, -, rfl⟩ := List.mem_map.1 hr'
    exact ⟨r, rs, rfl, (congrArg (fun x => x.2.2.2.2) hasked).symm⟩

/-- The state once tile t waits with its runs, their pages translated and their reads on the mesh. -/
def State.awaitTile (s : State) (l n : Nat) (p : Pass) (t : Nat) : State :=
  let k := s.core l
  let w := (s.setCore l k).walkRuns l n ((k.gen n).plainRuns p t)
  w.2.setCore l ((w.2.core l).setGen n ((k.gen n).awaiting p t (k.tileEntries n p.cnt) w.1))

section
variable (s : State) (l n : Nat) (p : Pass) (t : Nat)

/-- The walk over the runs of the next tile. -/
theorem State.readsOf_walkTile :
    s.ReadsOf l ((s.setCore l (s.core l)).walkRuns l n (((s.core l).gen n).plainRuns p t)).2 :=
  .trans (.of_setCore rfl rfl) (State.readsOf_walkRuns ..)

theorem State.mem_awaitTile : (s.awaitTile l n p t).mem = s.mem := by
  rw [State.awaitTile, State.setCore_mem, (s.readsOf_walkTile l n p t).mem]

theorem State.marks_awaitTile : (s.awaitTile l n p t).marks = s.marks := by
  rw [State.awaitTile, State.setCore_marks, (s.readsOf_walkTile l n p t).marks]

theorem State.core_awaitTile_other {j : Nat} (hj : j ≠ l) : (s.awaitTile l n p t).core j = s.core j :=
  (State.core_setCore_other _ _ hj).trans ((s.readsOf_walkTile l n p t).core j hj)

theorem State.gen_awaitTile (hn : n < 4) : ((s.awaitTile l n p t).core l).gen n =
    ((s.core l).gen n).awaiting p t ((s.core l).tileEntries n p.cnt)
      ((s.setCore l (s.core l)).walkRuns l n (((s.core l).gen n).plainRuns p t)).1 := by
  rw [State.awaitTile, State.core_setCore_self, Core.gen_setGen_self _ hn]

theorem State.landless_awaitTile (hn : n < 4) (h : (s.core l).landless) : ((s.awaitTile l n p t).core l).landless := by
  obtain ⟨hlanded, hfresh⟩ := h n hn
  rw [State.awaitTile, State.core_setCore_self]
  exact ((s.readsOf_walkTile l n p t).landless h).setGen hn hlanded hfresh

end

/-- The gate open, no tile being read and no fetch instruction waiting: the next tile waits with its runs, and its reads leave. -/
theorem State.MayRead.exec_reading {s : State} {c : CoreId} {g : BitVec 2} {p : Pass} {t : Nat}
    (h : s.MayRead c.toNat g.toNat p t)
    (hopen : (((s.core c.toNat).gen g.toNat).atGate p t && !s.gateOpen c.toNat) = false) (hq : (s.core c.toNat).fetchQ = [])
    (htiles : ((s.core c.toNat).gen g.toNat).tiles = []) (hsome : 0 < ((s.core c.toNat).gen g.toNat).tileRuns p.cnt) :
    ∃ u, exec (.agTileRead c g) s = .next u ∧ (s.awaitTile c.toNat g.toNat p t).ReadsOf c.toNat u := by
  have hn : g.toNat < 4 := g.isLt
  refine ⟨_, rfl, State.ReadsOf.landing h.landless ?_ (s.landless_awaitTile _ _ _ _ hn h.landless)⟩
  generalize c.toNat = l at *
  generalize g.toNat = n at *
  extract_lets a pos
  have hnext : a.next = some (p, t) := h.next
  rw [hnext]
  dsimp -zeta only
  extract_lets e need k src a' xs rs bad s' f runs b₀ b₁ tile w b₂ k₁ k₂ src' s₁ parts
  rw [if_neg (by exact ne_true_of_eq_false h.not_held), if_neg (by exact ne_true_of_eq_false hopen)]
  have hneed : need = 0 := if_neg (ne_true_of_eq_false h.plain)
  have hpos : pos = (0, 0) := if_neg (by rw [h.plain]; nofun)
  have hk : k = s.core l := by simp only [k, hneed, Core.takeIndices_zero]
  have hxs : xs = [] := by simp only [xs, hneed, List.take_zero]
  have hrs : rs = a.plainRuns p t := by
    simp only [rs, hxs, a', src, hk]
    rfl
  have hbad : bad = 0 := by
    simp only [bad, hrs]
    simpa using fun r hr => AddrGen.withheld_plainRuns hr
  have hruns : runs = a.plainRuns p t := by
    simp only [runs, hrs]
    refine (List.map_congr_left fun r hr => ?_).trans (List.map_id _)
    rw [AddrGen.withheld_plainRuns hr]
    rfl
  have hb : b₂ = a.awaiting p t e w.1 := by
    rw [← AddrGen.awaiting_eq]
    simp only [b₂, b₁, b₀, tile, a', src, hk, hneed, hbad, hxs, hpos]
    rfl
  have hwait : src' = s.awaitTile l n p t := by
    obtain ⟨r, rs, hfirst, hgot⟩ := (s.setCore l (s.core l)).walkRuns_plain l n hsome t
    have hw : w = (s.setCore l (s.core l)).walkRuns l n (a.plainRuns p t) := by simp only [w, s', hk, hruns]
    have hq' : k₁.fetchQ = [] := by
      simp only [k₁, hw]
      exact (s.readsOf_walkTile l n p t).fetchQ.trans hq
    have hk₂ : k₂ = k₁.setGen n b₂ := by
      refine Core.acceptFetch_setGen_waiting hn (hb ▸ h.plain) (r := r) (rs := rs) (ts := []) ?_ hgot hq'
      rw [hb, hw, ← hfirst]
      exact congrArg (· ++ [_]) htiles
    simp only [src', hk₂, hb, k₁, hw]
    rfl
  rw [if_neg (by rw [hneed]; exact Nat.not_lt_zero _), ← hwait]
  exact (src'.readsOf_free l _).trans (s₁.readsOf_sendReads l n _)

/-- Settles O16: a tile starts through `Core.startTile` in a slot opened on nothing in flight; a generator's next tile leaves the
state `State.awaitTile`, but for the numbers of the flits and free bytes its reads take. -/
theorem tilesAndGeneratorsFollowTheirWalks : Obligations.TilesAndGeneratorsFollowTheirWalks := by
  refine ⟨?tile, ?read⟩
  case tile =>
    intro s c d a p l k hpend hslot hev ha hp hg
    obtain ⟨k', n, hk'slot, hn, hexec⟩ := exec_mmaTile hpend hslot hev ha hp hg
    refine ⟨_, hexec, s.onlyCore_setCore _ _, fun he => ?_, ?_, fun hc => ?_, fun hc hmore => ?_⟩ <;>
      rw [State.core_setCore_self]
    · rw [hn he, Core.completeSlots_zero, Core.startTile_eq]
      exact hk'slot
    · rw [Core.completeSlots_eq, Core.startTile_eq]
    · rw [Core.completeSlots_eq]
      exact Core.startTile_matA_computed k' a hc
    · rw [Core.completeSlots_eq]
      exact Core.startTile_matA_skipped k' a hc hmore
  case read =>
    intro s c g p i l n k a hnext hmove hland hdue hen hreads hplain hahead hroom
    have hmay : s.MayRead l n p i := ⟨hnext, hmove, hdue, hen, hreads, hplain, hahead, hroom, hland⟩
    refine ⟨fun hgate r hr hshut => hmay.exec_gated hgate ?_, fun hgate hq htiles hruns => ?_⟩
    · rw [State.gateOpen_region hr]
      exact hshut
    · have hopen : (a.atGate p i && !s.gateOpen l) = false := by
        rcases hgate with hgate | ⟨r, hr, hgate⟩
        · rw [hgate, Bool.false_and]
        · rw [State.gateOpen_region hr, hgate, Bool.not_true, Bool.and_false]
      obtain ⟨t, hexec, ht⟩ := hmay.exec_reading hopen hq htiles hruns
      have hgen := s.gen_awaitTile l n p i g.isLt
      rw [← Core.gen_congr ht.ag] at hgen
      refine ⟨t, hexec, ?_⟩
      rw [hgen]
      exact ⟨⟨_, AddrGen.tiles_awaiting htiles .., (State.asked_walkRuns ..).trans (List.map_map ..)⟩, rfl, rfl, rfl, rfl, rfl,
        rfl, ht.mem.trans (s.mem_awaitTile ..), ht.marks.trans (s.marks_awaitTile ..),
        fun j hj => (ht.core j hj).trans (s.core_awaitTile_other l n p i hj)⟩

end Sys2Proof.Machine
